-- ==== Sys2Proof/Word.lean ====
section
/-!
DEFINITION. Sys2Proof/Word.lean: the word types of the block and the sparse table that its large register and
memory arrays are held in.
-/

namespace Sys2Proof

/-- A byte of memory. -/
abbrev Byte := BitVec 8
/-- A 32-bit word: porter and hostel registers. -/
abbrev W32 := BitVec 32
/-- A 64-bit word: the widest control register. -/
abbrev W64 := BitVec 64
/-- A tally (R121). -/
abbrev W128 := BitVec 128

/-- A sparse table: pairs of a key and a value, keys strictly rising, no pair equal to the default that an
unlisted key has. -/
abbrev Tab (α : Type) := List (Nat × α)

end Sys2Proof
end

