-- ==== Sys2Proof/Types.lean ====
section
/-!
DEFINITION. Sys2Proof/Types.lean: the kinds of data that commands carry from outside the device or name inside it.
-/

namespace Sys2Proof

/-- A core that runs the porter set (R213, R423): one of 4,096 porters, or a steward core. -/
inductive CoreRef where
  | porter (n : BitVec 12)
  | steward (k : BitVec 2)
  deriving DecidableEq, Repr

/-- The half a unit lies in (Table 0.5). -/
inductive Half where
  | west | east
  deriving DecidableEq, Repr

/-- A unit under test, by its source family and index (Table 16.6). -/
structure UnitRef where
  family : BitVec 4
  index : BitVec 12
  deriving DecidableEq, Repr

/-- What SRAM self-test finds faulty (R59-R61, R461). -/
inductive SramFault where
  /-- A faulty row of a slice sub-array, with the row's number inside the sub-array. -/
  | row (slice : BitVec 7) (sub : BitVec 5) (row : BitVec 10)
  /-- A faulty column of a slice sub-array. -/
  | column (slice : BitVec 7) (sub : BitVec 5)
  /-- A fault of another unit's array that its own spares cannot repair. -/
  | array (u : UnitRef)
  deriving DecidableEq, Repr

/-- The outcome of PCIe link training (R448). -/
structure PcieLink where
  gen : BitVec 3
  width : BitVec 3
  flit : Bool
  deriving DecidableEq, Repr

/-- What training one memory site finds (R297): its device's generation and identity, the rates that train, its
capacity, the fixed latency and bound reported, and the least spares left in a bank. -/
structure SiteTraining where
  populated : Bool
  gen : BitVec 2
  identityOk : Bool
  rate : Option (BitVec 2)
  capacityMib : BitVec 17
  phyLat : BitVec 12
  readBound : BitVec 12
  units : BitVec 12
  meshFloor : BitVec 6
  sparesLeftMin : BitVec 8
  deriving DecidableEq, Repr

/-- The clock domains that are gated when no leg needs them (R22, R26). -/
inductive Domain where
  | fabric (east : Bool)
  | hostel (h : BitVec 3)
  | porter (east : Bool)
  | upper (u : BitVec 2)
  | site (s : BitVec 5)
  | oxlux (x : BitVec 4)
  deriving DecidableEq, Repr

/-- Who writes a register (R33, R501): the steward or the host. -/
inductive Writer where
  | steward | host
  deriving DecidableEq, Repr

/-- An output of a mesh router (R99): the four directions, the core, and a unit attached at the router. -/
inductive MeshPort where
  | north | south | east | west | local | attachment
  deriving DecidableEq, Repr

/-- Where the dispatcher puts one block (R146): hostel, first group slot and first 64 KiB unit of its store. -/
structure Placement where
  hostel : BitVec 3
  slots : List (BitVec 6)
  unit : BitVec 8
  deriving DecidableEq, Repr

/-- What an Oxlux port learns in DETECT (R330). -/
structure DetectResult where
  maxRate : BitVec 2
  minWidth : BitVec 2
  reversed : Bool
  polarity : BitVec 8
  deriving DecidableEq, Repr

/-- A received Oxlux frame after FEC (R340): the symbols corrected, the lost codewords, and its eight slots. -/
structure RxFrame where
  corrected : Nat
  uncorrected : Nat
  slots : List (BitVec 2108)
  deriving DecidableEq, Repr

/-- One bond group's training outcome (R380). -/
structure GroupTraining where
  trained : Bool
  spares : BitVec 4
  deriving DecidableEq, Repr

/-- One zone's sensor readings in quarter degrees (R398-R402): four die sensors and the external sensors. -/
structure ZoneSample where
  zone : BitVec 5
  die : List (BitVec 12)
  ext : List (Option (BitVec 12))
  deriving DecidableEq, Repr

end Sys2Proof
end

