-- ==== Sys2Proof/Syntax.lean ====
section
/-!
DEFINITION. Sys2Proof/Syntax.lean: the commands of the TZ-VB2 block, one constructor for each row of
spec/opcode_table.json, with what the row's event brings from outside the device or names inside it.

A hostel instruction carries the hostel, the group slot and its 64-bit word (R181); an instruction of the
porter set carries the core and its 32-bit word (R213). A command that acts on what already waits in a queue
of the device names only the unit.
-/

namespace Sys2Proof

/-- The commands. -/
inductive Instr where
  /-- POWER_GOOD_RISE, R457: Power-good rises and the device starts the always-on domain, the rails and the fuse read of the power-on stages. -/
  | powerGoodRise
  /-- POWER_GOOD_FALL, R457: Power-good falls and the device switches its rails off in reverse order. -/
  | powerGoodFall
  /-- RESET_N_ASSERT, R457: RESET_N is held low for at least 10 µs while power-good is high, and the device acts as if power-good had fallen and risen. -/
  | resetNAssert
  /-- FUSE_READ_DONE, R460: The fuse read of stage 3 ends, and every parallel training engine starts in the same fabric cycle, or the device enters FAILED with cause FUSE_MAP. -/
  | fuseReadDone (rereads : Nat) (readable : Bool)
  /-- SRAM_SELF_TEST_DONE, R461: SRAM built-in self-test ends, soft-repairs faulty rows and columns with spares, and removes or retires what it cannot repair. -/
  | sramSelfTestDone (faults : List SramFault)
  /-- LOGIC_SELF_TEST_DONE, R461: Logic self-test of hostels, porters, couriers and seam channels ends, and failing units are removed and logged as new defects. -/
  | logicSelfTestDone (failed : List UnitRef) (ctuOk xrOk : Bool)
  /-- KNOWN_ANSWER_TESTS_DONE, R458: The strongbox known-answer tests end, and a failure sends the device to FAILED. -/
  | knownAnswerTestsDone (ok : Bool)
  /-- PCIE_LINK_TRAINED, R458: PCIe link training ends with a trained link or without one. -/
  | pcieLinkTrained (link : Option PcieLink)
  /-- SITE_TRAINING_DONE, R297: An HBM site or LPDDR port finishes training at the first rate that works, or is removed when no rate trains or its identity mismatches. -/
  | siteTrainingDone (site : BitVec 5) (r : SiteTraining)
  /-- READY, R459: After the last engine reports, the boot ROM merges the results, clears memories, publishes the floor-plan record and declares ready or FAILED. -/
  | ready
  /-- CLOCK_GATE_IDLE, R26: A domain that no running or eligible leg has needed for 100 µs has its clock and PLL stopped. -/
  | clockGateIdle (d : Domain)
  /-- CLOCK_WAKE_END, R110: The fixed wake count of 19,200 fabric cycles ends, and the leg may start, or a PLL that has not locked is a fault that fences its units and kills the context. -/
  | clockWakeEnd (d : Domain) (locked : Bool)
  /-- ETC_TICK, R454: Each always-on cycle advances ETC.VALUE by 80 ns. -/
  | etcTick
  /-- ETC_LOW_READ, R454: A 32-bit read of the low word of ETC.VALUE latches the high word for the next read at offset + 4. -/
  | etcLowRead
  /-- REGISTER_WRITE, R13: A write to a register field that has no row of its own sets, clears or ignores the field by its access code. -/
  | registerWrite (who : Writer) (off : BitVec 26) (wide : Bool) (v : BitVec 64)
  /-- TIMETABLE_SLOT, R69: A half reaches its next slot and performs every scheduled meeting of the active bank, the reserved background service and the slot counter advance. -/
  | timetableSlot (east : Bool)
  /-- SCRUB_PASS_START, R40: At a period boundary of SLICE.SCRUB.PERIOD_MS the scrubber starts a pass over the slice, or sets SCRUB_LATE when the previous pass has not ended. -/
  | scrubPassStart (sl : BitVec 7)
  /-- REDUCE_COMBINE, R86: The reduction unit performs the one eligible combine of the cycle whose contribution arrived earliest and advances the expected index. -/
  | reduceCombine (sl : BitVec 7)
  /-- REDUCE_CLOSE, R92: On the steward's notice that a launch left RUNNING, each slice closes that launch's open reduction beats, poisons touched destinations and logs REDUCE_CLOSE. -/
  | reduceClose (sl : BitVec 7) (launch : BitVec 16)
  /-- ARM, R71: A write of XR.TT_CTRL.ARM starts the check of the staging bank and blocks further staging writes in that half. -/
  | arm (east : Bool)
  /-- TT_CHECK_DONE, R72: The timetable check ends and the half either awaits the switch or sets CHECK_FAIL and logs the first breach. -/
  | ttCheckDone (east : Bool)
  /-- BANK_SWITCH, R71: Once both halves have passed the check and the milestone is released, both halves switch banks at the same slot 0 and load the mesh multicast table. -/
  | bankSwitch
  /-- RUN_SET, R73: Setting XR.TT_CTRL.RUN makes scheduled entries take effect and starts both slot counters in the same cycle. -/
  | runSet
  /-- RUN_CLEAR, R73: Clearing XR.TT_CTRL.RUN stops scheduled meetings and makes every cycle a reserved background slot in both halves. -/
  | runClear
  /-- SEAM_HOLD_END, R97: The held half finds its beat or credit and resumes its timetable. -/
  | seamHoldEnd (east : Bool)
  /-- REALIGN, R98: After the clocks become equal, the leading half waits at slot 0 until the other half reaches slot 0 of the same period, and both run on in step. -/
  | realign
  /-- MESH_HOP, R101: A router output grants one flit per porter cycle, guarded flits first, then by virtual-channel priority, and forwards it in dimension order. -/
  | meshHop (router : BitVec 12) (out : MeshPort)
  /-- LEG_START, R109: The dispatcher starts an admitted leg at the first slot 0 at least 64 cycles after its milestones, admission and clock wake. -/
  | legStart (slot : BitVec 4) (leg : BitVec 12)
  /-- TIMETABLE_STAGE, R439: The dispatcher copies a leg's timetable image into the staging banks and sets ARM in both halves. -/
  | timetableStage (slot : BitVec 4) (leg : BitVec 12)
  /-- DISPATCHER_PUSH, R242: The dispatcher pushes a leg's courier descriptor into its channel queue as soon as an entry is free. -/
  | dispatcherPush (slot : BitVec 4) (leg : BitVec 12) (d : BitVec 11)
  /-- BLOCK_PLACE, R146: The dispatcher places a block or whole cluster once group slots and a store allocation are free, clearing the allocation and tile registers. -/
  | blockPlace (slot : BitVec 4) (leg : BitVec 12) (first : BitVec 6) (places : List Placement)
  /-- ADD, R187: Hostel integer add, wrapping. -/
  | add (h : BitVec 3) (g : BitVec 6) (w : BitVec 64)
  /-- SUB, R187: Hostel integer subtract, wrapping. -/
  | sub (h : BitVec 3) (g : BitVec 6) (w : BitVec 64)
  /-- ADDS, R187: Hostel signed saturating add. -/
  | adds (h : BitVec 3) (g : BitVec 6) (w : BitVec 64)
  /-- SUBS, R187: Hostel signed saturating subtract. -/
  | subs (h : BitVec 3) (g : BitVec 6) (w : BitVec 64)
  /-- MUL, R187: Hostel low 32 bits of a product. -/
  | mul (h : BitVec 3) (g : BitVec 6) (w : BitVec 64)
  /-- MULHU, R187: Hostel high 32 bits of the unsigned product. -/
  | mulhu (h : BitVec 3) (g : BitVec 6) (w : BitVec 64)
  /-- MULHS, R187: Hostel high 32 bits of the signed product. -/
  | mulhs (h : BitVec 3) (g : BitVec 6) (w : BitVec 64)
  /-- MAD, R187: Hostel low 32 bits of a times b plus c. -/
  | mad (h : BitVec 3) (g : BitVec 6) (w : BitVec 64)
  /-- AND, R187: Hostel bitwise and. -/
  | and (h : BitVec 3) (g : BitVec 6) (w : BitVec 64)
  /-- OR, R187: Hostel bitwise or. -/
  | or (h : BitVec 3) (g : BitVec 6) (w : BitVec 64)
  /-- XOR, R187: Hostel bitwise exclusive or. -/
  | xor (h : BitVec 3) (g : BitVec 6) (w : BitVec 64)
  /-- SHL, R187: Hostel shift left by b mod 32. -/
  | shl (h : BitVec 3) (g : BitVec 6) (w : BitVec 64)
  /-- SHR, R187: Hostel logical shift right by b mod 32. -/
  | shr (h : BitVec 3) (g : BitVec 6) (w : BitVec 64)
  /-- SRA, R187: Hostel arithmetic shift right by b mod 32. -/
  | sra (h : BitVec 3) (g : BitVec 6) (w : BitVec 64)
  /-- MIN, R187: Hostel signed minimum. -/
  | min (h : BitVec 3) (g : BitVec 6) (w : BitVec 64)
  /-- MAX, R187: Hostel signed maximum. -/
  | max (h : BitVec 3) (g : BitVec 6) (w : BitVec 64)
  /-- MINU, R187: Hostel unsigned minimum. -/
  | minu (h : BitVec 3) (g : BitVec 6) (w : BitVec 64)
  /-- MAXU, R187: Hostel unsigned maximum. -/
  | maxu (h : BitVec 3) (g : BitVec 6) (w : BitVec 64)
  /-- CLZ, R187: Hostel count of leading zero bits. -/
  | clz (h : BitVec 3) (g : BitVec 6) (w : BitVec 64)
  /-- POPC, R187: Hostel count of one bits. -/
  | popc (h : BitVec 3) (g : BitVec 6) (w : BitVec 64)
  /-- MOV, R187: Hostel move of a register or immediate. -/
  | mov (h : BitVec 3) (g : BitVec 6) (w : BitVec 64)
  /-- SEL, R187: Hostel select of a or b by a predicate. -/
  | sel (h : BitVec 3) (g : BitVec 6) (w : BitVec 64)
  /-- LREAD, R187: Hostel read of a register of another lane. -/
  | lread (h : BitVec 3) (g : BitVec 6) (w : BitVec 64)
  /-- ICMP, R188: Hostel signed integer compare into a predicate, register or immediate form. -/
  | icmp (h : BitVec 3) (g : BitVec 6) (w : BitVec 64)
  /-- ICMPU, R188: Hostel unsigned integer compare into a predicate. -/
  | icmpu (h : BitVec 3) (g : BitVec 6) (w : BitVec 64)
  /-- FCMP, R188: Hostel floating compare into a predicate. -/
  | fcmp (h : BitVec 3) (g : BitVec 6) (w : BitVec 64)
  /-- PAND, R188: Hostel predicate and. -/
  | pand (h : BitVec 3) (g : BitVec 6) (w : BitVec 64)
  /-- POR, R188: Hostel predicate or. -/
  | por (h : BitVec 3) (g : BitVec 6) (w : BitVec 64)
  /-- PXOR, R188: Hostel predicate exclusive or. -/
  | pxor (h : BitVec 3) (g : BitVec 6) (w : BitVec 64)
  /-- PNOT, R188: Hostel predicate not. -/
  | pnot (h : BitVec 3) (g : BitVec 6) (w : BitVec 64)
  /-- PANY, R188: Hostel vote: 1 when any active lane has the predicate set. -/
  | pany (h : BitVec 3) (g : BitVec 6) (w : BitVec 64)
  /-- PALL, R188: Hostel vote: 1 when all active lanes have the predicate set. -/
  | pall (h : BitVec 3) (g : BitVec 6) (w : BitVec 64)
  /-- PMASK, R188: Hostel mask of active lanes with the predicate set, written to every active lane. -/
  | pmask (h : BitVec 3) (g : BitVec 6) (w : BitVec 64)
  /-- FADD, R189: Hostel floating add. -/
  | fadd (h : BitVec 3) (g : BitVec 6) (w : BitVec 64)
  /-- FSUB, R189: Hostel floating subtract. -/
  | fsub (h : BitVec 3) (g : BitVec 6) (w : BitVec 64)
  /-- FMUL, R189: Hostel floating multiply. -/
  | fmul (h : BitVec 3) (g : BitVec 6) (w : BitVec 64)
  /-- FFMA, R189: Hostel fused multiply-add rounded once. -/
  | ffma (h : BitVec 3) (g : BitVec 6) (w : BitVec 64)
  /-- FMIN, R189: Hostel floating minimum. -/
  | fmin (h : BitVec 3) (g : BitVec 6) (w : BitVec 64)
  /-- FMAX, R189: Hostel floating maximum. -/
  | fmax (h : BitVec 3) (g : BitVec 6) (w : BitVec 64)
  /-- FABS, R189: Hostel sign-bit clear. -/
  | fabs (h : BitVec 3) (g : BitVec 6) (w : BitVec 64)
  /-- FNEG, R189: Hostel sign-bit invert. -/
  | fneg (h : BitVec 3) (g : BitVec 6) (w : BitVec 64)
  /-- FCPYS, R189: Hostel copy sign. -/
  | fcpys (h : BitVec 3) (g : BitVec 6) (w : BitVec 64)
  /-- FDIV, R189: Hostel FP32 divide. -/
  | fdiv (h : BitVec 3) (g : BitVec 6) (w : BitVec 64)
  /-- FSQRT, R189: Hostel FP32 square root. -/
  | fsqrt (h : BitVec 3) (g : BitVec 6) (w : BitVec 64)
  /-- FRCP, R189: Hostel FP32 reciprocal. -/
  | frcp (h : BitVec 3) (g : BitVec 6) (w : BitVec 64)
  /-- FRSQ, R189: Hostel FP32 reciprocal square root. -/
  | frsq (h : BitVec 3) (g : BitVec 6) (w : BitVec 64)
  /-- FEX2, R189: Hostel FP32 exp2. -/
  | fex2 (h : BitVec 3) (g : BitVec 6) (w : BitVec 64)
  /-- FLG2, R189: Hostel FP32 log2. -/
  | flg2 (h : BitVec 3) (g : BitVec 6) (w : BitVec 64)
  /-- DIVU, R189: Hostel unsigned integer quotient. -/
  | divu (h : BitVec 3) (g : BitVec 6) (w : BitVec 64)
  /-- DIVS, R189: Hostel signed integer quotient. -/
  | divs (h : BitVec 3) (g : BitVec 6) (w : BitVec 64)
  /-- REMU, R189: Hostel unsigned integer remainder. -/
  | remu (h : BitVec 3) (g : BitVec 6) (w : BitVec 64)
  /-- REMS, R189: Hostel signed integer remainder. -/
  | rems (h : BitVec 3) (g : BitVec 6) (w : BitVec 64)
  /-- CVT_BF16_F32, R190: Hostel narrowing of FP32 to BF16, nearest even or dither. -/
  | cvtBf16F32 (h : BitVec 3) (g : BitVec 6) (w : BitVec 64)
  /-- CVT_F16_F32, R190: Hostel narrowing of FP32 to FP16. -/
  | cvtF16F32 (h : BitVec 3) (g : BitVec 6) (w : BitVec 64)
  /-- CVT_E4M3_F32, R190: Hostel narrowing of FP32 to E4M3, saturating. -/
  | cvtE4m3F32 (h : BitVec 3) (g : BitVec 6) (w : BitVec 64)
  /-- CVT_E5M2_F32, R190: Hostel narrowing of FP32 to E5M2. -/
  | cvtE5m2F32 (h : BitVec 3) (g : BitVec 6) (w : BitVec 64)
  /-- CVT_F32_BF16, R190: Hostel exact widening of BF16 to FP32. -/
  | cvtF32Bf16 (h : BitVec 3) (g : BitVec 6) (w : BitVec 64)
  /-- CVT_F32_F16, R190: Hostel exact widening of FP16 to FP32. -/
  | cvtF32F16 (h : BitVec 3) (g : BitVec 6) (w : BitVec 64)
  /-- CVT_F32_E4M3, R190: Hostel exact widening of E4M3 to FP32. -/
  | cvtF32E4m3 (h : BitVec 3) (g : BitVec 6) (w : BitVec 64)
  /-- CVT_F32_E5M2, R190: Hostel exact widening of E5M2 to FP32. -/
  | cvtF32E5m2 (h : BitVec 3) (g : BitVec 6) (w : BitVec 64)
  /-- CVT_S32_F32, R190: Hostel FP32 to signed integer, clamping. -/
  | cvtS32F32 (h : BitVec 3) (g : BitVec 6) (w : BitVec 64)
  /-- CVT_U32_F32, R190: Hostel FP32 to unsigned integer, clamping. -/
  | cvtU32F32 (h : BitVec 3) (g : BitVec 6) (w : BitVec 64)
  /-- CVT_F32_S32, R190: Hostel signed integer to FP32. -/
  | cvtF32S32 (h : BitVec 3) (g : BitVec 6) (w : BitVec 64)
  /-- CVT_F32_U32, R190: Hostel unsigned integer to FP32. -/
  | cvtF32U32 (h : BitVec 3) (g : BitVec 6) (w : BitVec 64)
  /-- QMX_E2M1, R191: Hostel MX quantisation of the group's 32 lanes to one MXFP4 block. -/
  | qmxE2m1 (h : BitVec 3) (g : BitVec 6) (w : BitVec 64)
  /-- QMX_E2M3, R191: Hostel MX quantisation of one block to MXFP6 E2M3. -/
  | qmxE2m3 (h : BitVec 3) (g : BitVec 6) (w : BitVec 64)
  /-- QMX_E3M2, R191: Hostel MX quantisation of one block to MXFP6 E3M2. -/
  | qmxE3m2 (h : BitVec 3) (g : BitVec 6) (w : BitVec 64)
  /-- DQMX, R190: Hostel FP32 value of an MX element code under a scale. -/
  | dqmx (h : BitVec 3) (g : BitVec 6) (w : BitVec 64)
  /-- TCVI, R192: Hostel conversion of a floating value into a tally. -/
  | tcvi (h : BitVec 3) (g : BitVec 6) (w : BitVec 64)
  /-- TADD, R192: Hostel tally addition. -/
  | tadd (h : BitVec 3) (g : BitVec 6) (w : BitVec 64)
  /-- TCVO, R192: Hostel conversion of a tally out to FP32 or BF16. -/
  | tcvo (h : BitVec 3) (g : BitVec 6) (w : BitVec 64)
  /-- TNEG, R192: Hostel tally negation. -/
  | tneg (h : BitVec 3) (g : BitVec 6) (w : BitVec 64)
  /-- TINV, R192: Hostel test of a tally for INVALID into a predicate. -/
  | tinv (h : BitVec 3) (g : BitVec 6) (w : BitVec 64)
  /-- LD_U8, R193: Hostel byte load, zero-extended. -/
  | ldU8 (h : BitVec 3) (g : BitVec 6) (w : BitVec 64)
  /-- LD_S8, R193: Hostel byte load, sign-extended. -/
  | ldS8 (h : BitVec 3) (g : BitVec 6) (w : BitVec 64)
  /-- LD_U16, R193: Hostel 2 B load, zero-extended. -/
  | ldU16 (h : BitVec 3) (g : BitVec 6) (w : BitVec 64)
  /-- LD_S16, R193: Hostel 2 B load, sign-extended. -/
  | ldS16 (h : BitVec 3) (g : BitVec 6) (w : BitVec 64)
  /-- LD_32, R193: Hostel 4 B load. -/
  | ld32 (h : BitVec 3) (g : BitVec 6) (w : BitVec 64)
  /-- LD_64, R193: Hostel 8 B load into a pair. -/
  | ld64 (h : BitVec 3) (g : BitVec 6) (w : BitVec 64)
  /-- LD_128, R193: Hostel 16 B load into a quad. -/
  | ld128 (h : BitVec 3) (g : BitVec 6) (w : BitVec 64)
  /-- ST_8, R193: Hostel byte store. -/
  | st8 (h : BitVec 3) (g : BitVec 6) (w : BitVec 64)
  /-- ST_16, R193: Hostel 2 B store. -/
  | st16 (h : BitVec 3) (g : BitVec 6) (w : BitVec 64)
  /-- ST_32, R193: Hostel 4 B store. -/
  | st32 (h : BitVec 3) (g : BitVec 6) (w : BitVec 64)
  /-- ST_64, R193: Hostel 8 B store. -/
  | st64 (h : BitVec 3) (g : BitVec 6) (w : BitVec 64)
  /-- ST_128, R193: Hostel 16 B store. -/
  | st128 (h : BitVec 3) (g : BitVec 6) (w : BitVec 64)
  /-- ATOM_ADD, R195: Hostel atomic INT32 add returning the old word. -/
  | atomAdd (h : BitVec 3) (g : BitVec 6) (w : BitVec 64)
  /-- ATOM_MIN, R195: Hostel atomic signed minimum. -/
  | atomMin (h : BitVec 3) (g : BitVec 6) (w : BitVec 64)
  /-- ATOM_MAX, R195: Hostel atomic signed maximum. -/
  | atomMax (h : BitVec 3) (g : BitVec 6) (w : BitVec 64)
  /-- ATOM_MINU, R195: Hostel atomic unsigned minimum. -/
  | atomMinu (h : BitVec 3) (g : BitVec 6) (w : BitVec 64)
  /-- ATOM_MAXU, R195: Hostel atomic unsigned maximum. -/
  | atomMaxu (h : BitVec 3) (g : BitVec 6) (w : BitVec 64)
  /-- ATOM_AND, R195: Hostel atomic and. -/
  | atomAnd (h : BitVec 3) (g : BitVec 6) (w : BitVec 64)
  /-- ATOM_OR, R195: Hostel atomic or. -/
  | atomOr (h : BitVec 3) (g : BitVec 6) (w : BitVec 64)
  /-- ATOM_XOR, R195: Hostel atomic exclusive or. -/
  | atomXor (h : BitVec 3) (g : BitVec 6) (w : BitVec 64)
  /-- ATOM_EXCH, R195: Hostel atomic exchange. -/
  | atomExch (h : BitVec 3) (g : BitVec 6) (w : BitVec 64)
  /-- ATOM_CAS, R195: Hostel atomic compare and swap. -/
  | atomCas (h : BitVec 3) (g : BitVec 6) (w : BitVec 64)
  /-- ATOM_FADD, R195: Hostel atomic FP32 add with the memory word first. -/
  | atomFadd (h : BitVec 3) (g : BitVec 6) (w : BitVec 64)
  /-- ATOM_TADD, R195: Hostel atomic 16 B tally add. -/
  | atomTadd (h : BitVec 3) (g : BitVec 6) (w : BitVec 64)
  /-- ACQ, R173: Hostel try-acquire of locks, lanes served in ascending order, returning a status per lane. -/
  | acq (h : BitVec 3) (g : BitVec 6) (w : BitVec 64)
  /-- REL, R174: Hostel release of held locks, killing the context with LOCK_OWNER at the first lane that does not own its lock. -/
  | rel (h : BitVec 3) (g : BitVec 6) (w : BitVec 64)
  /-- TLD, R196: Hostel load of 4 KiB from the store into a tile register. -/
  | tld (h : BitVec 3) (g : BitVec 6) (w : BitVec 64)
  /-- TST, R196: Hostel store of a tile register into the store. -/
  | tst (h : BitVec 3) (g : BitVec 6) (w : BitVec 64)
  /-- TMOV, R196: Hostel tile-register copy. -/
  | tmov (h : BitVec 3) (g : BitVec 6) (w : BitVec 64)
  /-- TZERO, R196: Hostel tile-register clear. -/
  | tzero (h : BitVec 3) (g : BitVec 6) (w : BitVec 64)
  /-- TRD, R196: Hostel read of one tile-register row into the lanes. -/
  | trd (h : BitVec 3) (g : BitVec 6) (w : BitVec 64)
  /-- TWR, R196: Hostel write of the lanes into one tile-register row. -/
  | twr (h : BitVec 3) (g : BitVec 6) (w : BitVec 64)
  /-- MDOT, R197: Hostel matrix dot instruction placed in the array queue. -/
  | mdot (h : BitVec 3) (g : BitVec 6) (w : BitVec 64)
  /-- LFMA, R198: Hostel lane stream a times b plus s. -/
  | lfma (h : BitVec 3) (g : BitVec 6) (w : BitVec 64)
  /-- LSCALE, R198: Hostel lane stream a times s plus b. -/
  | lscale (h : BitVec 3) (g : BitVec 6) (w : BitVec 64)
  /-- LMUL, R198: Hostel lane stream product. -/
  | lmul (h : BitVec 3) (g : BitVec 6) (w : BitVec 64)
  /-- LADD, R198: Hostel lane stream sum. -/
  | ladd (h : BitVec 3) (g : BitVec 6) (w : BitVec 64)
  /-- LSUB, R198: Hostel lane stream difference. -/
  | lsub (h : BitVec 3) (g : BitVec 6) (w : BitVec 64)
  /-- LMAX, R198: Hostel lane stream maximum. -/
  | lmax (h : BitVec 3) (g : BitVec 6) (w : BitVec 64)
  /-- LMIN, R198: Hostel lane stream minimum. -/
  | lmin (h : BitVec 3) (g : BitVec 6) (w : BitVec 64)
  /-- ARRAY_START, R152: The matrix array takes the next queued matrix or lane instruction, inserting idle cycles on a mode change, and executes it. -/
  | arrayStart (h : BitVec 3)
  /-- BRA, R199: Hostel uniform branch. -/
  | bra (h : BitVec 3) (g : BitVec 6) (w : BitVec 64)
  /-- BRC, R141: Hostel conditional branch, pushing a reconvergence entry when it diverges. -/
  | brc (h : BitVec 3) (g : BitVec 6) (w : BitVec 64)
  /-- BRX, R199: Hostel indirect branch. -/
  | brx (h : BitVec 3) (g : BitVec 6) (w : BitVec 64)
  /-- CALL, R199: Hostel call to a direct target. -/
  | call (h : BitVec 3) (g : BitVec 6) (w : BitVec 64)
  /-- CALLX, R199: Hostel indirect call. -/
  | callx (h : BitVec 3) (g : BitVec 6) (w : BitVec 64)
  /-- RET, R199: Hostel return through a register. -/
  | ret (h : BitVec 3) (g : BitVec 6) (w : BitVec 64)
  /-- EXIT, R144: Hostel exit of the active lanes from the live mask, ending the group when it empties. -/
  | exit (h : BitVec 3) (g : BitVec 6) (w : BitVec 64)
  /-- NOP, R199: Hostel no operation. -/
  | nop (h : BitVec 3) (g : BitVec 6) (w : BitVec 64)
  /-- REJOIN, R141: Before a fetch at a rejoin address, the group switches to the pending path or restores the saved mask and pops. -/
  | rejoin (h : BitVec 3) (g : BitVec 6)
  /-- BARB, R202: Hostel block barrier arrival after an implied fence. -/
  | barb (h : BitVec 3) (g : BitVec 6) (w : BitVec 64)
  /-- BARC, R202: Hostel cluster barrier arrival after an implied fence. -/
  | barc (h : BitVec 3) (g : BitVec 6) (w : BitVec 64)
  /-- BARRIER_RELEASE, R202: A barrier releases its waiting groups when the arrived groups equal the groups still live in its scope. -/
  | barrierRelease (h : BitVec 3) (b : BitVec 3) (cluster : Bool)
  /-- FENCE, R201: Hostel fence waiting for the group's earlier stores, atomics, peer accesses and signals. -/
  | fence (h : BitVec 3) (g : BitVec 6) (w : BitVec 64)
  /-- FENCE_COMPLETE, R149: The group's earlier accesses have taken effect and a waiting fence lets the group continue. -/
  | fenceComplete (h : BitVec 3) (g : BitVec 6)
  /-- PEER_ACCESS_DONE, R149: A peer load returns or a store or atomic takes effect in its target store over the caravan link. -/
  | peerAccessDone (h : BitVec 3) (g : BitVec 6) (target : BitVec 3)
  /-- WAITA_I, R201: Hostel wait until an arrival counter reaches an immediate. -/
  | waitaI (h : BitVec 3) (g : BitVec 6) (w : BitVec 64)
  /-- WAITA_R, R201: Hostel wait until an arrival counter reaches a register value. -/
  | waitaR (h : BitVec 3) (g : BitVec 6) (w : BitVec 64)
  /-- WAITA_RESUME, R201: A waiting group resumes once its arrival counter reaches the awaited value. -/
  | waitaResume (h : BitVec 3) (g : BitVec 6)
  /-- RDA, R201: Hostel read of an arrival counter. -/
  | rda (h : BitVec 3) (g : BitVec 6) (w : BitVec 64)
  /-- SIGA, R201: Hostel increment of a block's arrival counter after an implied fence. -/
  | siga (h : BitVec 3) (g : BitVec 6) (w : BitVec 64)
  /-- MILE, R203: Hostel milestone arrival, sent to the dispatcher when every live group of the block has arrived. -/
  | mile (h : BitVec 3) (g : BitVec 6) (w : BitVec 64)
  /-- MOVS, R186: Hostel read of a special register. -/
  | movs (h : BitVec 3) (g : BitVec 6) (w : BitVec 64)
  /-- WSR, R186: Hostel write of s_flags. -/
  | wsr (h : BitVec 3) (g : BitVec 6) (w : BitVec 64)
  /-- KILL_COMPLETE, R177: The hostel kill sequence ends with allocations cleared, slots freed and the kill record written. -/
  | killComplete (slot : BitVec 4)
  /-- POR_ADD, R216: Porter integer add. -/
  | porAdd (c : CoreRef) (w : BitVec 32)
  /-- POR_SUB, R216: Porter integer subtract. -/
  | porSub (c : CoreRef) (w : BitVec 32)
  /-- POR_AND, R216: Porter bitwise and. -/
  | porAnd (c : CoreRef) (w : BitVec 32)
  /-- POR_OR, R216: Porter bitwise or. -/
  | porOr (c : CoreRef) (w : BitVec 32)
  /-- POR_XOR, R216: Porter bitwise exclusive or. -/
  | porXor (c : CoreRef) (w : BitVec 32)
  /-- POR_SHL, R216: Porter shift left. -/
  | porShl (c : CoreRef) (w : BitVec 32)
  /-- POR_SHR, R216: Porter logical shift right. -/
  | porShr (c : CoreRef) (w : BitVec 32)
  /-- POR_SRA, R216: Porter arithmetic shift right. -/
  | porSra (c : CoreRef) (w : BitVec 32)
  /-- POR_SLT, R216: Porter signed set-less-than. -/
  | porSlt (c : CoreRef) (w : BitVec 32)
  /-- POR_SLTU, R216: Porter unsigned set-less-than. -/
  | porSltu (c : CoreRef) (w : BitVec 32)
  /-- POR_MUL, R216: Porter low 32 bits of a product. -/
  | porMul (c : CoreRef) (w : BitVec 32)
  /-- POR_MULHU, R216: Porter high 32 bits of the unsigned product. -/
  | porMulhu (c : CoreRef) (w : BitVec 32)
  /-- POR_MULHS, R216: Porter high 32 bits of the signed product. -/
  | porMulhs (c : CoreRef) (w : BitVec 32)
  /-- POR_MULW, R216: Porter 64-bit unsigned product into a pair. -/
  | porMulw (c : CoreRef) (w : BitVec 32)
  /-- POR_MIN, R216: Porter signed minimum. -/
  | porMin (c : CoreRef) (w : BitVec 32)
  /-- POR_MAX, R216: Porter signed maximum. -/
  | porMax (c : CoreRef) (w : BitVec 32)
  /-- POR_MINU, R216: Porter unsigned minimum. -/
  | porMinu (c : CoreRef) (w : BitVec 32)
  /-- POR_MAXU, R216: Porter unsigned maximum. -/
  | porMaxu (c : CoreRef) (w : BitVec 32)
  /-- POR_DIVU, R216: Porter unsigned quotient. -/
  | porDivu (c : CoreRef) (w : BitVec 32)
  /-- POR_DIVS, R216: Porter signed quotient. -/
  | porDivs (c : CoreRef) (w : BitVec 32)
  /-- POR_REMU, R216: Porter unsigned remainder. -/
  | porRemu (c : CoreRef) (w : BitVec 32)
  /-- POR_REMS, R216: Porter signed remainder. -/
  | porRems (c : CoreRef) (w : BitVec 32)
  /-- POR_CLZ, R216: Porter count of leading zeros. -/
  | porClz (c : CoreRef) (w : BitVec 32)
  /-- POR_POPC, R216: Porter count of one bits. -/
  | porPopc (c : CoreRef) (w : BitVec 32)
  /-- POR_ADDP, R216: Porter 64-bit pair add. -/
  | porAddp (c : CoreRef) (w : BitVec 32)
  /-- POR_SUBP, R216: Porter 64-bit pair subtract. -/
  | porSubp (c : CoreRef) (w : BitVec 32)
  /-- POR_ADDI, R216: Porter add immediate. -/
  | porAddi (c : CoreRef) (w : BitVec 32)
  /-- POR_ANDI, R216: Porter and immediate. -/
  | porAndi (c : CoreRef) (w : BitVec 32)
  /-- POR_ORI, R216: Porter or immediate. -/
  | porOri (c : CoreRef) (w : BitVec 32)
  /-- POR_XORI, R216: Porter exclusive or immediate. -/
  | porXori (c : CoreRef) (w : BitVec 32)
  /-- POR_SLTI, R216: Porter signed set-less-than immediate. -/
  | porSlti (c : CoreRef) (w : BitVec 32)
  /-- POR_SLTIU, R216: Porter unsigned set-less-than immediate. -/
  | porSltiu (c : CoreRef) (w : BitVec 32)
  /-- POR_SHLI, R216: Porter shift left immediate. -/
  | porShli (c : CoreRef) (w : BitVec 32)
  /-- POR_SHRI, R216: Porter logical shift right immediate. -/
  | porShri (c : CoreRef) (w : BitVec 32)
  /-- POR_SRAI, R216: Porter arithmetic shift right immediate. -/
  | porSrai (c : CoreRef) (w : BitVec 32)
  /-- POR_LUI, R216: Porter load upper immediate. -/
  | porLui (c : CoreRef) (w : BitVec 32)
  /-- POR_ADDPI, R216: Porter pair add immediate. -/
  | porAddpi (c : CoreRef) (w : BitVec 32)
  /-- POR_LD_B, R217: Porter local byte load, sign-extended. -/
  | porLdB (c : CoreRef) (w : BitVec 32)
  /-- POR_LD_BU, R217: Porter local byte load, zero-extended. -/
  | porLdBu (c : CoreRef) (w : BitVec 32)
  /-- POR_LD_H, R217: Porter local 2 B load, sign-extended. -/
  | porLdH (c : CoreRef) (w : BitVec 32)
  /-- POR_LD_HU, R217: Porter local 2 B load, zero-extended. -/
  | porLdHu (c : CoreRef) (w : BitVec 32)
  /-- POR_LD_W, R217: Porter local 4 B load. -/
  | porLdW (c : CoreRef) (w : BitVec 32)
  /-- POR_LD_D, R217: Porter local 8 B load into a pair. -/
  | porLdD (c : CoreRef) (w : BitVec 32)
  /-- POR_LDF, R217: Porter local 4 B load into an f register. -/
  | porLdf (c : CoreRef) (w : BitVec 32)
  /-- POR_ST_B, R217: Porter local byte store. -/
  | porStB (c : CoreRef) (w : BitVec 32)
  /-- POR_ST_H, R217: Porter local 2 B store. -/
  | porStH (c : CoreRef) (w : BitVec 32)
  /-- POR_ST_W, R217: Porter local 4 B store. -/
  | porStW (c : CoreRef) (w : BitVec 32)
  /-- POR_ST_D, R217: Porter local 8 B store. -/
  | porStD (c : CoreRef) (w : BitVec 32)
  /-- POR_STF, R217: Porter local store of an f register. -/
  | porStf (c : CoreRef) (w : BitVec 32)
  /-- POR_BEQ, R216: Porter branch if equal. -/
  | porBeq (c : CoreRef) (w : BitVec 32)
  /-- POR_BNE, R216: Porter branch if not equal. -/
  | porBne (c : CoreRef) (w : BitVec 32)
  /-- POR_BLT, R216: Porter branch if signed less. -/
  | porBlt (c : CoreRef) (w : BitVec 32)
  /-- POR_BGE, R216: Porter branch if signed greater or equal. -/
  | porBge (c : CoreRef) (w : BitVec 32)
  /-- POR_BLTU, R216: Porter branch if unsigned less. -/
  | porBltu (c : CoreRef) (w : BitVec 32)
  /-- POR_BGEU, R216: Porter branch if unsigned greater or equal. -/
  | porBgeu (c : CoreRef) (w : BitVec 32)
  /-- POR_JAL, R216: Porter jump and link. -/
  | porJal (c : CoreRef) (w : BitVec 32)
  /-- POR_JALR, R216: Porter jump and link through a register. -/
  | porJalr (c : CoreRef) (w : BitVec 32)
  /-- POR_FADD, R218: Porter floating add in FP32 or BF16. -/
  | porFadd (c : CoreRef) (w : BitVec 32)
  /-- POR_FSUB, R218: Porter floating subtract. -/
  | porFsub (c : CoreRef) (w : BitVec 32)
  /-- POR_FMUL, R218: Porter floating multiply. -/
  | porFmul (c : CoreRef) (w : BitVec 32)
  /-- POR_FFMA, R218: Porter fused multiply-add. -/
  | porFfma (c : CoreRef) (w : BitVec 32)
  /-- POR_FMIN, R218: Porter floating minimum. -/
  | porFmin (c : CoreRef) (w : BitVec 32)
  /-- POR_FMAX, R218: Porter floating maximum. -/
  | porFmax (c : CoreRef) (w : BitVec 32)
  /-- POR_FDIV, R218: Porter floating divide. -/
  | porFdiv (c : CoreRef) (w : BitVec 32)
  /-- POR_FSQRT, R218: Porter floating square root. -/
  | porFsqrt (c : CoreRef) (w : BitVec 32)
  /-- POR_FABS, R218: Porter sign clear. -/
  | porFabs (c : CoreRef) (w : BitVec 32)
  /-- POR_FNEG, R218: Porter sign invert. -/
  | porFneg (c : CoreRef) (w : BitVec 32)
  /-- POR_FEQ, R218: Porter floating equal compare into a g register. -/
  | porFeq (c : CoreRef) (w : BitVec 32)
  /-- POR_FLT, R218: Porter floating less compare. -/
  | porFlt (c : CoreRef) (w : BitVec 32)
  /-- POR_FLE, R218: Porter floating less-or-equal compare. -/
  | porFle (c : CoreRef) (w : BitVec 32)
  /-- POR_FMV_G, R218: Porter move of f bits to a g register. -/
  | porFmvG (c : CoreRef) (w : BitVec 32)
  /-- POR_FMV_F, R218: Porter move of g bits to an f register. -/
  | porFmvF (c : CoreRef) (w : BitVec 32)
  /-- POR_CVT_BF16_F32, R219: Porter FP32 to BF16, nearest even or dither. -/
  | porCvtBf16F32 (c : CoreRef) (w : BitVec 32)
  /-- POR_CVT_F32_BF16, R219: Porter BF16 to FP32 widening. -/
  | porCvtF32Bf16 (c : CoreRef) (w : BitVec 32)
  /-- POR_CVT_E4M3_F32, R219: Porter FP32 to E4M3, saturating. -/
  | porCvtE4m3F32 (c : CoreRef) (w : BitVec 32)
  /-- POR_CVT_E5M2_F32, R219: Porter FP32 to E5M2. -/
  | porCvtE5m2F32 (c : CoreRef) (w : BitVec 32)
  /-- POR_CVT_F32_E4M3, R219: Porter E4M3 to FP32 widening. -/
  | porCvtF32E4m3 (c : CoreRef) (w : BitVec 32)
  /-- POR_CVT_F32_E5M2, R219: Porter E5M2 to FP32 widening. -/
  | porCvtF32E5m2 (c : CoreRef) (w : BitVec 32)
  /-- POR_CVT_S32_F32, R219: Porter FP32 to signed integer, nearest even. -/
  | porCvtS32F32 (c : CoreRef) (w : BitVec 32)
  /-- POR_CVT_S32_F32_RZ, R219: Porter FP32 to signed integer, toward zero. -/
  | porCvtS32F32Rz (c : CoreRef) (w : BitVec 32)
  /-- POR_CVT_F32_S32, R219: Porter signed integer to FP32. -/
  | porCvtF32S32 (c : CoreRef) (w : BitVec 32)
  /-- POR_MXSC_E2M1, R220: Porter E8M0 scale for an MXFP4 block from its largest magnitude. -/
  | porMxscE2m1 (c : CoreRef) (w : BitVec 32)
  /-- POR_MXSC_E2M3, R220: Porter E8M0 scale for an MXFP6 E2M3 block. -/
  | porMxscE2m3 (c : CoreRef) (w : BitVec 32)
  /-- POR_MXSC_E3M2, R220: Porter E8M0 scale for an MXFP6 E3M2 block. -/
  | porMxscE3m2 (c : CoreRef) (w : BitVec 32)
  /-- POR_MXQ_E2M1, R220: Porter element code of a value under a scale, MXFP4. -/
  | porMxqE2m1 (c : CoreRef) (w : BitVec 32)
  /-- POR_MXQ_E2M3, R220: Porter element code of a value under a scale, E2M3. -/
  | porMxqE2m3 (c : CoreRef) (w : BitVec 32)
  /-- POR_MXQ_E3M2, R220: Porter element code of a value under a scale, E3M2. -/
  | porMxqE3m2 (c : CoreRef) (w : BitVec 32)
  /-- POR_MXD_E2M1, R219: Porter FP32 value of an MXFP4 code under a scale. -/
  | porMxdE2m1 (c : CoreRef) (w : BitVec 32)
  /-- POR_MXD_E2M3, R219: Porter FP32 value of an E2M3 code under a scale. -/
  | porMxdE2m3 (c : CoreRef) (w : BitVec 32)
  /-- POR_MXD_E3M2, R219: Porter FP32 value of an E3M2 code under a scale. -/
  | porMxdE3m2 (c : CoreRef) (w : BitVec 32)
  /-- POR_TCVI, R221: Porter conversion of a value into a local tally. -/
  | porTcvi (c : CoreRef) (w : BitVec 32)
  /-- POR_TCVO, R221: Porter conversion of a local tally out to a floating value. -/
  | porTcvo (c : CoreRef) (w : BitVec 32)
  /-- POR_TADDM, R221: Porter tally add of two local tallies. -/
  | porTaddm (c : CoreRef) (w : BitVec 32)
  /-- POR_CRCW, R222: Porter CRC-32C step over four bytes. -/
  | porCrcw (c : CoreRef) (w : BitVec 32)
  /-- POR_FLD, R223: Porter far load of 4 or 8 B, making its destination pending. -/
  | porFld (c : CoreRef) (w : BitVec 32)
  /-- POR_FST, R223: Porter far store of 4 or 8 B. -/
  | porFst (c : CoreRef) (w : BitVec 32)
  /-- POR_FGET, R223: Porter copy of n bytes from far memory to local memory. -/
  | porFget (c : CoreRef) (w : BitVec 32)
  /-- POR_FPUT, R223: Porter copy of n bytes from local memory to far memory. -/
  | porFput (c : CoreRef) (w : BitVec 32)
  /-- POR_FRED, R225: Porter memory-side add of local elements into far memory. -/
  | porFred (c : CoreRef) (w : BitVec 32)
  /-- POR_TAUD, R227: Porter audit request for a buffer tile. -/
  | porTaud (c : CoreRef) (w : BitVec 32)
  /-- POR_GPUT, R223: Porter copy of n bytes to another porter's memory on VC2. -/
  | porGput (c : CoreRef) (w : BitVec 32)
  /-- POR_GADD, R223: Porter INT32 add to another porter's word on VC2. -/
  | porGadd (c : CoreRef) (w : BitVec 32)
  /-- POR_WAITQ, R230: Porter wait until at most k request slots are taken. -/
  | porWaitq (c : CoreRef) (w : BitVec 32)
  /-- WAITQ_RESUME, R230: A porter held by WAITQ resumes when enough requests have completed. -/
  | waitqResume (c : CoreRef)
  /-- POR_WAITW, R232: Porter wait until a local word reaches a value. -/
  | porWaitw (c : CoreRef) (w : BitVec 32)
  /-- WAITW_RESUME, R232: A porter held by WAITW resumes when the local word reaches the awaited value. -/
  | waitwResume (c : CoreRef)
  /-- POR_MILE, R232: Porter milestone arrival sent to the dispatcher after WAITQ 0. -/
  | porMile (c : CoreRef) (w : BitVec 32)
  /-- POR_EXIT, R232: Porter exit: WAITQ 0, OR flags into the leg and report DONE. -/
  | porExit (c : CoreRef) (w : BitVec 32)
  /-- POR_MOVS, R232: Porter read of a special register. -/
  | porMovs (c : CoreRef) (w : BitVec 32)
  /-- POR_WSR, R232: Porter write of s_flags. -/
  | porWsr (c : CoreRef) (w : BitVec 32)
  /-- TRANSLATION_STOP_REQUEST, R210: A far request reaching its translation stop is translated and forwarded to its target, killed, or stalled. -/
  | translationStopRequest (east : Bool) (k : BitVec 5)
  /-- EDGE_PORT_NO_SLOT, R212: A buffer request that has waited 4,096 slots at its edge port ends with NO_SLOT. -/
  | edgePortNoSlot (east : Bool) (k : BitVec 5)
  /-- FAR_RESPONSE, R223: A response or acknowledgement reaches a porter, completes the request, adds to its completion word and frees its slot, or kills on a bus error. -/
  | farResponse (n : BitVec 12)
  /-- GRID_WRITE, R226: A GPUT arrives at a target porter's interface port and is written or refused with FOREIGN, FENCED or ABSENT. -/
  | gridWrite (n : BitVec 12)
  /-- GRID_ADD, R225: A GADD or INT32 FRED arrives at a porter's interface port and is applied atomically. -/
  | gridAdd (n : BitVec 12)
  /-- TILE_AUDIT, R227: A slice reads a tile in scrub-class slots, compares its code and returns the audit status and stored code. -/
  | tileAudit (sl : BitVec 7)
  /-- START, R235: A VC3 START clears a porter's registers and begins the leg, or is refused with START_REFUSED. -/
  | start (n : BitVec 12)
  /-- KILL, R236: A VC3 KILL multicast stops issue on every porter of the context. -/
  | kill (n : BitVec 12)
  /-- LOAD_BEGIN, R238: A firmware load transaction resets the running CRC and IMAGE_OK of each addressed porter. -/
  | loadBegin (n : BitVec 12)
  /-- LOAD, R238: A LOAD writes 64 B at a local offset and folds them into the running CRC. -/
  | load (n : BitVec 12)
  /-- LOAD_CHECK, R238: A LOAD_CHECK compares byte count and CRC, setting IMAGE_OK or sending IMAGE_BAD. -/
  | loadCheck (n : BitVec 12)
  /-- IMAGE_BAD, R238: The steward receives IMAGE_BAD from a porter whose load check failed. -/
  | imageBad
  /-- START_REFUSED, R235: The dispatcher receives START_REFUSED and fails the launch with PORTER_REFUSED. -/
  | startRefused
  /-- DONE, R440: The dispatcher receives a porter's DONE toward the end of its leg. -/
  | done
  /-- KILLED, R236: The dispatcher receives KILLED from a porter and starts the context kill. -/
  | killed
  /-- PORTER_FENCE, R237: Writing POR.CTRL.FENCE = 1 stops the core at once and kills its running context with UNIT_FENCED. -/
  | porterFence (n : BitVec 12)
  /-- PORTER_UNFENCE, R237: Writing FENCE = 0 makes the porter idle and ready for START. -/
  | porterUnfence (n : BitVec 12)
  /-- PORTER_POWER_OFF, R237: Writing POWER_OFF = 1 powers off a fenced, drained porter core and memory. -/
  | porterPowerOff (n : BitVec 12)
  /-- PORTER_POWER_ON, R237: Writing POWER_OFF = 0 powers the island on and clears its registers and memory. -/
  | porterPowerOn (n : BitVec 12)
  /-- PORTER_ISLAND_READY, R237: The porter island is powered and cleared and POWERED returns to 1 with IMAGE_OK 0. -/
  | porterIslandReady (n : BitVec 12)
  /-- CSRR, R423: Steward read of a supervisor register. -/
  | csrr (c : CoreRef) (w : BitVec 32)
  /-- CSRW, R423: Steward write of a supervisor register. -/
  | csrw (c : CoreRef) (w : BitVec 32)
  /-- ERET, R423: Steward return from exception. -/
  | eret (c : CoreRef) (w : BitVec 32)
  /-- WFI, R423: Steward wait for an interrupt from the always-on wake logic. -/
  | wfi (c : CoreRef) (w : BitVec 32)
  /-- CMO_CLEAN, R430: Steward write-back of a dirty L2 line, keeping it clean. -/
  | cmoClean (c : CoreRef) (w : BitVec 32)
  /-- CMO_INVAL, R430: Steward drop of an L2 line without write-back. -/
  | cmoInval (c : CoreRef) (w : BitVec 32)
  /-- CMO_FLUSH, R430: Steward clean then invalidate of an L2 line. -/
  | cmoFlush (c : CoreRef) (w : BitVec 32)
  /-- CMO_ZL, R430: Steward allocation of an L2 line as 64 zero bytes, dirty, with no memory read. -/
  | cmoZl (c : CoreRef) (w : BitVec 32)
  /-- SYNC, R423: Steward wait until earlier accesses and write-backs of the core have reached their targets. -/
  | sync (c : CoreRef) (w : BitVec 32)
  /-- IINV, R423: Steward invalidation of the core's L1 instruction cache. -/
  | iinv (c : CoreRef) (w : BitVec 32)
  /-- L2_FILL_DONE, R431: An L2 fill completes into its way and any CMO waiting on the line then acts. -/
  | l2FillDone (line : BitVec 48)
  /-- EVICTION_WRITE, R429: The oldest eviction-buffer entry is written to memory. -/
  | evictionWrite
  /-- CLEAN_ALL, R430: STW.L2_MAINT cleans every L2 line. -/
  | cleanAll
  /-- FLUSH_ALL, R430: STW.L2_MAINT flushes every L2 line. -/
  | flushAll
  /-- INVAL_ALL, R430: STW.L2_MAINT invalidates every L2 line. -/
  | invalAll
  /-- PUSH, R242: A write of CH_CTRL.PUSH checks CH_DESC and queues it, waiting while the queue is full, or refuses it. -/
  | push (c : BitVec 5) (ch : BitVec 4) (who : Writer)
  /-- CHANNEL_ABORT, R255: A write of CH_CTRL.ABORT stops one channel as a kill does. -/
  | channelAbort (c : BitVec 5) (ch : BitVec 4)
  /-- COPY, R243: A COPY descriptor starts moving tiles between a slice side and an engine side or another slice. -/
  | copy (c : BitVec 5) (ch : BitVec 4)
  /-- CONVERT, R256: A CONVERT descriptor starts reading, converting and writing slice tiles. -/
  | convert (c : BitVec 5) (ch : BitVec 4)
  /-- REDUCE, R258: A REDUCE descriptor starts sending source beats as tagged contributions. -/
  | reduce (c : BitVec 5) (ch : BitVec 4)
  /-- COURIER_ADD, R257: An ADD descriptor starts sending source tiles for memory-side adds. -/
  | courierAdd (c : BitVec 5) (ch : BitVec 4)
  /-- DISCARD, R260: A DISCARD descriptor clears destination tiles at 32 per cycle per slice. -/
  | discard (c : BitVec 5) (ch : BitVec 4)
  /-- HASH, R261: A HASH descriptor reads source tiles into a digest context. -/
  | hash (c : BitVec 5) (ch : BitVec 4)
  /-- WATCH, R259: A WATCH descriptor counts slices that finish a reduction descriptor. -/
  | watch (c : BitVec 5) (ch : BitVec 4)
  /-- TILE_RESUME, R253: After valid translation a parked tile moves at the next aligned slot, or next background slot, with SHIFT raised. -/
  | tileResume (c : BitVec 5) (ch : BitVec 4)
  /-- TILE_LANDED, R250: A tile becomes visible to readers and the courier adds to its arrival target, or ends the descriptor on a bus error. -/
  | tileLanded (c : BitVec 5) (ch : BitVec 4)
  /-- ARRIVAL_VISIBLE, R250: A courier arrival increment becomes visible at its fixed delay after landing, clearing or finishing. -/
  | arrivalVisible (c : BitVec 5) (ch : BitVec 4)
  /-- PROVENANCE_RECORD_WRITE, R262: After the last leaf of D_out, the courier writes h(P) into the block's record bytes and the steward logs P. -/
  | provenanceRecordWrite (c : BitVec 5) (ch : BitVec 4)
  /-- CTU_LOOKUP, R275: The CTU serves a translation lookup, answering a hit within 56 cycles or sending a miss to a walker. -/
  | ctuLookup (port : BitVec 7)
  /-- WALK_START, R276: A waiting miss takes a free walker, or joins a matching walk. -/
  | walkStart
  /-- WALK_STEP_DONE, R270: A walk read returns and the walk descends, ends with a cached translation, or ends in a fault. -/
  | walkStepDone (wk : BitVec 4)
  /-- FAULT_MERGE_END, R280: 64 cycles after an entry opens, the CTU writes its fault record and raises one MSI-X message. -/
  | faultMergeEnd (i : BitVec 6)
  /-- FAULT_QUEUE_CONSUME, R281: A write of CTU.FQ_CONS frees ring space, and waiting records are written. -/
  | faultQueueConsume (v : BitVec 32)
  /-- FQ_WRITE_ERROR_CLEAR, R281: Clearing FQ_WRITE_ERROR lets the CTU rewrite waiting fault records, oldest first. -/
  | fqWriteErrorClear
  /-- RESOLVE_RETRY, R282: CTU.RESOLVE with ACTION 0 walks the frame again and answers every waiter, or writes a new record. -/
  | resolveRetry (i : BitVec 6)
  /-- RESOLVE_ABORT, R283: CTU.RESOLVE with ACTION 1 returns FAULT_ABORTED to every waiter and closes the entry. -/
  | resolveAbort (i : BitVec 6)
  /-- INVALIDATE, R285: A write of CTU.INVAL starts removal of one AST's look-aside and look-ahead entries. -/
  | invalidate (ast : BitVec 12)
  /-- INVALIDATION_DONE, R285: Every condition of invalidation holds and DONE returns to 1. -/
  | invalidationDone
  /-- STALL_REPLAY_WRITE, R278: A write of CTU.CTRL.STALL_REPLAY selects the faulting mode, ignored while a launch runs. -/
  | stallReplayWrite (on : Bool)
  /-- SCHEDULED_COMMAND, R300: A memory site plans a scheduled tile command onto its refresh windows when it arrives. -/
  | scheduledCommand (site : BitVec 5)
  /-- MESH_REQUEST, R299: A mesh request is accepted into the site's tracker share, or waits at the router input. -/
  | meshRequest (site : BitVec 5)
  /-- MESH_REQUEST_ISSUE, R300: The site issues a tracked mesh request into bus cycles and banks the plan leaves free and returns its response. -/
  | meshRequestIssue (site : BitVec 5)
  /-- MEMORY_SIDE_ADD, R312: A site reads, decrypts, checks, adds, encrypts and writes a granule for an add. -/
  | memorySideAdd (site : BitVec 5)
  /-- REFRESH_WINDOW, R305: A unit's refresh window opens and its per-bank refreshes and refresh-management commands run. -/
  | refreshWindow (site : BitVec 5) (unit : BitVec 6)
  /-- MR4_READ, R321: An LPDDR port reads MR4 once per millisecond and sets HOT, fencing the port, when it exceeds coverage. -/
  | mr4Read (port : BitVec 4) (code : BitVec 8) (beyond : Bool)
  /-- MEM_SCRUB, R311: A site scrubber reads a populated granule in mesh class and writes back a corrected word. -/
  | memScrub (site : BitVec 5)
  /-- REPAIR_REQ, R316: A write of MEM.REPAIR_REQ.GO queues the named row as a candidate. -/
  | repairReq (site : BitVec 5) (off : BitVec 37)
  /-- REPAIR_INTERVAL, R317: In a granted interval the site soft-repairs queued rows, or retires them when no spare remains. -/
  | repairInterval (site : BitVec 5) (ok : Bool)
  /-- SITE_FENCE, R322: Setting MEM.CTRL.FENCE refuses new work, completes accepted work and enters self-refresh. -/
  | siteFence (site : BitVec 5)
  /-- SITE_UNFENCE, R322: Clearing MEM.CTRL.FENCE returns the site to service. -/
  | siteUnfence (site : BitVec 5)
  /-- SITE_RETRAIN, R322: MEM.CTRL.RETRAIN retrains the PHY of a fenced site. -/
  | siteRetrain (site : BitVec 5)
  /-- SITE_RETRAIN_DONE, R322: Retraining ends and PHY_LATENCY and READ_BOUND are reported. -/
  | siteRetrainDone (site : BitVec 5) (lat bound : BitVec 12)
  /-- MARGIN_SWEEP, R323: MEM.MARGIN_CTRL.START sweeps the selected axis on a fenced site. -/
  | marginSweep (site : BitVec 5)
  /-- MARGIN_SWEEP_DONE, R323: The sweep ends, MARGIN_RESULT is reported and trained settings are restored. -/
  | marginSweepDone (site : BitVec 5) (low high : BitVec 8)
  /-- LINK_DETECT, R330: A port ends DETECT having learned the peer's lanes, order, polarity, rate and width limits, and starts an attempt. -/
  | linkDetect (x : BitVec 4) (d : DetectResult)
  /-- LINK_EQUALISE_DONE, R330: PMD start-up training ends at the attempt rate. -/
  | linkEqualiseDone (x : BitVec 4)
  /-- LINK_LOCK_DONE, R339: Frame alignment and deskew end and the width and lane group are chosen. -/
  | linkLockDone (x : BitVec 4) (locked : BitVec 8)
  /-- TRAINING_ATTEMPT_TIMEOUT, R331: An attempt that reaches no acceptable width within its limit moves to the next lower rate or to DOWN. -/
  | trainingAttemptTimeout (x : BitVec 4)
  /-- IDENTITY, R332: An identity CTRL flit stores the peer's serial, port and node, and the port enters ACTIVE at first exchange. -/
  | identity (x : BitVec 4) (serial : BitVec 64) (port : BitVec 4) (node : BitVec 16) (flight : BitVec 16)
  /-- AUTO_RETRAIN, R334: A port 1 s in DOWN with AUTO_RETRAIN restarts at DETECT. -/
  | autoRetrain (x : BitVec 4)
  /-- LINK_RETRAIN, R334: OX.CTRL.RETRAIN trains a fenced, drained port from DETECT. -/
  | linkRetrain (x : BitVec 4)
  /-- PORT_DISABLE, R329: Clearing OX.CTRL.ENABLE puts the port in DISABLED and switches its VSER off. -/
  | portDisable (x : BitVec 4)
  /-- PORT_FENCE, R356: Setting OX.CTRL.FENCE refuses local and inbound requests while VC3 and old responses continue. -/
  | portFence (x : BitVec 4)
  /-- PORT_UNFENCE, R356: Clearing OX.CTRL.FENCE returns the port to service. -/
  | portUnfence (x : BitVec 4)
  /-- TEST_START, R338: A non-zero LOOP or GEN on a fenced, drained port leaves ACTIVE for DISABLED and starts the test. -/
  | testStart (x : BitVec 4) (v : BitVec 32)
  /-- TEST_END, R338: LOOP and GEN both returning to 0 ends the test and trains the port from DETECT. -/
  | testEnd (x : BitVec 4)
  /-- CHECKER_ENABLE, R338: A lane's CHK bit going from 0 to 1 clears its PRBS error count and starts checking. -/
  | checkerEnable (x : BitVec 4) (lane : BitVec 3)
  /-- FRAME_SEND, R349: At each flit slot the sender picks a NAK, resend, CTRL, aged, priority or IDLE flit. -/
  | frameSend (x : BitVec 4)
  /-- FRAME_RECEIVE, R340: A received frame is decoded and released 4 ns after its last byte, and its flits are accepted, dropped or NAKed. -/
  | frameReceive (x : BitVec 4) (f : RxFrame)
  /-- NAK, R344: A NAK makes the sender resend from the named SEQ before any new flit. -/
  | nak (x : BitVec 4) (seq : BitVec 13)
  /-- RETRY_TIMEOUT, R344: 4 µs without ACK progress makes the sender resend from the oldest unacknowledged flit. -/
  | retryTimeout (x : BitVec 4)
  /-- PATIENCE_EXPIRED, R346: A partial packet idle for OX.PATIENCE is discarded and a NAK sent from its HEAD. -/
  | patienceExpired (x : BitVec 4) (vc : BitVec 2)
  /-- LINK_FAILED, R347: 100 ms without a clean frame sends the port DOWN and ends outstanding transactions with LINK_DOWN. -/
  | linkFailed (x : BitVec 4)
  /-- OXLUX_READ, R353: An inbound READ is checked and served from a meeting, the mesh or a site, with a READ_RESP. -/
  | oxluxRead (x : BitVec 4)
  /-- OXLUX_WRITE, R353: An inbound WRITE is checked and written by its path, then ACKed. -/
  | oxluxWrite (x : BitVec 4)
  /-- OXLUX_ADD, R353: An inbound ADD is checked and applied at a site or porter, or refused with NO_ADDER. -/
  | oxluxAdd (x : BitVec 4)
  /-- OXLUX_REDUCE, R353: An inbound REDUCE delivers each beat as a contribution at its slice and is ACKed. -/
  | oxluxReduce (x : BitVec 4)
  /-- OXLUX_READ_RESP, R354: A READ_RESP reaches the requesting port and delivers its data or bus error to the requester. -/
  | oxluxReadResp (x : BitVec 4)
  /-- OXLUX_ACK, R355: An ACK completes a WRITE, ADD or REDUCE at its requester. -/
  | oxluxAck (x : BitVec 4)
  /-- INBOUND_NO_SLOT, R353: An inbound scheduled request that waits 4,096 slots ends with NO_SLOT. -/
  | inboundNoSlot (x : BitVec 4)
  /-- ARRIVE, R442: A cross-chip ARRIVE from a child port is counted, held, or dropped. -/
  | arrive (x : BitVec 4)
  /-- RELEASE, R442: A cross-chip RELEASE from the parent releases the milestone locally and is forwarded to every child. -/
  | release (x : BitVec 4)
  /-- THERMAL_NOTICE, R413: A peer's thermal notice is written to the guestbook and raises PEER_NOTICE. -/
  | thermalNotice (x : BitVec 4)
  /-- HEALTH_NOTICE, R493: A peer's health notice is written to the guestbook and raises PEER_NOTICE. -/
  | healthNotice (x : BitVec 4)
  /-- NODE_ID_WRITE, R505: A write of GLB.NODE_ID makes every ACTIVE port send a new identity CTRL flit. -/
  | nodeIdWrite (v : BitVec 16)
  /-- UP_READ, R371: A READ command from a compute die is checked and queued for the next eligible read run, or refused. -/
  | upRead (u : BitVec 2) (p : BitVec 5) (flit : BitVec 2176)
  /-- UP_WRITE, R372: A WRITE command from a compute die is checked and queued for a write run, or refused. -/
  | upWrite (u : BitVec 2) (p : BitVec 5) (flit : BitVec 2176)
  /-- UP_WRITE_BEAT, R372: A WRITE beat flit is buffered in beat order, or refused with PROTOCOL. -/
  | upWriteBeat (u : BitVec 2) (p : BitVec 5) (flit : BitVec 2176)
  /-- UP_NO_SLOT, R378: A command that waits 4,096 slots after becoming eligible ends with NO_SLOT. -/
  | upNoSlot (u : BitVec 2) (p : BitVec 5) (write : Bool) (tag : BitVec 6)
  /-- WRITE_BEATS_TIMEOUT, R378: A WRITE with incomplete beats 4,096 slots after its command ends with PROTOCOL. -/
  | writeBeatsTimeout (u : BitVec 2) (p : BitVec 5) (tag : BitVec 6)
  /-- RESET_RELEASE, R381: 1 ms after PG the base die releases RST_N and starts SB_CLK. -/
  | resetRelease (u : BitVec 2)
  /-- IDENT, R382: An IDENT is checked, answered with IDENT_ACK, and VUPn.CORE set, or refused. -/
  | ident (u : BitVec 2) (msg : BitVec 256)
  /-- IDENT_TIMEOUT, R381: No valid IDENT within 20 ms of RST_N release makes the site absent. -/
  | identTimeout (u : BitVec 2)
  /-- TRAIN_RESULT, R380: A TRAIN_RESULT from the die completes group training, and the base die sends ACTIVE with the ports now in service. -/
  | trainResult (u : BitVec 2) (msg : BitVec 256) (groups : List GroupTraining)
  /-- VSET, R385: A VSET changes VUPn.CORE within 50 µs and is confirmed by VSET_ACK. -/
  | vset (u : BitVec 2) (msg : BitVec 256)
  /-- THERMAL, R387: A die's THERMAL message records its hottest temperature for the zone. -/
  | thermal (u : BitVec 2) (msg : BitVec 256)
  /-- DIE_THERMAL_TIMEOUT, R387: 5 ms without a valid THERMAL makes the die a broken sensor. -/
  | dieThermalTimeout (u : BitVec 2)
  /-- ERROR, R379: A die's ERROR message fences the named port as a base-side CRC failure does. -/
  | error (u : BitVec 2) (msg : BitVec 256)
  /-- UP_PORT_RETRAIN, R380: Writing 1 to a UP.PORT_FENCED bit sends RETRAIN and retrains that port's groups. -/
  | upPortRetrain (u : BitVec 2) (mask : BitVec 20)
  /-- UPPER_SITE_FENCE, R384: Setting UP.CTRL.FENCE ends new commands with FENCED and passes runs unused. -/
  | upperSiteFence (u : BitVec 2)
  /-- UPPER_SITE_RESET, R384: UP.CTRL.RESET fences the site, drops RST_N, powers VUPn off and reruns bring-up. -/
  | upperSiteReset (u : BitVec 2)
  /-- UP_SEAL, R13: UP.CTRL.SEAL seals UP.POWER.LIMIT_W until the next power-good. -/
  | upSeal (u : BitVec 2)
  /-- THERMAL_SAMPLE, R402: At a sample tick the device reads the zone sensors and moves each zone's state and throttle level. -/
  | thermalSample (readings : List ZoneSample)
  /-- SENSOR_SELF_CHECK, R400: Every 100 ms the calibration loop injects an offset and marks die sensors broken or good. -/
  | sensorSelfCheck (pass : BitVec 96)
  /-- THROTTLE_APPLY, R404: A new throttle level takes effect on its clocks and THR at the next group boundary. -/
  | throttleApply
  /-- CURRENT_LIMIT_UPDATE, R407: 20 µs after THR rises, the VUPn.CORE current limit falls to match. -/
  | currentLimitUpdate (u : BitVec 2)
  /-- SITE_SWITCH_OFF, R407: Current limiting held for 1 ms switches the upper site off and logs it. -/
  | siteSwitchOff (u : BitVec 2)
  /-- DEFER_TIMEOUT, R415: 5 ms after entry, a deferred HBM-zone throttle is applied and notice kind 4 sent. -/
  | deferTimeout (z : BitVec 5)
  /-- BUDGET_WINDOW, R409: At each 100 µs window the power manager publishes the budget, releases ended charges and updates the limiter level. -/
  | budgetWindow (baseW upW : BitVec 11)
  /-- AVS_STEP, R395: An adaptive voltage loop steps its rail by 5 mV to keep critical-path margin in window. -/
  | avsStep (r : BitVec 5) (up : Bool)
  /-- PHASE_CHANGE, R396: A regulator adds or sheds a phase by its per-phase current. -/
  | phaseChange (r : BitVec 5) (amps : BitVec 11)
  /-- SHUTDOWN_DEADLINE, R418: 2.0 ms after an orderly shutdown's deciding sample, any rail still on is switched off. -/
  | shutdownDeadline
  /-- PT_SEAL, R401: PT.CTRL.SEAL seals the thresholds and power limit until the next power-good. -/
  | ptSeal
  /-- FIXED_DISPATCH_WRITE, R412: A write of PT.CTRL.FIXED_DISPATCH selects the dispatch mode, ignored while a launch runs. -/
  | fixedDispatchWrite (on : Bool)
  /-- GO, R436: LNCH.CTRL.GO on a FREE slot assigns a launch identifier and starts the launch checks. -/
  | go (slot : BitVec 4)
  /-- LAUNCH_CHECK_DONE, R437: The image, resource and licence checks and the D_prog hash end, and the slot enters RUNNING or FAILED. -/
  | launchCheckDone (slot : BitVec 4)
  /-- LAUNCH_ABORT, R446: LNCH.CTRL.ABORT kills the launch with LAUNCH_ABORTED. -/
  | launchAbort (slot : BitVec 4)
  /-- SLOT_RELEASE, R455: LNCH.CTRL.RELEASE returns a DONE, FAILED or KILLED slot to FREE. -/
  | slotRelease (slot : BitVec 4)
  /-- HOST_RELEASE, R441: A write of DISP.HOST_RELEASE records the host release of a pending host milestone, or is ignored and logged. -/
  | hostRelease (v : BitVec 32)
  /-- MILESTONE_ARRIVAL, R441: A hostel, porter or END_MILE arrival is counted, and a completed milestone releases locally or sends ARRIVE. -/
  | milestoneArrival
  /-- MILESTONE_PATIENCE, R444: A milestone not released within its patience is reported, and killed when ABORT_ON_PATIENCE is set. -/
  | milestonePatience (slot : BitVec 4) (id : BitVec 16)
  /-- LEG_WATCHDOG, R440: A leg not ended by its watchdog kills the context with LEG_WATCHDOG. -/
  | legWatchdog (slot : BitVec 4) (leg : BitVec 12)
  /-- STEP_END, R445: After the step milestone and the end of every running leg, the step ends, the counters advance and the semaphore word is written. -/
  | stepEnd (slot : BitVec 4)
  /-- CONFIG_REQUEST, R449: A PCIe configuration request is answered, or with Request Retry Status before ready. -/
  | configRequest (write : Bool) (reg : BitVec 10) (v : BitVec 32)
  /-- BAR2_READ, R450: A BAR2 read reaches its DPA by host-class slot or the steward mesh attachment, or completes with Completer Abort. -/
  | bar2Read (off : BitVec 30) (len : BitVec 12)
  /-- BAR2_WRITE, R450: A BAR2 write reaches its DPA, or is dropped, logged and reported. -/
  | bar2Write (off : BitVec 30) (data : List (BitVec 8))
  /-- BAR2_WINDOW_WRITE, R450: A write of PCIE.BAR2_WINDOW moves the window for TLPs received afterward. -/
  | bar2WindowWrite (v : BitVec 64)
  /-- HOST_COMPLETION, R451: A completion for a host-window read arrives, or an error completion ends the access with HOST_ABORT. -/
  | hostCompletion (tag : BitVec 10) (ok : Bool) (data : List (BitVec 8))
  /-- COMPLETION_TIMEOUT, R451: A host-window access that passes PCIE.CPL_TIMEOUT ends with HOST_ABORT. -/
  | completionTimeout (tag : BitVec 10)
  /-- FUNCTION_LEVEL_RESET, R453: A function-level reset kills every launch, frees slots and clears BAR2, HOST_BASE, MSI-X and fault-queue enable. -/
  | functionLevelReset
  /-- HOT_RESET, R453: A hot reset has the effect of a function-level reset. -/
  | hotReset
  /-- PCIE_LINK_DOWN, R453: A PCIe link-down has the effect of a function-level reset. -/
  | pcieLinkDown
  /-- D3HOT_ENTRY, R453: Entry into D3hot has the effect of a function-level reset. -/
  | d3hotEntry
  /-- SUBMIT, R464: SBX.CTRL.SUBMIT copies a container or record into the strongbox and starts its checks. -/
  | submit
  /-- LICENCE, R468: A verified licence container in BOOT records the licensed resource counts. -/
  | licence (ec lms : Bool)
  /-- RUNTIME_FIRMWARE, R467: A verified run-time firmware container enters LOADING, fixes the enabled set, copies the firmware and derives DICE layer 1. -/
  | runtimeFirmware (ec lms : Bool)
  /-- ENTER_SERVICE, R467: Loading ends with the steward cores in run-time firmware and porter firmware broadcast, and the device enters SERVICE. -/
  | enterService
  /-- PORTER_SERVICE_FIRMWARE, R467: A verified porter service firmware container is held for broadcast at loading. -/
  | porterServiceFirmware (ec lms : Bool)
  /-- DEBUG_UNLOCK_TOKEN, R473: A verified debug unlock token kills launches, zeroes secrets, blows DEBUGGED and opens the debug scope. -/
  | debugUnlockToken (ec lms : Bool) (blown : Bool)
  /-- RAISE_SVN_FLOOR, R474: A fuse command of operation 1 raises the SVN floor of a container type. -/
  | raiseSvnFloor (ec lms : Bool)
  /-- REVOKE_SIGNER, R474: A fuse command of operation 2 revokes a signer slot. -/
  | revokeSigner (ec lms : Bool)
  /-- KEY_LOAD_RECORD, R469: A key-load record is unwrapped and loads or clears one key slot of every memory site. -/
  | keyLoadRecord (keys : Option (BitVec 512))
  /-- NEW_NONCE, R466: SBX.CTRL.NEW_NONCE replaces SBX.NONCE with fresh random bytes. -/
  | newNonce (v : BitVec 384)
  /-- ATTEST, R472: SBX.CTRL.ATTEST signs a report of the driver's nonce and writes the evidence, blowing an HSS block fuse when needed. -/
  | attest (ecSig hssSig cert : List (BitVec 8))
  /-- FUSE_GEN_PROG, R474: A write of SBX.FUSE_GEN_PROG in BOOT programs unset site generation fuses for the next power-good. -/
  | fuseGenProg (v : BitVec 64)
  /-- HARD_REPAIR, R467: BRG.CTRL.HARD_REPAIR fences each listed site and hard-repairs its rows. -/
  | hardRepair
  /-- HARD_REPAIR_DONE, R467: Hard repair ends, the sites are retrained and REPAIR_RESULT is reported. -/
  | hardRepairDone (ok : List Bool)
  /-- PART_RESET, R475: BRG.CTRL.PART_RESET kills every launch, clears RUN and fences, resets and clears the compute part. -/
  | partReset
  /-- PART_RESET_DONE, R475: The compute-part reset releases fences and held Oxlux packets and rewrites the floor-plan record. -/
  | partResetDone
  /-- HOSTEL_FENCE, R476: HOS.CTRL.FENCE = 1 stops the hostel's blocks and kills a running context with UNIT_FENCED. -/
  | hostelFence (h : BitVec 3)
  /-- HOSTEL_UNFENCE, R476: HOS.CTRL.FENCE = 0 cycles VHOSn, clears the hostel and makes it available for placement. -/
  | hostelUnfence (h : BitVec 3)
  /-- GUESTBOOK_COMMIT, R485: Once ETC passes an entry's stamp by 100 µs, the steward commits it in stamp, source and kind order. -/
  | guestbookCommit
  /-- FIND, R486: A write of GB.FIND starts a search for the first committed entry at or after a tick. -/
  | find (t : BitVec 64)
  /-- FIND_DONE, R486: The search ends and GB.FIND_RESULT is set. -/
  | findDone
  /-- RETAIN_CLEAR, R489: GB.CTRL.RETAIN_CLEAR empties the retention ring. -/
  | retainClear
  /-- DETECT_TIMEOUT, R330: A port whose DETECT finds no peer within 100 ms ends training in DOWN and logs it. -/
  | detectTimeout (x : BitVec 4)
  /-- LOSS_OF_SIGNAL, R337: A lane's received amplitude stays below the signal-detect threshold for 1 µs, or recovers, and its LOS live bit, sticky bit and event counter change. -/
  | lossOfSignal (x : BitVec 4) (lane : BitVec 3) (lost : Bool)
  /-- LOSS_OF_LOCK, R337: A lane's clock recovery goes out of or back into lock, and its LOL live bit, sticky bit and event counter change. -/
  | lossOfLock (x : BitVec 4) (lane : BitVec 3) (lost : Bool)
  /-- ALARM_N_CHANGE, R387: A compute die drives ALARM_N low or releases it, changing UP.STATUS.ALARM and ZONE_STATUS.ALARM. -/
  | alarmNChange (u : BitVec 2) (low : Bool)
  /-- FUSE_SUPPLY_CHANGE, R471: The fuse programming supply appears or disappears, changing SBX.STATUS.FUSE_SUPPLY and whether fuses can be blown. -/
  | fuseSupplyChange (present : Bool)
  /-- VAON_FALL, R489: The always-on rail falls and the retention ring and always-on state are lost. -/
  | vaonFall
  /-- RAIL_IN_REGULATION, R394: An enabled rail reaches regulation, RAIL.ON sets and the next rail of the sequence is enabled. -/
  | railInRegulation (r : BitVec 5) (mv : BitVec 10)
  /-- CURRENT_LIMIT_REACHED, R407: The draw of VUPn.CORE reaches or falls below the current limit, setting or clearing PT.RAIL.LIMITING and starting or breaking the 1 ms count. -/
  | currentLimitReached (u : BitVec 2) (limiting : Bool)
  /-- SUBMISSION_REFUSED, R464: The strongbox checks of a submission end with a failure, set RESULT, clear BUSY, log and raise SUBMIT. -/
  | submissionRefused (ec lms : Bool) (keys : Option (BitVec 512))
  /-- RESERVED_OPC_PACKET, R352: An Oxlux packet with a reserved OPC or non-zero reserved field is discarded, logged in OX.ERR_LOG and, for a request, answered with PROTOCOL. -/
  | reservedOpcPacket (x : BitVec 4)
  /-- UNLISTED_SIDEBAND_MESSAGE, R383: A sideband message of a type not in Table 12.6 is discarded and logged. -/
  | unlistedSidebandMessage (u : BitVec 2) (msg : BitVec 256)
  /-- INTERFACE_PORT_ACCESS, R210: A far, inbound or BAR2 read or write of a porter's local memory arrives at the target porter's interface port and is served or answered with FENCED or ABSENT. -/
  | interfacePortAccess (n : BitVec 12)
  /-- WAKE_INTERRUPT, R423: An interrupt from the always-on wake logic ends a steward core's WFI. -/
  | wakeInterrupt (k : BitVec 2)
  /-- BAR0_MISALIGNED_ACCESS, R449: A BAR0 access that is not 4 B or 8 B and naturally aligned completes with Completer Abort or is dropped, and is logged in PCIE.ERR_LOG. -/
  | bar0MisalignedAccess (off : BitVec 26) (len : Nat) (write : Bool)
  deriving DecidableEq, Repr

end Sys2Proof
end

