-- ==== Sys2Proof/Decode.lean ====
section
/-!
DEFINITION. Sys2Proof/Decode.lean: the command that a word of the opcode table spells. No row of the table gives
bits: the block's commands are events and register accesses, and the encodings of the hostel and the porter set stand
in the meanings' own files (Machine/HostelWord.lean, Machine/PorterWord.lean).
-/

namespace Sys2Proof

/-- The command that a word spells by the table's bits: none, for no row gives bits. -/
def decodeTableWord (_nbits _w : Nat) : Option Instr := none

end Sys2Proof
end

