-- ==== Sys2Proof/Config.lean ====
section
/-!
DEFINITION. Sys2Proof/Config.lean: the free values, constants with no body, each applied to the counter `State.free`
that the step reads and advances. Nothing in Lean can evaluate them, so a statement about one holds whatever it is.
-/

namespace Sys2Proof

/-- The value of s_cycle (Table 6.4) and of the porters' cycle register: a count of clock cycles that the model,
which leaves timing out, does not keep (DESIGN CHOICE, assumption 9). -/
opaque Config.freeCycle : Nat → BitVec 64

/-- A free word of 64 bits, wherever a chapter leaves one open; each use is named in the assumption log. -/
opaque Config.freeWord : Nat → BitVec 64

/-- Free random or secret bytes: nonces, signatures and keys that the manual calls random (assumption 10). -/
opaque Config.freeBytes : Nat → Nat → List (BitVec 8)

/-- The PCI-SIG vendor identifier of the maker (Table 14.9), which the manual does not state. -/
opaque Config.vendorId : BitVec 16

/-- SHA-384 of the boot ROM (Table 15.9), whose contents the manual does not give. -/
opaque Config.bootRomDigest : BitVec 384

end Sys2Proof
end

