-- ==== Sys2Proof/Machine/Bits.lean ====
section
/-!
DEFINITION. Sys2Proof/Machine/Bits.lean: bit fields, sign extension and byte order (R12: little-endian).
-/

namespace Sys2Proof.Machine

/-- A register field, bits hi:lo. -/
structure Fld where
  hi : Nat
  lo : Nat
  deriving DecidableEq, Repr

/-- The width of a field. -/
def fldWidth (f : Fld) : Nat := f.hi + 1 - f.lo

/-- A field's mask in its register. -/
def fldMask (f : Fld) : W64 := BitVec.ofNat 64 ((2 ^ fldWidth f - 1) * 2 ^ f.lo)

/-- A field's value. -/
def fldGet (r : W64) (f : Fld) : Nat := r.toNat / 2 ^ f.lo % 2 ^ fldWidth f

/-- A register with a field's value replaced. -/
def fldPut (r : W64) (f : Fld) (v : Nat) : W64 :=
  (r &&& ~~~ fldMask f) ||| (BitVec.ofNat 64 (v % 2 ^ fldWidth f * 2 ^ f.lo))

/-- Bits hi:lo of a number. -/
def bitsOf (w hi lo : Nat) : Nat := w / 2 ^ lo % 2 ^ (hi + 1 - lo)

/-- Bit i of a number. -/
def bitOf (w i : Nat) : Bool := w / 2 ^ i % 2 == 1

/-- A number with bits hi:lo replaced by `v`. -/
def putBits (w hi lo v : Nat) : Nat := w - bitsOf w hi lo * 2 ^ lo + v % 2 ^ (hi + 1 - lo) * 2 ^ lo

/-- A number of `n` bits read as two's complement. -/
def sextOf (n v : Nat) : Int := if v % 2 ^ n < 2 ^ (n - 1) then (v % 2 ^ n : Nat) else (v % 2 ^ n : Nat) - (2 ^ n : Nat)

/-- An integer in two's complement of `n` bits. -/
def wrapTo (n : Nat) (i : Int) : Nat := (i % (2 ^ n : Nat)).toNat

/-- The `n` low bytes of a number, lowest first. -/
def leBytes : Nat → Nat → List Byte
  | 0, _ => []
  | n + 1, v => BitVec.ofNat 8 v :: leBytes n (v / 256)

/-- The number that bytes spell, lowest first. -/
def leVal : List Byte → Nat
  | [] => 0
  | b :: t => b.toNat + 256 * leVal t

/-- The number that bytes spell, highest first (hash words, R131). -/
def beVal (l : List Byte) : Nat := leVal l.reverse

/-- The `n` low bytes of a number, highest first. -/
def beBytes (n v : Nat) : List Byte := (leBytes n v).reverse

/-- A Boolean as a field's value. -/
def b2n (b : Bool) : Nat := if b then 1 else 0

/-- How many bits of `w` below `n` are 1. -/
def popCount : Nat → Nat → Nat
  | 0, _ => 0
  | n + 1, w => w % 2 + popCount n (w / 2)

/-- The bits below `n` that are 1, ascending. -/
def onesFrom : Nat → Nat → Nat → List Nat
  | 0, _, _ => []
  | n + 1, i, w => if w % 2 = 1 then i :: onesFrom n (i + 1) (w / 2) else onesFrom n (i + 1) (w / 2)

/-- The positions of the 1 bits of `w` below `n`, ascending. -/
def ones (n w : Nat) : List Nat := onesFrom n 0 w

/-- The lowest position of a 1 bit below `n`. -/
def lowestOne (n w : Nat) : Option Nat := (ones n w).head?

/-- A byte of a list, 0 past its end. -/
def byteAt (l : List Byte) (i : Nat) : Nat := (l.getD i 0).toNat

/-- `n` bytes of a list from `i`, as a little-endian number. -/
def leAt (l : List Byte) (i n : Nat) : Nat := leVal ((l.drop i).take n)

/-- A list of bytes padded with zeros, or cut, to `n`. -/
def padTo (n : Nat) (l : List Byte) : List Byte := (l.take n) ++ List.replicate (n - l.length) 0

/-- The number plus one, saturating at `2 ^ n - 1`. -/
def satInc (n v k : Nat) : Nat := min (v + k) (2 ^ n - 1)

end Sys2Proof.Machine
end

