-- ==== Sys2Proof/Machine/Registers.lean ====
section
/-!
DEFINITION. Sys2Proof/Machine/Registers.lean: every control and status register of BAR0 (R495, R496), its address,
its fields, their access codes (R13) and reset values, from the register tables of the chapters.
A field whose table gives no number ("set at ready", "fuse", "random", "set at training") resets to 0
(DESIGN CHOICE, assumption 5).
-/

namespace Sys2Proof.Machine

/-- The access codes of Table 0.4. -/
inductive Acc where
  | ro | rw | wo | w1c | w1s | rwl
  deriving DecidableEq, Repr

/-- One field's row of a register table. -/
structure FieldSpec where
  hi : Nat
  lo : Nat
  acc : Acc
  reset : Nat
  deriving DecidableEq, Repr

/-- One register of a block: its first address, the strides and counts of its instances, its width and fields. -/
structure RegSpec where
  base : Nat
  dims : List (Nat × Nat)
  width : Nat
  fields : List FieldSpec
  deriving DecidableEq, Repr

/-- SLICE.STATUS (R64). -/
def SLICE.STATUS (n : Nat) : Nat := 0x800000 + n * 0x1000
def SLICE.STATUS_PRESENT : Fld := ⟨0, 0⟩
def SLICE.STATUS_TILES_RETIRED : Fld := ⟨1, 1⟩
def SLICE.STATUS_SCRUB_ACTIVE : Fld := ⟨2, 2⟩
def SLICE.STATUS_SCRUB_LATE : Fld := ⟨3, 3⟩
def SLICE.STATUS_RETIRED_COUNT : Fld := ⟨27, 16⟩
/-- SLICE.ECC_CE_COUNT (R64). -/
def SLICE.ECC_CE_COUNT (n : Nat) : Nat := 0x800008 + n * 0x1000
def SLICE.ECC_CE_COUNT_VALUE : Fld := ⟨31, 0⟩
/-- SLICE.ECC_UE_COUNT (R64). -/
def SLICE.ECC_UE_COUNT (n : Nat) : Nat := 0x80000C + n * 0x1000
def SLICE.ECC_UE_COUNT_VALUE : Fld := ⟨31, 0⟩
/-- SLICE.POISON_COUNT (R64). -/
def SLICE.POISON_COUNT (n : Nat) : Nat := 0x800010 + n * 0x1000
def SLICE.POISON_COUNT_VALUE : Fld := ⟨31, 0⟩
/-- SLICE.SCRUB_PASSES (R64). -/
def SLICE.SCRUB_PASSES (n : Nat) : Nat := 0x800024 + n * 0x1000
def SLICE.SCRUB_PASSES_VALUE : Fld := ⟨31, 0⟩
/-- SLICE.ERR_LOG (R64). -/
def SLICE.ERR_LOG (n : Nat) : Nat := 0x800018 + n * 0x1000
def SLICE.ERR_LOG_LOCAL_TILE : Fld := ⟨10, 0⟩
def SLICE.ERR_LOG_WORD : Fld := ⟨19, 11⟩
def SLICE.ERR_LOG_CAUSE : Fld := ⟨23, 20⟩
def SLICE.ERR_LOG_OVERFLOW : Fld := ⟨24, 24⟩
def SLICE.ERR_LOG_VALID : Fld := ⟨25, 25⟩
/-- SLICE.SCRUB (R64). -/
def SLICE.SCRUB (n : Nat) : Nat := 0x800020 + n * 0x1000
def SLICE.SCRUB_ENABLE : Fld := ⟨0, 0⟩
def SLICE.SCRUB_PERIOD_MS : Fld := ⟨15, 8⟩
/-- SLICE.REPAIR (R64). -/
def SLICE.REPAIR (n : Nat) : Nat := 0x800028 + n * 0x1000
def SLICE.REPAIR_ROW_SPARES_USED : Fld := ⟨9, 0⟩
def SLICE.REPAIR_COLUMN_SPARES_USED : Fld := ⟨16, 10⟩
def SLICE.REPAIR_REPAIR_FAILED : Fld := ⟨17, 17⟩
/-- SLICE.RETIRED_ROWS (R64). -/
def SLICE.RETIRED_ROWS (n m : Nat) : Nat := 0x800100 + n * 0x1000 + m * 0x8
def SLICE.RETIRED_ROWS_ROWS : Fld := ⟨63, 0⟩
/-- XR.TT_CTRL (R107). -/
def XR.TT_CTRL (n : Nat) : Nat := 0x900000 + n * 0x10000
def XR.TT_CTRL_ACTIVE_BANK : Fld := ⟨0, 0⟩
def XR.TT_CTRL_ARM : Fld := ⟨1, 1⟩
def XR.TT_CTRL_RUN : Fld := ⟨2, 2⟩
/-- XR.TT_STATUS (R107). -/
def XR.TT_STATUS (n : Nat) : Nat := 0x900004 + n * 0x10000
def XR.TT_STATUS_CHECK_BUSY : Fld := ⟨0, 0⟩
def XR.TT_STATUS_CHECK_FAIL : Fld := ⟨1, 1⟩
def XR.TT_STATUS_SWITCH_PENDING : Fld := ⟨2, 2⟩
def XR.TT_STATUS_HOLDING : Fld := ⟨3, 3⟩
/-- XR.TT_PERIOD (R107). -/
def XR.TT_PERIOD (n : Nat) : Nat := 0x900008 + n * 0x10000
def XR.TT_PERIOD_COUNT : Fld := ⟨63, 0⟩
/-- XR.TT_SLOT (R107). -/
def XR.TT_SLOT (n : Nat) : Nat := 0x900010 + n * 0x10000
def XR.TT_SLOT_SLOT : Fld := ⟨11, 0⟩
/-- XR.SEAM_STATUS (R107). -/
def XR.SEAM_STATUS (n : Nat) : Nat := 0x900018 + n * 0x10000
def XR.SEAM_STATUS_SPLIT_ACTIVE : Fld := ⟨0, 0⟩
def XR.SEAM_STATUS_REALIGN_PENDING : Fld := ⟨1, 1⟩
def XR.SEAM_STATUS_MAX_OCCUPANCY : Fld := ⟨8, 2⟩
/-- XR.SEAM_HOLD_CYCLES (R107). -/
def XR.SEAM_HOLD_CYCLES (n : Nat) : Nat := 0x900020 + n * 0x10000
def XR.SEAM_HOLD_CYCLES_COUNT : Fld := ⟨63, 0⟩
/-- XR.BG_AGE (R107). -/
def XR.BG_AGE (n : Nat) : Nat := 0x900028 + n * 0x10000
def XR.BG_AGE_SCRUB : Fld := ⟨7, 0⟩
def XR.BG_AGE_WALKER : Fld := ⟨15, 8⟩
def XR.BG_AGE_STEWARD : Fld := ⟨23, 16⟩
def XR.BG_AGE_HOST : Fld := ⟨31, 24⟩
/-- XR.RED_STATUS (R107). -/
def XR.RED_STATUS (n : Nat) : Nat := 0x90002C + n * 0x10000
def XR.RED_STATUS_HIGH_WATER : Fld := ⟨8, 0⟩
def XR.RED_STATUS_OVERFLOW : Fld := ⟨9, 9⟩
def XR.RED_STATUS_OVERFLOW_SLICE : Fld := ⟨16, 10⟩
/-- XR.CHECK_LOG (R107). -/
def XR.CHECK_LOG (n : Nat) : Nat := 0x900030 + n * 0x10000
def XR.CHECK_LOG_SLOT : Fld := ⟨11, 0⟩
def XR.CHECK_LOG_COLUMN : Fld := ⟨18, 12⟩
def XR.CHECK_LOG_DIRECTION : Fld := ⟨19, 19⟩
def XR.CHECK_LOG_RULE : Fld := ⟨23, 20⟩
def XR.CHECK_LOG_VALID : Fld := ⟨63, 63⟩
/-- XR.SEAM_CTRL (R107). -/
def XR.SEAM_CTRL : Nat := 0x900014
def XR.SEAM_CTRL_SPLIT_ENABLE : Fld := ⟨0, 0⟩
/-- HOS.STATUS (R180). -/
def HOS.STATUS (n : Nat) : Nat := 0x2000000 + n * 0x100000
def HOS.STATUS_PRESENT : Fld := ⟨0, 0⟩
def HOS.STATUS_POWERED : Fld := ⟨1, 1⟩
def HOS.STATUS_FENCED : Fld := ⟨2, 2⟩
def HOS.STATUS_GROUPS_IN_USE : Fld := ⟨14, 8⟩
def HOS.STATUS_BLOCKS_IN_USE : Fld := ⟨19, 16⟩
def HOS.STATUS_ARRAY_MODE : Fld := ⟨20, 20⟩
/-- HOS.CTRL (R180). -/
def HOS.CTRL (n : Nat) : Nat := 0x2000004 + n * 0x100000
def HOS.CTRL_FENCE : Fld := ⟨0, 0⟩
/-- HOS.KILL_LOG (R180). -/
def HOS.KILL_LOG (n : Nat) : Nat := 0x2000008 + n * 0x100000
def HOS.KILL_LOG_LAUNCH : Fld := ⟨15, 0⟩
def HOS.KILL_LOG_GROUP : Fld := ⟨21, 16⟩
def HOS.KILL_LOG_LANE : Fld := ⟨26, 22⟩
def HOS.KILL_LOG_CAUSE : Fld := ⟨35, 28⟩
def HOS.KILL_LOG_PC : Fld := ⟨53, 36⟩
def HOS.KILL_LOG_OVERFLOW : Fld := ⟨62, 62⟩
def HOS.KILL_LOG_VALID : Fld := ⟨63, 63⟩
/-- HOS.ARRAY_BUSY (R180). -/
def HOS.ARRAY_BUSY (n : Nat) : Nat := 0x2000010 + n * 0x100000
def HOS.ARRAY_BUSY_COUNT : Fld := ⟨63, 0⟩
/-- POR.STATUS (R240). -/
def POR.STATUS (n : Nat) : Nat := 0x3000000 + n * 0x100
def POR.STATUS_PRESENT : Fld := ⟨0, 0⟩
def POR.STATUS_POWERED : Fld := ⟨1, 1⟩
def POR.STATUS_FENCED : Fld := ⟨2, 2⟩
def POR.STATUS_DRAINED : Fld := ⟨3, 3⟩
def POR.STATUS_RUNNING : Fld := ⟨4, 4⟩
def POR.STATUS_IMAGE_OK : Fld := ⟨5, 5⟩
def POR.STATUS_STALLED : Fld := ⟨6, 6⟩
def POR.STATUS_SLOTS : Fld := ⟨11, 8⟩
/-- POR.CTRL (R240). -/
def POR.CTRL (n : Nat) : Nat := 0x3000004 + n * 0x100
def POR.CTRL_FENCE : Fld := ⟨0, 0⟩
def POR.CTRL_POWER_OFF : Fld := ⟨1, 1⟩
/-- POR.KILL_LOG (R240). -/
def POR.KILL_LOG (n : Nat) : Nat := 0x3000008 + n * 0x100
def POR.KILL_LOG_LAUNCH : Fld := ⟨15, 0⟩
def POR.KILL_LOG_CAUSE : Fld := ⟨23, 16⟩
def POR.KILL_LOG_PC : Fld := ⟨39, 24⟩
def POR.KILL_LOG_OVERFLOW : Fld := ⟨62, 62⟩
def POR.KILL_LOG_VALID : Fld := ⟨63, 63⟩
/-- POR.IMAGE_CRC (R240). -/
def POR.IMAGE_CRC (n : Nat) : Nat := 0x3000010 + n * 0x100
def POR.IMAGE_CRC_VALUE : Fld := ⟨31, 0⟩
/-- POR.REQ_COUNT (R240). -/
def POR.REQ_COUNT (n : Nat) : Nat := 0x3000018 + n * 0x100
def POR.REQ_COUNT_COUNT : Fld := ⟨63, 0⟩
/-- COUR.STATUS (R264). -/
def COUR.STATUS (n : Nat) : Nat := 0xC00000 + n * 0x1000
def COUR.STATUS_BUSY : Fld := ⟨15, 0⟩
def COUR.STATUS_PARKED : Fld := ⟨31, 16⟩
/-- COUR.PARK_COUNT (R264). -/
def COUR.PARK_COUNT (n : Nat) : Nat := 0xC00008 + n * 0x1000
def COUR.PARK_COUNT_COUNT : Fld := ⟨63, 0⟩
/-- COUR.LATE_TILES (R264). -/
def COUR.LATE_TILES (n : Nat) : Nat := 0xC00010 + n * 0x1000
def COUR.LATE_TILES_COUNT : Fld := ⟨63, 0⟩
/-- COUR.ERR_LOG (R264). -/
def COUR.ERR_LOG (n : Nat) : Nat := 0xC00018 + n * 0x1000
def COUR.ERR_LOG_CHANNEL : Fld := ⟨3, 0⟩
def COUR.ERR_LOG_CAUSE : Fld := ⟨11, 4⟩
def COUR.ERR_LOG_TILE : Fld := ⟨43, 12⟩
def COUR.ERR_LOG_OVERFLOW : Fld := ⟨62, 62⟩
def COUR.ERR_LOG_VALID : Fld := ⟨63, 63⟩
/-- COUR.ARRIVE (R264). -/
def COUR.ARRIVE (n m : Nat) : Nat := 0xC00E00 + n * 0x1000 + m * 0x4
def COUR.ARRIVE_VALUE : Fld := ⟨31, 0⟩
/-- CH.STATUS (R264). -/
def CH.STATUS (n m : Nat) : Nat := 0xC00100 + n * 0x1000 + m * 0x40
def CH.STATUS_STATE : Fld := ⟨2, 0⟩
def CH.STATUS_QUEUED : Fld := ⟨5, 3⟩
def CH.STATUS_PARK_KIND : Fld := ⟨7, 6⟩
def CH.STATUS_HASH_FAILED : Fld := ⟨8, 8⟩
def CH.STATUS_ERR_SEEN : Fld := ⟨9, 9⟩
/-- CH.CTRL (R264). -/
def CH.CTRL (n m : Nat) : Nat := 0xC00104 + n * 0x1000 + m * 0x40
def CH.CTRL_PUSH : Fld := ⟨0, 0⟩
def CH.CTRL_ABORT : Fld := ⟨1, 1⟩
/-- CH.TILES (R264). -/
def CH.TILES (n m : Nat) : Nat := 0xC00108 + n * 0x1000 + m * 0x40
def CH.TILES_COUNT : Fld := ⟨63, 0⟩
/-- CH.RESUME (R264). -/
def CH.RESUME (n m : Nat) : Nat := 0xC00110 + n * 0x1000 + m * 0x40
def CH.RESUME_I0_I3 : Fld := ⟨63, 0⟩
/-- CH.RESUME_HI (R264). -/
def CH.RESUME_HI (n m : Nat) : Nat := 0xC00118 + n * 0x1000 + m * 0x40
def CH.RESUME_HI_I4 : Fld := ⟨15, 0⟩
/-- CH.SHIFT (R264). -/
def CH.SHIFT (n m : Nat) : Nat := 0xC0011C + n * 0x1000 + m * 0x40
def CH.SHIFT_SHIFT : Fld := ⟨31, 0⟩
/-- CH.DESC (R264). -/
def CH.DESC (n m k : Nat) : Nat := 0xC00500 + n * 0x1000 + m * 0x80 + k * 0x8
def CH.DESC_DESC : Fld := ⟨63, 0⟩
/-- CTU.CTRL (R294). -/
def CTU.CTRL : Nat := 0x100000
def CTU.CTRL_STALL_REPLAY : Fld := ⟨0, 0⟩
/-- CTU.STATUS (R294). -/
def CTU.STATUS : Nat := 0x100004
def CTU.STATUS_PENDING_OPEN : Fld := ⟨6, 0⟩
def CTU.STATUS_WALKERS_BUSY : Fld := ⟨11, 7⟩
def CTU.STATUS_PENDING_FULL : Fld := ⟨12, 12⟩
def CTU.STATUS_FQ_FULL : Fld := ⟨13, 13⟩
def CTU.STATUS_RESOLVE_STALE : Fld := ⟨14, 14⟩
def CTU.STATUS_FQ_WRITE_ERROR : Fld := ⟨15, 15⟩
/-- CTU.DRIVER_AST (R294). -/
def CTU.DRIVER_AST : Nat := 0x100008
def CTU.DRIVER_AST_AST : Fld := ⟨11, 0⟩
/-- CTU.INVAL (R294). -/
def CTU.INVAL : Nat := 0x10000C
def CTU.INVAL_AST : Fld := ⟨11, 0⟩
def CTU.INVAL_DONE : Fld := ⟨31, 31⟩
/-- CTU.FQ_BASE (R294). -/
def CTU.FQ_BASE : Nat := 0x100010
def CTU.FQ_BASE_BASE : Fld := ⟨47, 0⟩
/-- CTU.FQ_SIZE (R294). -/
def CTU.FQ_SIZE : Nat := 0x100018
def CTU.FQ_SIZE_LOG2 : Fld := ⟨4, 0⟩
/-- CTU.FQ_PROD (R294). -/
def CTU.FQ_PROD : Nat := 0x10001C
def CTU.FQ_PROD_INDEX : Fld := ⟨31, 0⟩
/-- CTU.FQ_CONS (R294). -/
def CTU.FQ_CONS : Nat := 0x100020
def CTU.FQ_CONS_INDEX : Fld := ⟨31, 0⟩
/-- CTU.FQ_CTRL (R294). -/
def CTU.FQ_CTRL : Nat := 0x100024
def CTU.FQ_CTRL_VECTOR : Fld := ⟨5, 0⟩
def CTU.FQ_CTRL_ENABLE : Fld := ⟨6, 6⟩
/-- CTU.RESOLVE (R294). -/
def CTU.RESOLVE : Nat := 0x100028
def CTU.RESOLVE_PENDING : Fld := ⟨5, 0⟩
def CTU.RESOLVE_ACTION : Fld := ⟨8, 8⟩
/-- CTU.LOOKUPS (R294). -/
def CTU.LOOKUPS : Nat := 0x100030
def CTU.LOOKUPS_COUNT : Fld := ⟨63, 0⟩
/-- CTU.MISSES (R294). -/
def CTU.MISSES : Nat := 0x100038
def CTU.MISSES_COUNT : Fld := ⟨63, 0⟩
/-- CTU.FAULTS (R294). -/
def CTU.FAULTS : Nat := 0x100040
def CTU.FAULTS_COUNT : Fld := ⟨63, 0⟩
/-- CTU.PENDING_LO (R294). -/
def CTU.PENDING_LO (n : Nat) : Nat := 0x100100 + n * 0x10
def CTU.PENDING_LO_WORD0 : Fld := ⟨63, 0⟩
/-- CTU.PENDING_HI (R294). -/
def CTU.PENDING_HI (n : Nat) : Nat := 0x100108 + n * 0x10
def CTU.PENDING_HI_WAITERS : Fld := ⟨15, 0⟩
def CTU.PENDING_HI_SEQ : Fld := ⟨31, 16⟩
def CTU.PENDING_HI_OPEN : Fld := ⟨63, 63⟩
/-- CTU.OUTWIN (R294). -/
def CTU.OUTWIN (n : Nat) : Nat := 0x100800 + n * 0x8
def CTU.OUTWIN_VALID : Fld := ⟨0, 0⟩
def CTU.OUTWIN_PORT : Fld := ⟨4, 1⟩
def CTU.OUTWIN_INBOUND : Fld := ⟨10, 5⟩
def CTU.OUTWIN_PEER : Fld := ⟨31, 16⟩
/-- CTU.INWIN_BASE (R294). -/
def CTU.INWIN_BASE (n : Nat) : Nat := 0x101000 + n * 0x20
def CTU.INWIN_BASE_BASE : Fld := ⟨56, 0⟩
/-- CTU.INWIN_LIMIT (R294). -/
def CTU.INWIN_LIMIT (n : Nat) : Nat := 0x101008 + n * 0x20
def CTU.INWIN_LIMIT_LIMIT : Fld := ⟨40, 0⟩
/-- CTU.INWIN_CTRL (R294). -/
def CTU.INWIN_CTRL (n : Nat) : Nat := 0x101010 + n * 0x20
def CTU.INWIN_CTRL_VALID : Fld := ⟨0, 0⟩
def CTU.INWIN_CTRL_RD : Fld := ⟨1, 1⟩
def CTU.INWIN_CTRL_WR : Fld := ⟨2, 2⟩
def CTU.INWIN_CTRL_ADD : Fld := ⟨3, 3⟩
def CTU.INWIN_CTRL_KEY : Fld := ⟨9, 4⟩
def CTU.INWIN_CTRL_AST : Fld := ⟨21, 10⟩
def CTU.INWIN_CTRL_PORT_MASK : Fld := ⟨37, 22⟩
/-- CTU.ROOT (R294). -/
def CTU.ROOT (n : Nat) : Nat := 0x108000 + n * 0x8
def CTU.ROOT_VALID : Fld := ⟨0, 0⟩
def CTU.ROOT_ADDR : Fld := ⟨47, 12⟩
/-- MEM.STATUS (R325). -/
def MEM.STATUS (n : Nat) : Nat := if n < 16 then 0x1000000 + n * 0x20000 else 0x1400000 + (n - 16) * 0x10000
def MEM.STATUS_PRESENT : Fld := ⟨0, 0⟩
def MEM.STATUS_TRAINED : Fld := ⟨1, 1⟩
def MEM.STATUS_GEN : Fld := ⟨3, 2⟩
def MEM.STATUS_RATE : Fld := ⟨5, 4⟩
def MEM.STATUS_FENCED : Fld := ⟨6, 6⟩
def MEM.STATUS_DEGRADED : Fld := ⟨7, 7⟩
def MEM.STATUS_REPAIR_WAIT : Fld := ⟨8, 8⟩
def MEM.STATUS_HOT : Fld := ⟨9, 9⟩
def MEM.STATUS_REPAIR_QUEUED : Fld := ⟨21, 16⟩
/-- MEM.CTRL (R325). -/
def MEM.CTRL (n : Nat) : Nat := if n < 16 then 0x1000004 + n * 0x20000 else 0x1400004 + (n - 16) * 0x10000
def MEM.CTRL_FENCE : Fld := ⟨0, 0⟩
def MEM.CTRL_RETRAIN : Fld := ⟨1, 1⟩
def MEM.CTRL_SCRUB_ENABLE : Fld := ⟨2, 2⟩
/-- MEM.CAPACITY (R325). -/
def MEM.CAPACITY (n : Nat) : Nat := if n < 16 then 0x1000008 + n * 0x20000 else 0x1400008 + (n - 16) * 0x10000
def MEM.CAPACITY_MIB : Fld := ⟨16, 0⟩
/-- MEM.PHY_LATENCY (R325). -/
def MEM.PHY_LATENCY (n : Nat) : Nat := if n < 16 then 0x100000C + n * 0x20000 else 0x140000C + (n - 16) * 0x10000
def MEM.PHY_LATENCY_CYCLES : Fld := ⟨11, 0⟩
/-- MEM.READ_BOUND (R325). -/
def MEM.READ_BOUND (n : Nat) : Nat := if n < 16 then 0x1000010 + n * 0x20000 else 0x1400010 + (n - 16) * 0x10000
def MEM.READ_BOUND_SLOTS : Fld := ⟨11, 0⟩
/-- MEM.BUDGET (R325). -/
def MEM.BUDGET (n : Nat) : Nat := if n < 16 then 0x1000014 + n * 0x20000 else 0x1400014 + (n - 16) * 0x10000
def MEM.BUDGET_UNITS : Fld := ⟨11, 0⟩
def MEM.BUDGET_MESH_FLOOR : Fld := ⟨17, 12⟩
/-- MEM.ECC_CE_COUNT (R325). -/
def MEM.ECC_CE_COUNT (n : Nat) : Nat := if n < 16 then 0x1000018 + n * 0x20000 else 0x1400018 + (n - 16) * 0x10000
def MEM.ECC_CE_COUNT_VALUE : Fld := ⟨31, 0⟩
/-- MEM.ECC_UE_COUNT (R325). -/
def MEM.ECC_UE_COUNT (n : Nat) : Nat := if n < 16 then 0x100001C + n * 0x20000 else 0x140001C + (n - 16) * 0x10000
def MEM.ECC_UE_COUNT_VALUE : Fld := ⟨31, 0⟩
/-- MEM.ERR_LOG (R325). -/
def MEM.ERR_LOG (n : Nat) : Nat := if n < 16 then 0x1000020 + n * 0x20000 else 0x1400020 + (n - 16) * 0x10000
def MEM.ERR_LOG_OFFSET : Fld := ⟨36, 0⟩
def MEM.ERR_LOG_CAUSE : Fld := ⟨40, 37⟩
def MEM.ERR_LOG_OVERFLOW : Fld := ⟨62, 62⟩
def MEM.ERR_LOG_VALID : Fld := ⟨63, 63⟩
/-- MEM.REPAIR (R325). -/
def MEM.REPAIR (n : Nat) : Nat := if n < 16 then 0x1000028 + n * 0x20000 else 0x1400028 + (n - 16) * 0x10000
def MEM.REPAIR_SOFT_REPAIRS : Fld := ⟨7, 0⟩
def MEM.REPAIR_SPARES_LEFT_MIN : Fld := ⟨15, 8⟩
/-- MEM.REPAIR_CFG (R325). -/
def MEM.REPAIR_CFG (n : Nat) : Nat := if n < 16 then 0x100002C + n * 0x20000 else 0x140002C + (n - 16) * 0x10000
def MEM.REPAIR_CFG_CE_THRESHOLD : Fld := ⟨3, 0⟩
/-- MEM.REPAIR_REQ (R325). -/
def MEM.REPAIR_REQ (n : Nat) : Nat := if n < 16 then 0x1000030 + n * 0x20000 else 0x1400030 + (n - 16) * 0x10000
def MEM.REPAIR_REQ_OFFSET : Fld := ⟨36, 0⟩
def MEM.REPAIR_REQ_GO : Fld := ⟨63, 63⟩
/-- MEM.RETIRE (R325). -/
def MEM.RETIRE (n : Nat) : Nat := if n < 16 then 0x1000038 + n * 0x20000 else 0x1400038 + (n - 16) * 0x10000
def MEM.RETIRE_RETIRED_TILES : Fld := ⟨19, 0⟩
/-- MEM.RETIRE_THRESHOLD (R325). -/
def MEM.RETIRE_THRESHOLD (n : Nat) : Nat := if n < 16 then 0x100003C + n * 0x20000 else 0x140003C + (n - 16) * 0x10000
def MEM.RETIRE_THRESHOLD_TILES : Fld := ⟨19, 0⟩
/-- MEM.TEMP (R325). -/
def MEM.TEMP (n : Nat) : Nat := if n < 16 then 0x1000040 + n * 0x20000 else 0x1400040 + (n - 16) * 0x10000
def MEM.TEMP_CELSIUS : Fld := ⟨7, 0⟩
def MEM.TEMP_MR4 : Fld := ⟨15, 8⟩
def MEM.TEMP_VALID : Fld := ⟨16, 16⟩
/-- MEM.MARGIN_CTRL (R325). -/
def MEM.MARGIN_CTRL (n : Nat) : Nat := if n < 16 then 0x1000044 + n * 0x20000 else 0x1400044 + (n - 16) * 0x10000
def MEM.MARGIN_CTRL_AXIS : Fld := ⟨1, 0⟩
def MEM.MARGIN_CTRL_UNIT : Fld := ⟨7, 2⟩
def MEM.MARGIN_CTRL_BYTE : Fld := ⟨11, 8⟩
def MEM.MARGIN_CTRL_START : Fld := ⟨12, 12⟩
/-- MEM.MARGIN_RESULT (R325). -/
def MEM.MARGIN_RESULT (n : Nat) : Nat := if n < 16 then 0x1000048 + n * 0x20000 else 0x1400048 + (n - 16) * 0x10000
def MEM.MARGIN_RESULT_LOW : Fld := ⟨7, 0⟩
def MEM.MARGIN_RESULT_HIGH : Fld := ⟨15, 8⟩
def MEM.MARGIN_RESULT_VALID : Fld := ⟨16, 16⟩
/-- MEM.KEY_VALID (R325). -/
def MEM.KEY_VALID (n : Nat) : Nat := if n < 16 then 0x1000050 + n * 0x20000 else 0x1400050 + (n - 16) * 0x10000
def MEM.KEY_VALID_SLOTS : Fld := ⟨63, 0⟩
/-- MEM.ADD_COUNT (R325). -/
def MEM.ADD_COUNT (n : Nat) : Nat := if n < 16 then 0x1000058 + n * 0x20000 else 0x1400058 + (n - 16) * 0x10000
def MEM.ADD_COUNT_COUNT : Fld := ⟨63, 0⟩
/-- MEM.LATE_COUNT (R325). -/
def MEM.LATE_COUNT (n : Nat) : Nat := if n < 16 then 0x1000060 + n * 0x20000 else 0x1400060 + (n - 16) * 0x10000
def MEM.LATE_COUNT_COUNT : Fld := ⟨63, 0⟩
/-- MEM.SCRUB (R325). -/
def MEM.SCRUB (n : Nat) : Nat := if n < 16 then 0x1000068 + n * 0x20000 else 0x1400068 + (n - 16) * 0x10000
def MEM.SCRUB_PERIOD_H : Fld := ⟨7, 0⟩
/-- MEM.TRACKER (R325). -/
def MEM.TRACKER (n : Nat) : Nat := if n < 16 then 0x100006C + n * 0x20000 else 0x140006C + (n - 16) * 0x10000
def MEM.TRACKER_SCHED_HIGH : Fld := ⟨9, 0⟩
def MEM.TRACKER_MESH_HIGH : Fld := ⟨20, 10⟩
/-- MEM.RETIRE_LIST (R325). -/
def MEM.RETIRE_LIST (n m : Nat) : Nat := if n < 16 then 0x1001000 + n * 0x20000 + m * 0x8 else 0x1401000 + (n - 16) * 0x10000 + m * 0x8
def MEM.RETIRE_LIST_FIRST_TILE : Fld := ⟨36, 12⟩
def MEM.RETIRE_LIST_COUNT : Fld := ⟨41, 37⟩
def MEM.RETIRE_LIST_VALID : Fld := ⟨63, 63⟩
/-- OX.STATUS (R362). -/
def OX.STATUS (n : Nat) : Nat := 0x1800000 + n * 0x20000
def OX.STATUS_PRESENT : Fld := ⟨0, 0⟩
def OX.STATUS_UP : Fld := ⟨1, 1⟩
def OX.STATUS_FENCED : Fld := ⟨2, 2⟩
def OX.STATUS_DRAINED : Fld := ⟨3, 3⟩
def OX.STATUS_DOWN_EVENT : Fld := ⟨4, 4⟩
def OX.STATUS_PATIENCE_EXPIRED : Fld := ⟨5, 5⟩
def OX.STATUS_TAGS_IN_USE : Fld := ⟨25, 16⟩
/-- OX.CTRL (R362). -/
def OX.CTRL (n : Nat) : Nat := 0x1800004 + n * 0x20000
def OX.CTRL_ENABLE : Fld := ⟨0, 0⟩
def OX.CTRL_FENCE : Fld := ⟨1, 1⟩
def OX.CTRL_RETRAIN : Fld := ⟨2, 2⟩
def OX.CTRL_AUTO_RETRAIN : Fld := ⟨3, 3⟩
def OX.CTRL_MAX_RATE : Fld := ⟨5, 4⟩
def OX.CTRL_MIN_WIDTH : Fld := ⟨7, 6⟩
/-- OX.TRAIN (R362). -/
def OX.TRAIN (n : Nat) : Nat := 0x1800008 + n * 0x20000
def OX.TRAIN_STATE : Fld := ⟨2, 0⟩
def OX.TRAIN_RATE : Fld := ⟨4, 3⟩
def OX.TRAIN_WIDTH : Fld := ⟨6, 5⟩
def OX.TRAIN_FIRST_LANE : Fld := ⟨9, 7⟩
def OX.TRAIN_REVERSED : Fld := ⟨10, 10⟩
def OX.TRAIN_POLARITY : Fld := ⟨18, 11⟩
def OX.TRAIN_LOCKED : Fld := ⟨26, 19⟩
/-- OX.PATIENCE (R362). -/
def OX.PATIENCE (n : Nat) : Nat := 0x180000C + n * 0x20000
def OX.PATIENCE_MICROSECONDS : Fld := ⟨31, 0⟩
/-- OX.PEER_SERIAL (R362). -/
def OX.PEER_SERIAL (n : Nat) : Nat := 0x1800010 + n * 0x20000
def OX.PEER_SERIAL_SERIAL : Fld := ⟨63, 0⟩
/-- OX.PEER (R362). -/
def OX.PEER (n : Nat) : Nat := 0x1800018 + n * 0x20000
def OX.PEER_NODE : Fld := ⟨15, 0⟩
def OX.PEER_PORT : Fld := ⟨19, 16⟩
/-- OX.FLIGHT (R362). -/
def OX.FLIGHT (n : Nat) : Nat := 0x180001C + n * 0x20000
def OX.FLIGHT_PS : Fld := ⟨15, 0⟩
/-- OX.READ_BOUND (R362). -/
def OX.READ_BOUND (n : Nat) : Nat := 0x1800020 + n * 0x20000
def OX.READ_BOUND_SLOTS : Fld := ⟨11, 0⟩
/-- OX.LANES (R362). -/
def OX.LANES (n : Nat) : Nat := 0x1800024 + n * 0x20000
def OX.LANES_LOS : Fld := ⟨7, 0⟩
def OX.LANES_LOL : Fld := ⟨15, 8⟩
def OX.LANES_LOS_STICKY : Fld := ⟨23, 16⟩
def OX.LANES_LOL_STICKY : Fld := ⟨31, 24⟩
/-- OX.TEST (R362). -/
def OX.TEST (n : Nat) : Nat := 0x1800028 + n * 0x20000
def OX.TEST_LOOP : Fld := ⟨1, 0⟩
def OX.TEST_PATTERN : Fld := ⟨2, 2⟩
def OX.TEST_GEN : Fld := ⟨10, 3⟩
def OX.TEST_CHK : Fld := ⟨18, 11⟩
def OX.TEST_RUNNING : Fld := ⟨19, 19⟩
/-- OX.FEC_CORRECTED (R362). -/
def OX.FEC_CORRECTED (n : Nat) : Nat := 0x1800030 + n * 0x20000
def OX.FEC_CORRECTED_COUNT : Fld := ⟨63, 0⟩
/-- OX.FEC_UNCORRECTED (R362). -/
def OX.FEC_UNCORRECTED (n : Nat) : Nat := 0x1800038 + n * 0x20000
def OX.FEC_UNCORRECTED_COUNT : Fld := ⟨63, 0⟩
/-- OX.CRC_ERRORS (R362). -/
def OX.CRC_ERRORS (n : Nat) : Nat := 0x1800040 + n * 0x20000
def OX.CRC_ERRORS_COUNT : Fld := ⟨63, 0⟩
/-- OX.RETRY_COUNT (R362). -/
def OX.RETRY_COUNT (n : Nat) : Nat := 0x1800048 + n * 0x20000
def OX.RETRY_COUNT_COUNT : Fld := ⟨63, 0⟩
/-- OX.REPLAY_FLITS (R362). -/
def OX.REPLAY_FLITS (n : Nat) : Nat := 0x1800050 + n * 0x20000
def OX.REPLAY_FLITS_COUNT : Fld := ⟨63, 0⟩
/-- OX.ERR_LOG (R362). -/
def OX.ERR_LOG (n : Nat) : Nat := 0x1800058 + n * 0x20000
def OX.ERR_LOG_CAUSE : Fld := ⟨7, 0⟩
def OX.ERR_LOG_TAG : Fld := ⟨23, 8⟩
def OX.ERR_LOG_INWIN : Fld := ⟨29, 24⟩
def OX.ERR_LOG_INBOUND : Fld := ⟨30, 30⟩
def OX.ERR_LOG_OVERFLOW : Fld := ⟨62, 62⟩
def OX.ERR_LOG_VALID : Fld := ⟨63, 63⟩
/-- OX.DOWN_COUNT (R362). -/
def OX.DOWN_COUNT (n : Nat) : Nat := 0x1800060 + n * 0x20000
def OX.DOWN_COUNT_COUNT : Fld := ⟨31, 0⟩
/-- OX.PRBS_ERRORS (R362). -/
def OX.PRBS_ERRORS (n m : Nat) : Nat := 0x1800100 + n * 0x20000 + m * 0x10
def OX.PRBS_ERRORS_COUNT : Fld := ⟨47, 0⟩
/-- OX.LANE_EVENTS (R362). -/
def OX.LANE_EVENTS (n m : Nat) : Nat := 0x1800108 + n * 0x20000 + m * 0x10
def OX.LANE_EVENTS_LOS_EVENTS : Fld := ⟨15, 0⟩
def OX.LANE_EVENTS_LOL_EVENTS : Fld := ⟨31, 16⟩
/-- UP.STATUS (R390). -/
def UP.STATUS (n : Nat) : Nat := 0x1C00000 + n * 0x40000
def UP.STATUS_PRESENT : Fld := ⟨0, 0⟩
def UP.STATUS_POWERED : Fld := ⟨1, 1⟩
def UP.STATUS_FENCED : Fld := ⟨2, 2⟩
def UP.STATUS_DRAINED : Fld := ⟨3, 3⟩
def UP.STATUS_ALARM : Fld := ⟨4, 4⟩
def UP.STATUS_THR_LEVEL : Fld := ⟨7, 5⟩
def UP.STATUS_RESET_BUSY : Fld := ⟨8, 8⟩
/-- UP.CTRL (R390). -/
def UP.CTRL (n : Nat) : Nat := 0x1C00004 + n * 0x40000
def UP.CTRL_FENCE : Fld := ⟨0, 0⟩
def UP.CTRL_RESET : Fld := ⟨1, 1⟩
def UP.CTRL_SEAL : Fld := ⟨2, 2⟩
/-- UP.PORTS (R390). -/
def UP.PORTS (n : Nat) : Nat := 0x1C00008 + n * 0x40000
def UP.PORTS_ACTIVE : Fld := ⟨19, 0⟩
/-- UP.POWER (R390). -/
def UP.POWER (n : Nat) : Nat := 0x1C0000C + n * 0x40000
def UP.POWER_LIMIT_W : Fld := ⟨8, 0⟩
def UP.POWER_GRANTED_W : Fld := ⟨17, 9⟩
def UP.POWER_CORE_MV : Fld := ⟨27, 18⟩
/-- UP.IDENT (R390). -/
def UP.IDENT (n : Nat) : Nat := 0x1C00010 + n * 0x40000
def UP.IDENT_VERSION : Fld := ⟨7, 0⟩
def UP.IDENT_VENDOR : Fld := ⟨23, 8⟩
def UP.IDENT_PART : Fld := ⟨39, 24⟩
def UP.IDENT_REVISION : Fld := ⟨47, 40⟩
def UP.IDENT_FLAGS : Fld := ⟨55, 48⟩
/-- UP.DIE_SERIAL (R390). -/
def UP.DIE_SERIAL (n : Nat) : Nat := 0x1C00018 + n * 0x40000
def UP.DIE_SERIAL_SERIAL : Fld := ⟨63, 0⟩
/-- UP.TEMP (R390). -/
def UP.TEMP (n : Nat) : Nat := 0x1C00020 + n * 0x40000
def UP.TEMP_CELSIUS : Fld := ⟨7, 0⟩
def UP.TEMP_VALID : Fld := ⟨8, 8⟩
/-- UP.PORT_FENCED (R390). -/
def UP.PORT_FENCED (n : Nat) : Nat := 0x1C00024 + n * 0x40000
def UP.PORT_FENCED_PORT : Fld := ⟨19, 0⟩
/-- UP.CRC_ERRORS (R390). -/
def UP.CRC_ERRORS (n : Nat) : Nat := 0x1C00028 + n * 0x40000
def UP.CRC_ERRORS_COUNT : Fld := ⟨63, 0⟩
/-- UP.LATE_RUNS (R390). -/
def UP.LATE_RUNS (n : Nat) : Nat := 0x1C00030 + n * 0x40000
def UP.LATE_RUNS_COUNT : Fld := ⟨63, 0⟩
/-- UP.ERR_LOG (R390). -/
def UP.ERR_LOG (n : Nat) : Nat := 0x1C00038 + n * 0x40000
def UP.ERR_LOG_PORT : Fld := ⟨4, 0⟩
def UP.ERR_LOG_DIR : Fld := ⟨5, 5⟩
def UP.ERR_LOG_TAG : Fld := ⟨11, 6⟩
def UP.ERR_LOG_CAUSE : Fld := ⟨19, 12⟩
def UP.ERR_LOG_OVERFLOW : Fld := ⟨62, 62⟩
def UP.ERR_LOG_VALID : Fld := ⟨63, 63⟩
/-- UP.APERTURE (R390). -/
def UP.APERTURE (n m : Nat) : Nat := 0x1C00040 + n * 0x40000 + m * 0x8
def UP.APERTURE_BASE_TILE : Fld := ⟨17, 0⟩
def UP.APERTURE_LIMIT_TILE : Fld := ⟨35, 18⟩
def UP.APERTURE_RD : Fld := ⟨36, 36⟩
def UP.APERTURE_WR : Fld := ⟨37, 37⟩
def UP.APERTURE_VALID : Fld := ⟨38, 38⟩
/-- UP.GROUP (R390). -/
def UP.GROUP (n m : Nat) : Nat := 0x1C00100 + n * 0x40000 + m * 0x4
def UP.GROUP_SPARES_USED : Fld := ⟨3, 0⟩
def UP.GROUP_TRAINED : Fld := ⟨4, 4⟩
/-- PT.STATUS (R421). -/
def PT.STATUS : Nat := 0x200000
def PT.STATUS_BUDGET_MODE : Fld := ⟨0, 0⟩
def PT.STATUS_ANY_WARNING : Fld := ⟨1, 1⟩
def PT.STATUS_ANY_THROTTLE : Fld := ⟨2, 2⟩
def PT.STATUS_LIMITING : Fld := ⟨3, 3⟩
def PT.STATUS_DEFER_ACTIVE : Fld := ⟨4, 4⟩
def PT.STATUS_SHUTDOWN_PENDING : Fld := ⟨5, 5⟩
/-- PT.CTRL (R421). -/
def PT.CTRL : Nat := 0x200004
def PT.CTRL_FIXED_DISPATCH : Fld := ⟨0, 0⟩
def PT.CTRL_DEFER_ENABLE : Fld := ⟨1, 1⟩
def PT.CTRL_NOTICE_ENABLE : Fld := ⟨2, 2⟩
def PT.CTRL_SEAL : Fld := ⟨3, 3⟩
/-- PT.BUDGET (R421). -/
def PT.BUDGET : Nat := 0x200008
def PT.BUDGET_FREE_UJ : Fld := ⟨31, 0⟩
def PT.BUDGET_WINDOW : Fld := ⟨63, 32⟩
/-- PT.BUDGET_CFG (R421). -/
def PT.BUDGET_CFG : Nat := 0x200010
def PT.BUDGET_CFG_CAP_W : Fld := ⟨10, 0⟩
/-- PT.POWER (R421). -/
def PT.POWER : Nat := 0x200014
def PT.POWER_BASE_W : Fld := ⟨10, 0⟩
def PT.POWER_UP_W : Fld := ⟨21, 11⟩
/-- PT.POWER_LIMIT (R421). -/
def PT.POWER_LIMIT : Nat := 0x200018
def PT.POWER_LIMIT_LIMIT_W : Fld := ⟨10, 0⟩
/-- PT.LEVELS (R421). -/
def PT.LEVELS : Nat := 0x20001C
def PT.LEVELS_FABRIC_W : Fld := ⟨2, 0⟩
def PT.LEVELS_FABRIC_E : Fld := ⟨5, 3⟩
def PT.LEVELS_PORTER_W : Fld := ⟨8, 6⟩
def PT.LEVELS_PORTER_E : Fld := ⟨11, 9⟩
def PT.LEVELS_LIMITER : Fld := ⟨14, 12⟩
def PT.LEVELS_THR : Fld := ⟨27, 16⟩
/-- PT.HOSTEL_LEVELS (R421). -/
def PT.HOSTEL_LEVELS : Nat := 0x200020
def PT.HOSTEL_LEVELS_LEVEL : Fld := ⟨23, 0⟩
/-- PT.DEFER (R421). -/
def PT.DEFER : Nat := 0x200024
def PT.DEFER_ZONE : Fld := ⟨4, 0⟩
/-- PT.THROTTLE_COUNT (R421). -/
def PT.THROTTLE_COUNT : Nat := 0x200028
def PT.THROTTLE_COUNT_COUNT : Fld := ⟨63, 0⟩
/-- PT.ZONE_STATUS (R421). -/
def PT.ZONE_STATUS (n : Nat) : Nat := 0x200100 + n * 0x10
def PT.ZONE_STATUS_READING : Fld := ⟨11, 0⟩
def PT.ZONE_STATUS_STATE : Fld := ⟨13, 12⟩
def PT.ZONE_STATUS_LEVEL : Fld := ⟨16, 14⟩
def PT.ZONE_STATUS_DEFERRED : Fld := ⟨17, 17⟩
def PT.ZONE_STATUS_FAST : Fld := ⟨18, 18⟩
def PT.ZONE_STATUS_ALARM : Fld := ⟨19, 19⟩
/-- PT.ZONE_THRESH (R421). -/
def PT.ZONE_THRESH (n : Nat) : Nat := 0x200104 + n * 0x10
def PT.ZONE_THRESH_WARN_TRIP : Fld := ⟨7, 0⟩
def PT.ZONE_THRESH_WARN_CLEAR : Fld := ⟨15, 8⟩
def PT.ZONE_THRESH_THR_TRIP : Fld := ⟨23, 16⟩
def PT.ZONE_THRESH_THR_CLEAR : Fld := ⟨31, 24⟩
/-- PT.ZONE_LIMIT (R421). -/
def PT.ZONE_LIMIT (n : Nat) : Nat := 0x200108 + n * 0x10
def PT.ZONE_LIMIT_SHUTDOWN : Fld := ⟨7, 0⟩
def PT.ZONE_LIMIT_SHUT_MARGIN : Fld := ⟨11, 8⟩
def PT.ZONE_LIMIT_EXT_OFFSET : Fld := ⟨16, 12⟩
def PT.ZONE_LIMIT_START_LEVEL : Fld := ⟨19, 17⟩
/-- PT.ZONE_BROKEN (R421). -/
def PT.ZONE_BROKEN (n : Nat) : Nat := 0x20010C + n * 0x10
def PT.ZONE_BROKEN_DIE : Fld := ⟨3, 0⟩
def PT.ZONE_BROKEN_EXT : Fld := ⟨5, 4⟩
/-- PT.RAIL (R421). -/
def PT.RAIL (n : Nat) : Nat := 0x200300 + n * 0x4
def PT.RAIL_MV : Fld := ⟨9, 0⟩
def PT.RAIL_AMPS : Fld := ⟨20, 10⟩
def PT.RAIL_PHASES : Fld := ⟨26, 21⟩
def PT.RAIL_LIMITING : Fld := ⟨27, 27⟩
def PT.RAIL_ON : Fld := ⟨28, 28⟩
/-- STW.STATUS (R455). -/
def STW.STATUS : Nat := 0x10000
def STW.STATUS_BOOTED : Fld := ⟨0, 0⟩
def STW.STATUS_CORES_UP : Fld := ⟨4, 1⟩
/-- STW.L2_CTRL (R455). -/
def STW.L2_CTRL : Nat := 0x10004
def STW.L2_CTRL_LOCK : Fld := ⟨15, 0⟩
def STW.L2_CTRL_FILL_WAY : Fld := ⟨19, 16⟩
def STW.L2_CTRL_FILL_ONLY : Fld := ⟨20, 20⟩
def STW.L2_CTRL_PF_DEPTH : Fld := ⟨24, 21⟩
def STW.L2_CTRL_STREAM_ENABLE : Fld := ⟨25, 25⟩
/-- STW.L2_STATUS (R455). -/
def STW.L2_STATUS : Nat := 0x10008
def STW.L2_STATUS_WAYS_OFF : Fld := ⟨15, 0⟩
def STW.L2_STATUS_DEGRADED : Fld := ⟨16, 16⟩
/-- STW.L2_MAINT (R455). -/
def STW.L2_MAINT : Nat := 0x1000C
def STW.L2_MAINT_OP : Fld := ⟨1, 0⟩
def STW.L2_MAINT_GO : Fld := ⟨2, 2⟩
/-- ETC.VALUE (R455). -/
def ETC.VALUE : Nat := 0x10010
def ETC.VALUE_NS : Fld := ⟨63, 0⟩
/-- ETC.FLAGS (R455). -/
def ETC.FLAGS : Nat := 0x10018
def ETC.FLAGS_WALL_UNKNOWN : Fld := ⟨0, 0⟩
/-- DISP.HOST_RELEASE (R455). -/
def DISP.HOST_RELEASE : Nat := 0x10020
def DISP.HOST_RELEASE_MILESTONE : Fld := ⟨15, 0⟩
def DISP.HOST_RELEASE_SLOT : Fld := ⟨19, 16⟩
/-- DISP.BUDGET_DEFERS (R455). -/
def DISP.BUDGET_DEFERS : Nat := 0x10028
def DISP.BUDGET_DEFERS_COUNT : Fld := ⟨63, 0⟩
/-- DISP.XCHIP_WAITS (R455). -/
def DISP.XCHIP_WAITS : Nat := 0x10030
def DISP.XCHIP_WAITS_COUNT : Fld := ⟨63, 0⟩
/-- DISP.CLOCK_WAKES (R455). -/
def DISP.CLOCK_WAKES : Nat := 0x10038
def DISP.CLOCK_WAKES_COUNT : Fld := ⟨63, 0⟩
/-- LNCH.ITIN (R455). -/
def LNCH.ITIN (n : Nat) : Nat := 0x11000 + n * 0x100
def LNCH.ITIN_DPA : Fld := ⟨47, 0⟩
/-- LNCH.ASPACE (R455). -/
def LNCH.ASPACE (n : Nat) : Nat := 0x11008 + n * 0x100
def LNCH.ASPACE_AST : Fld := ⟨11, 0⟩
/-- LNCH.HSA (R455). -/
def LNCH.HSA (n : Nat) : Nat := 0x11010 + n * 0x100
def LNCH.HSA_DVA : Fld := ⟨56, 0⟩
/-- LNCH.PSA (R455). -/
def LNCH.PSA (n : Nat) : Nat := 0x11018 + n * 0x100
def LNCH.PSA_DVA : Fld := ⟨56, 0⟩
/-- LNCH.STEP (R455). -/
def LNCH.STEP (n : Nat) : Nat := 0x11020 + n * 0x100
def LNCH.STEP_START : Fld := ⟨63, 0⟩
/-- LNCH.STEPS (R455). -/
def LNCH.STEPS (n : Nat) : Nat := 0x11028 + n * 0x100
def LNCH.STEPS_COUNT : Fld := ⟨31, 0⟩
/-- LNCH.CHIP (R455). -/
def LNCH.CHIP (n : Nat) : Nat := 0x1102C + n * 0x100
def LNCH.CHIP_RANK : Fld := ⟨15, 0⟩
def LNCH.CHIP_COUNT : Fld := ⟨31, 16⟩
/-- LNCH.SEM (R455). -/
def LNCH.SEM (n : Nat) : Nat := 0x11030 + n * 0x100
def LNCH.SEM_DPA : Fld := ⟨47, 0⟩
/-- LNCH.JOB (R455). -/
def LNCH.JOB (n : Nat) : Nat := 0x11038 + n * 0x100
def LNCH.JOB_TAG : Fld := ⟨31, 0⟩
/-- LNCH.CTRL (R455). -/
def LNCH.CTRL (n : Nat) : Nat := 0x1103C + n * 0x100
def LNCH.CTRL_GO : Fld := ⟨0, 0⟩
def LNCH.CTRL_ABORT : Fld := ⟨1, 1⟩
def LNCH.CTRL_RELEASE : Fld := ⟨2, 2⟩
def LNCH.CTRL_IRQ_ENABLE : Fld := ⟨3, 3⟩
def LNCH.CTRL_VECTOR : Fld := ⟨9, 4⟩
/-- LNCH.STATUS (R455). -/
def LNCH.STATUS (n : Nat) : Nat := 0x11040 + n * 0x100
def LNCH.STATUS_STATE : Fld := ⟨2, 0⟩
def LNCH.STATUS_CAUSE : Fld := ⟨15, 8⟩
def LNCH.STATUS_LAUNCH : Fld := ⟨31, 16⟩
def LNCH.STATUS_STEPS_DONE : Fld := ⟨63, 32⟩
/-- PCIE.STATUS (R456). -/
def PCIE.STATUS : Nat := 0x500000
def PCIE.STATUS_LINK_UP : Fld := ⟨0, 0⟩
def PCIE.STATUS_GEN : Fld := ⟨3, 1⟩
def PCIE.STATUS_WIDTH : Fld := ⟨6, 4⟩
def PCIE.STATUS_FLIT : Fld := ⟨7, 7⟩
def PCIE.STATUS_BME : Fld := ⟨8, 8⟩
/-- PCIE.HOST_BASE (R456). -/
def PCIE.HOST_BASE : Nat := 0x500008
def PCIE.HOST_BASE_BASE : Fld := ⟨63, 0⟩
/-- PCIE.BAR2_WINDOW (R456). -/
def PCIE.BAR2_WINDOW : Nat := 0x500010
def PCIE.BAR2_WINDOW_BASE : Fld := ⟨47, 30⟩
/-- PCIE.CPL_TIMEOUT (R456). -/
def PCIE.CPL_TIMEOUT : Nat := 0x500018
def PCIE.CPL_TIMEOUT_MS : Fld := ⟨15, 0⟩
/-- PCIE.ERR_LOG (R456). -/
def PCIE.ERR_LOG : Nat := 0x500020
def PCIE.ERR_LOG_DPA : Fld := ⟨47, 0⟩
def PCIE.ERR_LOG_CAUSE : Fld := ⟨55, 48⟩
def PCIE.ERR_LOG_BAR : Fld := ⟨56, 56⟩
def PCIE.ERR_LOG_WRITE : Fld := ⟨57, 57⟩
def PCIE.ERR_LOG_OVERFLOW : Fld := ⟨62, 62⟩
def PCIE.ERR_LOG_VALID : Fld := ⟨63, 63⟩
/-- BRG.STATUS (R477). -/
def BRG.STATUS : Nat := 0x300000
def BRG.STATUS_STAGE : Fld := ⟨2, 0⟩
def BRG.STATUS_PART_RESET_BUSY : Fld := ⟨3, 3⟩
def BRG.STATUS_HARD_REPAIR_BUSY : Fld := ⟨4, 4⟩
def BRG.STATUS_FAIL_CAUSE : Fld := ⟨15, 8⟩
/-- BRG.CTRL (R477). -/
def BRG.CTRL : Nat := 0x300004
def BRG.CTRL_PART_RESET : Fld := ⟨0, 0⟩
def BRG.CTRL_HARD_REPAIR : Fld := ⟨1, 1⟩
/-- BRG.READY_TIME (R477). -/
def BRG.READY_TIME : Nat := 0x300008
def BRG.READY_TIME_NS : Fld := ⟨63, 0⟩
/-- BRG.SERVICE_TIME (R477). -/
def BRG.SERVICE_TIME : Nat := 0x300010
def BRG.SERVICE_TIME_NS : Fld := ⟨63, 0⟩
/-- BRG.ENABLED (R477). -/
def BRG.ENABLED : Nat := 0x300018
def BRG.ENABLED_HBM : Fld := ⟨15, 0⟩
def BRG.ENABLED_LPDDR : Fld := ⟨31, 16⟩
def BRG.ENABLED_OXLUX : Fld := ⟨47, 32⟩
def BRG.ENABLED_HOSTELS : Fld := ⟨55, 48⟩
def BRG.ENABLED_MX : Fld := ⟨56, 56⟩
def BRG.ENABLED_TALLY : Fld := ⟨57, 57⟩
/-- BRG.REPAIR_LIST (R477). -/
def BRG.REPAIR_LIST : Nat := 0x300020
def BRG.REPAIR_LIST_DPA : Fld := ⟨47, 0⟩
def BRG.REPAIR_LIST_COUNT : Fld := ⟨59, 48⟩
/-- BRG.REPAIR_RESULT (R477). -/
def BRG.REPAIR_RESULT : Nat := 0x300028
def BRG.REPAIR_RESULT_DONE : Fld := ⟨15, 0⟩
def BRG.REPAIR_RESULT_FAILED : Fld := ⟨31, 16⟩
/-- SBX.STATUS (R477). -/
def SBX.STATUS : Nat := 0x400000
def SBX.STATUS_BUSY : Fld := ⟨0, 0⟩
def SBX.STATUS_RESULT : Fld := ⟨15, 8⟩
def SBX.STATUS_UDS_LOCKED : Fld := ⟨16, 16⟩
def SBX.STATUS_DEBUGGED : Fld := ⟨17, 17⟩
def SBX.STATUS_FIELD : Fld := ⟨18, 18⟩
def SBX.STATUS_FUSE_SUPPLY : Fld := ⟨19, 19⟩
def SBX.STATUS_LICENCE_APPLIED : Fld := ⟨20, 20⟩
def SBX.STATUS_LMS_EXHAUSTED : Fld := ⟨21, 21⟩
/-- SBX.CTRL (R477). -/
def SBX.CTRL : Nat := 0x400004
def SBX.CTRL_SUBMIT : Fld := ⟨0, 0⟩
def SBX.CTRL_NEW_NONCE : Fld := ⟨1, 1⟩
def SBX.CTRL_ATTEST : Fld := ⟨2, 2⟩
/-- SBX.SUBMIT (R477). -/
def SBX.SUBMIT : Nat := 0x400008
def SBX.SUBMIT_DPA : Fld := ⟨47, 0⟩
/-- SBX.SUBMIT_LEN (R477). -/
def SBX.SUBMIT_LEN : Nat := 0x400010
def SBX.SUBMIT_LEN_BYTES : Fld := ⟨20, 0⟩
/-- SBX.LMS_INDEX (R477). -/
def SBX.LMS_INDEX : Nat := 0x400014
def SBX.LMS_INDEX_NEXT_LEAF : Fld := ⟨19, 0⟩
def SBX.LMS_INDEX_BLOCKS_LEFT : Fld := ⟨30, 20⟩
/-- SBX.RESULT_ADDR (R477). -/
def SBX.RESULT_ADDR : Nat := 0x400018
def SBX.RESULT_ADDR_DPA : Fld := ⟨47, 0⟩
/-- SBX.NONCE (R477). -/
def SBX.NONCE (n : Nat) : Nat := 0x400020 + n * 0x8
def SBX.NONCE_VALUE : Fld := ⟨63, 0⟩
/-- SBX.NONCE_IN (R477). -/
def SBX.NONCE_IN (n : Nat) : Nat := 0x400050 + n * 0x8
def SBX.NONCE_IN_VALUE : Fld := ⟨63, 0⟩
/-- SBX.KA_PUB (R477). -/
def SBX.KA_PUB (n : Nat) : Nat := 0x400080 + n * 0x8
def SBX.KA_PUB_KEY : Fld := ⟨63, 0⟩
/-- SBX.FUSE_GEN (R477). -/
def SBX.FUSE_GEN : Nat := 0x4000F0
def SBX.FUSE_GEN_HBM : Fld := ⟨31, 0⟩
def SBX.FUSE_GEN_LPDDR : Fld := ⟨63, 32⟩
/-- SBX.FUSE_GEN_PROG (R477). -/
def SBX.FUSE_GEN_PROG : Nat := 0x4000F8
def SBX.FUSE_GEN_PROG_VALUE : Fld := ⟨63, 0⟩
/-- GB.STATUS (R494). -/
def GB.STATUS : Nat := 0x3800000
def GB.STATUS_PRIOR_COUNT : Fld := ⟨6, 0⟩
/-- GB.CTRL (R494). -/
def GB.CTRL : Nat := 0x3800004
def GB.CTRL_RETAIN_CLEAR : Fld := ⟨0, 0⟩
/-- GB.HEAD_SEQ (R494). -/
def GB.HEAD_SEQ : Nat := 0x3800008
def GB.HEAD_SEQ_SEQ : Fld := ⟨31, 0⟩
/-- GB.OLDEST_SEQ (R494). -/
def GB.OLDEST_SEQ : Nat := 0x380000C
def GB.OLDEST_SEQ_SEQ : Fld := ⟨31, 0⟩
/-- GB.HORIZON (R494). -/
def GB.HORIZON : Nat := 0x3800010
def GB.HORIZON_NS : Fld := ⟨63, 0⟩
/-- GB.FIND (R494). -/
def GB.FIND : Nat := 0x3800018
def GB.FIND_TICK : Fld := ⟨63, 0⟩
/-- GB.FIND_RESULT (R494). -/
def GB.FIND_RESULT : Nat := 0x3800020
def GB.FIND_RESULT_SEQ : Fld := ⟨31, 0⟩
def GB.FIND_RESULT_VALID : Fld := ⟨32, 32⟩
def GB.FIND_RESULT_TRUNCATED : Fld := ⟨33, 33⟩
/-- GB.IRQ_STATUS (R494). -/
def GB.IRQ_STATUS : Nat := 0x3800028
def GB.IRQ_STATUS_CAUSE : Fld := ⟨11, 0⟩
/-- GB.IRQ_ENABLE (R494). -/
def GB.IRQ_ENABLE : Nat := 0x380002C
def GB.IRQ_ENABLE_CAUSE : Fld := ⟨11, 0⟩
/-- GB.IRQ_VECTOR_LO (R494). -/
def GB.IRQ_VECTOR_LO : Nat := 0x3800030
def GB.IRQ_VECTOR_LO_VECTOR : Fld := ⟨63, 0⟩
/-- GB.IRQ_VECTOR_HI (R494). -/
def GB.IRQ_VECTOR_HI : Nat := 0x3800038
def GB.IRQ_VECTOR_HI_VECTOR : Fld := ⟨31, 0⟩
/-- GB.HEALTH (R494). -/
def GB.HEALTH : Nat := 0x3800040
def GB.HEALTH_STATE : Fld := ⟨1, 0⟩
def GB.HEALTH_DEGRADED_REASONS : Fld := ⟨12, 8⟩
def GB.HEALTH_FAILED_REASONS : Fld := ⟨18, 16⟩
/-- GB.UE_LIMIT (R494). -/
def GB.UE_LIMIT : Nat := 0x3800044
def GB.UE_LIMIT_COUNT : Fld := ⟨15, 0⟩
/-- GLB.ID (R504). -/
def GLB.ID : Nat := 0x0
def GLB.ID_PART : Fld := ⟨15, 0⟩
def GLB.ID_STEPPING : Fld := ⟨23, 16⟩
/-- GLB.MAP_VERSION (R504). -/
def GLB.MAP_VERSION : Nat := 0x4
def GLB.MAP_VERSION_VERSION : Fld := ⟨15, 0⟩
/-- GLB.SERIAL (R504). -/
def GLB.SERIAL : Nat := 0x8
def GLB.SERIAL_SERIAL : Fld := ⟨63, 0⟩
/-- GLB.NODE_ID (R504). -/
def GLB.NODE_ID : Nat := 0x10
def GLB.NODE_ID_NODE : Fld := ⟨15, 0⟩
/-- GLB.STATUS (R504). -/
def GLB.STATUS : Nat := 0x14
def GLB.STATUS_READY : Fld := ⟨0, 0⟩
def GLB.STATUS_SERVICE : Fld := ⟨1, 1⟩
def GLB.STATUS_BOOT_FAILED : Fld := ⟨2, 2⟩
def GLB.STATUS_HEALTH : Fld := ⟨4, 3⟩
def GLB.STATUS_PART_RESET_BUSY : Fld := ⟨5, 5⟩
/-- GLB.COUNTS (R504). -/
def GLB.COUNTS : Nat := 0x18
def GLB.COUNTS_SLICES : Fld := ⟨7, 0⟩
def GLB.COUNTS_HBM_SITES : Fld := ⟨12, 8⟩
def GLB.COUNTS_LPDDR_PORTS : Fld := ⟨17, 13⟩
def GLB.COUNTS_OXLUX_PORTS : Fld := ⟨22, 18⟩
def GLB.COUNTS_UPPER_SITES : Fld := ⟨25, 23⟩
def GLB.COUNTS_HOSTELS : Fld := ⟨29, 26⟩
def GLB.COUNTS_COURIERS : Fld := ⟨35, 30⟩
def GLB.COUNTS_PORTER_ROWS : Fld := ⟨42, 36⟩
def GLB.COUNTS_PORTER_COLS : Fld := ⟨49, 43⟩
/-- GLB.SCRATCH (R504). -/
def GLB.SCRATCH : Nat := 0x20
def GLB.SCRATCH_VALUE : Fld := ⟨63, 0⟩
/-- GLB.SEALS (R504). -/
def GLB.SEALS : Nat := 0x28
def GLB.SEALS_PT : Fld := ⟨0, 0⟩
def GLB.SEALS_UP : Fld := ⟨4, 1⟩

/-- The registers of block SLICE. -/
def regSpecsSLICE : List RegSpec := [
  ⟨0x800000, [(0x1000, 96)], 32, [⟨0, 0, .ro, 0⟩, ⟨1, 1, .ro, 0⟩, ⟨2, 2, .ro, 0⟩, ⟨3, 3, .w1c, 0⟩, ⟨27, 16, .ro, 0⟩]⟩,
  ⟨0x800008, [(0x1000, 96)], 32, [⟨31, 0, .rw, 0⟩]⟩,
  ⟨0x80000C, [(0x1000, 96)], 32, [⟨31, 0, .rw, 0⟩]⟩,
  ⟨0x800010, [(0x1000, 96)], 32, [⟨31, 0, .ro, 0⟩]⟩,
  ⟨0x800024, [(0x1000, 96)], 32, [⟨31, 0, .ro, 0⟩]⟩,
  ⟨0x800018, [(0x1000, 96)], 64, [⟨10, 0, .ro, 0⟩, ⟨19, 11, .ro, 0⟩, ⟨23, 20, .ro, 0⟩, ⟨24, 24, .w1c, 0⟩, ⟨25, 25, .w1c, 0⟩]⟩,
  ⟨0x800020, [(0x1000, 96)], 32, [⟨0, 0, .rw, 1⟩, ⟨15, 8, .rw, 0x64⟩]⟩,
  ⟨0x800028, [(0x1000, 96)], 32, [⟨9, 0, .ro, 0⟩, ⟨16, 10, .ro, 0⟩, ⟨17, 17, .ro, 0⟩]⟩,
  ⟨0x800100, [(0x1000, 96), (0x8, 16)], 64, [⟨63, 0, .ro, 0⟩]⟩]

/-- The registers of block XR. -/
def regSpecsXR : List RegSpec := [
  ⟨0x900000, [(0x10000, 2)], 32, [⟨0, 0, .ro, 0⟩, ⟨1, 1, .w1s, 0⟩, ⟨2, 2, .rw, 0⟩]⟩,
  ⟨0x900004, [(0x10000, 2)], 32, [⟨0, 0, .ro, 0⟩, ⟨1, 1, .w1c, 0⟩, ⟨2, 2, .ro, 0⟩, ⟨3, 3, .ro, 0⟩]⟩,
  ⟨0x900008, [(0x10000, 2)], 64, [⟨63, 0, .ro, 0⟩]⟩,
  ⟨0x900010, [(0x10000, 2)], 32, [⟨11, 0, .ro, 0⟩]⟩,
  ⟨0x900018, [(0x10000, 2)], 32, [⟨0, 0, .ro, 0⟩, ⟨1, 1, .ro, 0⟩, ⟨8, 2, .ro, 0⟩]⟩,
  ⟨0x900020, [(0x10000, 2)], 64, [⟨63, 0, .ro, 0⟩]⟩,
  ⟨0x900028, [(0x10000, 2)], 32, [⟨7, 0, .rw, 0x20⟩, ⟨15, 8, .rw, 2⟩, ⟨23, 16, .rw, 4⟩, ⟨31, 24, .rw, 4⟩]⟩,
  ⟨0x90002C, [(0x10000, 2)], 32, [⟨8, 0, .ro, 0⟩, ⟨9, 9, .w1c, 0⟩, ⟨16, 10, .ro, 0⟩]⟩,
  ⟨0x900030, [(0x10000, 2)], 64, [⟨11, 0, .ro, 0⟩, ⟨18, 12, .ro, 0⟩, ⟨19, 19, .ro, 0⟩, ⟨23, 20, .ro, 0⟩, ⟨63, 63, .w1c, 0⟩]⟩,
  ⟨0x900014, [], 32, [⟨0, 0, .rw, 0⟩]⟩]

/-- The registers of block HOS. -/
def regSpecsHOS : List RegSpec := [
  ⟨0x2000000, [(0x100000, 8)], 32, [⟨0, 0, .ro, 0⟩, ⟨1, 1, .ro, 0⟩, ⟨2, 2, .ro, 0⟩, ⟨14, 8, .ro, 0⟩, ⟨19, 16, .ro, 0⟩, ⟨20, 20, .ro, 0⟩]⟩,
  ⟨0x2000004, [(0x100000, 8)], 32, [⟨0, 0, .rw, 0⟩]⟩,
  ⟨0x2000008, [(0x100000, 8)], 64, [⟨15, 0, .ro, 0⟩, ⟨21, 16, .ro, 0⟩, ⟨26, 22, .ro, 0⟩, ⟨35, 28, .ro, 0⟩, ⟨53, 36, .ro, 0⟩, ⟨62, 62, .w1c, 0⟩, ⟨63, 63, .w1c, 0⟩]⟩,
  ⟨0x2000010, [(0x100000, 8)], 64, [⟨63, 0, .ro, 0⟩]⟩]

/-- The registers of block POR. -/
def regSpecsPOR : List RegSpec := [
  ⟨0x3000000, [(0x100, 4096)], 32, [⟨0, 0, .ro, 0⟩, ⟨1, 1, .ro, 0⟩, ⟨2, 2, .ro, 0⟩, ⟨3, 3, .ro, 1⟩, ⟨4, 4, .ro, 0⟩, ⟨5, 5, .ro, 0⟩, ⟨6, 6, .ro, 0⟩, ⟨11, 8, .ro, 0⟩]⟩,
  ⟨0x3000004, [(0x100, 4096)], 32, [⟨0, 0, .rw, 0⟩, ⟨1, 1, .rw, 0⟩]⟩,
  ⟨0x3000008, [(0x100, 4096)], 64, [⟨15, 0, .ro, 0⟩, ⟨23, 16, .ro, 0⟩, ⟨39, 24, .ro, 0⟩, ⟨62, 62, .w1c, 0⟩, ⟨63, 63, .w1c, 0⟩]⟩,
  ⟨0x3000010, [(0x100, 4096)], 32, [⟨31, 0, .ro, 0⟩]⟩,
  ⟨0x3000018, [(0x100, 4096)], 64, [⟨63, 0, .ro, 0⟩]⟩]

/-- The registers of block COUR. -/
def regSpecsCOUR : List RegSpec := [
  ⟨0xC00000, [(0x1000, 32)], 32, [⟨15, 0, .ro, 0⟩, ⟨31, 16, .ro, 0⟩]⟩,
  ⟨0xC00008, [(0x1000, 32)], 64, [⟨63, 0, .ro, 0⟩]⟩,
  ⟨0xC00010, [(0x1000, 32)], 64, [⟨63, 0, .ro, 0⟩]⟩,
  ⟨0xC00018, [(0x1000, 32)], 64, [⟨3, 0, .ro, 0⟩, ⟨11, 4, .ro, 0⟩, ⟨43, 12, .ro, 0⟩, ⟨62, 62, .w1c, 0⟩, ⟨63, 63, .w1c, 0⟩]⟩,
  ⟨0xC00E00, [(0x1000, 32), (0x4, 64)], 32, [⟨31, 0, .rw, 0⟩]⟩]

/-- The registers of block CH. -/
def regSpecsCH : List RegSpec := [
  ⟨0xC00100, [(0x1000, 32), (0x40, 16)], 32, [⟨2, 0, .ro, 0⟩, ⟨5, 3, .ro, 0⟩, ⟨7, 6, .ro, 0⟩, ⟨8, 8, .ro, 0⟩, ⟨9, 9, .w1c, 0⟩]⟩,
  ⟨0xC00104, [(0x1000, 32), (0x40, 16)], 32, [⟨0, 0, .w1s, 0⟩, ⟨1, 1, .w1s, 0⟩]⟩,
  ⟨0xC00108, [(0x1000, 32), (0x40, 16)], 64, [⟨63, 0, .ro, 0⟩]⟩,
  ⟨0xC00110, [(0x1000, 32), (0x40, 16)], 64, [⟨63, 0, .ro, 0⟩]⟩,
  ⟨0xC00118, [(0x1000, 32), (0x40, 16)], 32, [⟨15, 0, .ro, 0⟩]⟩,
  ⟨0xC0011C, [(0x1000, 32), (0x40, 16)], 32, [⟨31, 0, .ro, 0⟩]⟩,
  ⟨0xC00500, [(0x1000, 32), (0x80, 16), (0x8, 16)], 64, [⟨63, 0, .rw, 0⟩]⟩]

/-- The registers of block CTU. -/
def regSpecsCTU : List RegSpec := [
  ⟨0x100000, [], 32, [⟨0, 0, .rw, 1⟩]⟩,
  ⟨0x100004, [], 32, [⟨6, 0, .ro, 0⟩, ⟨11, 7, .ro, 0⟩, ⟨12, 12, .ro, 0⟩, ⟨13, 13, .ro, 0⟩, ⟨14, 14, .w1c, 0⟩, ⟨15, 15, .w1c, 0⟩]⟩,
  ⟨0x100008, [], 32, [⟨11, 0, .rw, 0⟩]⟩,
  ⟨0x10000C, [], 32, [⟨11, 0, .rw, 0⟩, ⟨31, 31, .ro, 1⟩]⟩,
  ⟨0x100010, [], 64, [⟨47, 0, .rw, 0⟩]⟩,
  ⟨0x100018, [], 32, [⟨4, 0, .rw, 8⟩]⟩,
  ⟨0x10001C, [], 32, [⟨31, 0, .ro, 0⟩]⟩,
  ⟨0x100020, [], 32, [⟨31, 0, .rw, 0⟩]⟩,
  ⟨0x100024, [], 32, [⟨5, 0, .rw, 0⟩, ⟨6, 6, .rw, 0⟩]⟩,
  ⟨0x100028, [], 32, [⟨5, 0, .wo, 0⟩, ⟨8, 8, .wo, 0⟩]⟩,
  ⟨0x100030, [], 64, [⟨63, 0, .ro, 0⟩]⟩,
  ⟨0x100038, [], 64, [⟨63, 0, .ro, 0⟩]⟩,
  ⟨0x100040, [], 64, [⟨63, 0, .ro, 0⟩]⟩,
  ⟨0x100100, [(0x10, 64)], 64, [⟨63, 0, .ro, 0⟩]⟩,
  ⟨0x100108, [(0x10, 64)], 64, [⟨15, 0, .ro, 0⟩, ⟨31, 16, .ro, 0⟩, ⟨63, 63, .ro, 0⟩]⟩,
  ⟨0x100800, [(0x8, 64)], 64, [⟨0, 0, .rw, 0⟩, ⟨4, 1, .rw, 0⟩, ⟨10, 5, .rw, 0⟩, ⟨31, 16, .rw, 0⟩]⟩,
  ⟨0x101000, [(0x20, 64)], 64, [⟨56, 0, .rw, 0⟩]⟩,
  ⟨0x101008, [(0x20, 64)], 64, [⟨40, 0, .rw, 0⟩]⟩,
  ⟨0x101010, [(0x20, 64)], 64, [⟨0, 0, .rw, 0⟩, ⟨1, 1, .rw, 0⟩, ⟨2, 2, .rw, 0⟩, ⟨3, 3, .rw, 0⟩, ⟨9, 4, .rw, 0⟩, ⟨21, 10, .rw, 0⟩, ⟨37, 22, .rw, 0⟩]⟩,
  ⟨0x108000, [(0x8, 4096)], 64, [⟨0, 0, .rw, 0⟩, ⟨47, 12, .rw, 0⟩]⟩]

/-- The registers of block MEMH. -/
def regSpecsMEMH : List RegSpec := [
  ⟨0x1000000, [(0x20000, 16)], 32, [⟨0, 0, .ro, 0⟩, ⟨1, 1, .ro, 0⟩, ⟨3, 2, .ro, 0⟩, ⟨5, 4, .ro, 0⟩, ⟨6, 6, .ro, 0⟩, ⟨7, 7, .ro, 0⟩, ⟨8, 8, .ro, 0⟩, ⟨9, 9, .ro, 0⟩, ⟨21, 16, .ro, 0⟩]⟩,
  ⟨0x1000004, [(0x20000, 16)], 32, [⟨0, 0, .rw, 0⟩, ⟨1, 1, .w1s, 0⟩, ⟨2, 2, .rw, 1⟩]⟩,
  ⟨0x1000008, [(0x20000, 16)], 32, [⟨16, 0, .ro, 0⟩]⟩,
  ⟨0x100000C, [(0x20000, 16)], 32, [⟨11, 0, .ro, 0⟩]⟩,
  ⟨0x1000010, [(0x20000, 16)], 32, [⟨11, 0, .ro, 0⟩]⟩,
  ⟨0x1000014, [(0x20000, 16)], 32, [⟨11, 0, .ro, 0⟩, ⟨17, 12, .ro, 0⟩]⟩,
  ⟨0x1000018, [(0x20000, 16)], 32, [⟨31, 0, .rw, 0⟩]⟩,
  ⟨0x100001C, [(0x20000, 16)], 32, [⟨31, 0, .rw, 0⟩]⟩,
  ⟨0x1000020, [(0x20000, 16)], 64, [⟨36, 0, .ro, 0⟩, ⟨40, 37, .ro, 0⟩, ⟨62, 62, .w1c, 0⟩, ⟨63, 63, .w1c, 0⟩]⟩,
  ⟨0x1000028, [(0x20000, 16)], 32, [⟨7, 0, .ro, 0⟩, ⟨15, 8, .ro, 0⟩]⟩,
  ⟨0x100002C, [(0x20000, 16)], 32, [⟨3, 0, .rw, 4⟩]⟩,
  ⟨0x1000030, [(0x20000, 16)], 64, [⟨36, 0, .rw, 0⟩, ⟨63, 63, .w1s, 0⟩]⟩,
  ⟨0x1000038, [(0x20000, 16)], 32, [⟨19, 0, .ro, 0⟩]⟩,
  ⟨0x100003C, [(0x20000, 16)], 32, [⟨19, 0, .rw, 0x400⟩]⟩,
  ⟨0x1000040, [(0x20000, 16)], 32, [⟨7, 0, .ro, 0⟩, ⟨15, 8, .ro, 0⟩, ⟨16, 16, .ro, 0⟩]⟩,
  ⟨0x1000044, [(0x20000, 16)], 32, [⟨1, 0, .rw, 0⟩, ⟨7, 2, .rw, 0⟩, ⟨11, 8, .rw, 0⟩, ⟨12, 12, .w1s, 0⟩]⟩,
  ⟨0x1000048, [(0x20000, 16)], 32, [⟨7, 0, .ro, 0⟩, ⟨15, 8, .ro, 0⟩, ⟨16, 16, .ro, 0⟩]⟩,
  ⟨0x1000050, [(0x20000, 16)], 64, [⟨63, 0, .ro, 1⟩]⟩,
  ⟨0x1000058, [(0x20000, 16)], 64, [⟨63, 0, .ro, 0⟩]⟩,
  ⟨0x1000060, [(0x20000, 16)], 64, [⟨63, 0, .ro, 0⟩]⟩,
  ⟨0x1000068, [(0x20000, 16)], 32, [⟨7, 0, .rw, 0x18⟩]⟩,
  ⟨0x100006C, [(0x20000, 16)], 32, [⟨9, 0, .ro, 0⟩, ⟨20, 10, .ro, 0⟩]⟩,
  ⟨0x1001000, [(0x20000, 16), (0x8, 256)], 64, [⟨36, 12, .ro, 0⟩, ⟨41, 37, .ro, 0⟩, ⟨63, 63, .ro, 0⟩]⟩]

/-- The registers of block MEML. -/
def regSpecsMEML : List RegSpec := [
  ⟨0x1400000, [(0x10000, 16)], 32, [⟨0, 0, .ro, 0⟩, ⟨1, 1, .ro, 0⟩, ⟨3, 2, .ro, 0⟩, ⟨5, 4, .ro, 0⟩, ⟨6, 6, .ro, 0⟩, ⟨7, 7, .ro, 0⟩, ⟨8, 8, .ro, 0⟩, ⟨9, 9, .ro, 0⟩, ⟨21, 16, .ro, 0⟩]⟩,
  ⟨0x1400004, [(0x10000, 16)], 32, [⟨0, 0, .rw, 0⟩, ⟨1, 1, .w1s, 0⟩, ⟨2, 2, .rw, 1⟩]⟩,
  ⟨0x1400008, [(0x10000, 16)], 32, [⟨16, 0, .ro, 0⟩]⟩,
  ⟨0x140000C, [(0x10000, 16)], 32, [⟨11, 0, .ro, 0⟩]⟩,
  ⟨0x1400010, [(0x10000, 16)], 32, [⟨11, 0, .ro, 0⟩]⟩,
  ⟨0x1400014, [(0x10000, 16)], 32, [⟨11, 0, .ro, 0⟩, ⟨17, 12, .ro, 0⟩]⟩,
  ⟨0x1400018, [(0x10000, 16)], 32, [⟨31, 0, .rw, 0⟩]⟩,
  ⟨0x140001C, [(0x10000, 16)], 32, [⟨31, 0, .rw, 0⟩]⟩,
  ⟨0x1400020, [(0x10000, 16)], 64, [⟨36, 0, .ro, 0⟩, ⟨40, 37, .ro, 0⟩, ⟨62, 62, .w1c, 0⟩, ⟨63, 63, .w1c, 0⟩]⟩,
  ⟨0x1400028, [(0x10000, 16)], 32, [⟨7, 0, .ro, 0⟩, ⟨15, 8, .ro, 0⟩]⟩,
  ⟨0x140002C, [(0x10000, 16)], 32, [⟨3, 0, .rw, 4⟩]⟩,
  ⟨0x1400030, [(0x10000, 16)], 64, [⟨36, 0, .rw, 0⟩, ⟨63, 63, .w1s, 0⟩]⟩,
  ⟨0x1400038, [(0x10000, 16)], 32, [⟨19, 0, .ro, 0⟩]⟩,
  ⟨0x140003C, [(0x10000, 16)], 32, [⟨19, 0, .rw, 0x400⟩]⟩,
  ⟨0x1400040, [(0x10000, 16)], 32, [⟨7, 0, .ro, 0⟩, ⟨15, 8, .ro, 0⟩, ⟨16, 16, .ro, 0⟩]⟩,
  ⟨0x1400044, [(0x10000, 16)], 32, [⟨1, 0, .rw, 0⟩, ⟨7, 2, .rw, 0⟩, ⟨11, 8, .rw, 0⟩, ⟨12, 12, .w1s, 0⟩]⟩,
  ⟨0x1400048, [(0x10000, 16)], 32, [⟨7, 0, .ro, 0⟩, ⟨15, 8, .ro, 0⟩, ⟨16, 16, .ro, 0⟩]⟩,
  ⟨0x1400050, [(0x10000, 16)], 64, [⟨63, 0, .ro, 1⟩]⟩,
  ⟨0x1400058, [(0x10000, 16)], 64, [⟨63, 0, .ro, 0⟩]⟩,
  ⟨0x1400060, [(0x10000, 16)], 64, [⟨63, 0, .ro, 0⟩]⟩,
  ⟨0x1400068, [(0x10000, 16)], 32, [⟨7, 0, .rw, 0x18⟩]⟩,
  ⟨0x140006C, [(0x10000, 16)], 32, [⟨9, 0, .ro, 0⟩, ⟨20, 10, .ro, 0⟩]⟩,
  ⟨0x1401000, [(0x10000, 16), (0x8, 256)], 64, [⟨36, 12, .ro, 0⟩, ⟨41, 37, .ro, 0⟩, ⟨63, 63, .ro, 0⟩]⟩]

/-- The registers of block OX. -/
def regSpecsOX : List RegSpec := [
  ⟨0x1800000, [(0x20000, 16)], 32, [⟨0, 0, .ro, 0⟩, ⟨1, 1, .ro, 0⟩, ⟨2, 2, .ro, 0⟩, ⟨3, 3, .ro, 1⟩, ⟨4, 4, .w1c, 0⟩, ⟨5, 5, .w1c, 0⟩, ⟨25, 16, .ro, 0⟩]⟩,
  ⟨0x1800004, [(0x20000, 16)], 32, [⟨0, 0, .rw, 1⟩, ⟨1, 1, .rw, 0⟩, ⟨2, 2, .w1s, 0⟩, ⟨3, 3, .rw, 1⟩, ⟨5, 4, .rw, 0⟩, ⟨7, 6, .rw, 2⟩]⟩,
  ⟨0x1800008, [(0x20000, 16)], 32, [⟨2, 0, .ro, 0⟩, ⟨4, 3, .ro, 0⟩, ⟨6, 5, .ro, 0⟩, ⟨9, 7, .ro, 0⟩, ⟨10, 10, .ro, 0⟩, ⟨18, 11, .ro, 0⟩, ⟨26, 19, .ro, 0⟩]⟩,
  ⟨0x180000C, [(0x20000, 16)], 32, [⟨31, 0, .rw, 0x7D0⟩]⟩,
  ⟨0x1800010, [(0x20000, 16)], 64, [⟨63, 0, .ro, 0⟩]⟩,
  ⟨0x1800018, [(0x20000, 16)], 32, [⟨15, 0, .ro, 0xFFFF⟩, ⟨19, 16, .ro, 0⟩]⟩,
  ⟨0x180001C, [(0x20000, 16)], 32, [⟨15, 0, .ro, 0⟩]⟩,
  ⟨0x1800020, [(0x20000, 16)], 32, [⟨11, 0, .ro, 0⟩]⟩,
  ⟨0x1800024, [(0x20000, 16)], 32, [⟨7, 0, .ro, 0⟩, ⟨15, 8, .ro, 0⟩, ⟨23, 16, .w1c, 0⟩, ⟨31, 24, .w1c, 0⟩]⟩,
  ⟨0x1800028, [(0x20000, 16)], 32, [⟨1, 0, .rw, 0⟩, ⟨2, 2, .rw, 0⟩, ⟨10, 3, .rw, 0⟩, ⟨18, 11, .rw, 0⟩, ⟨19, 19, .ro, 0⟩]⟩,
  ⟨0x1800030, [(0x20000, 16)], 64, [⟨63, 0, .ro, 0⟩]⟩,
  ⟨0x1800038, [(0x20000, 16)], 64, [⟨63, 0, .ro, 0⟩]⟩,
  ⟨0x1800040, [(0x20000, 16)], 64, [⟨63, 0, .ro, 0⟩]⟩,
  ⟨0x1800048, [(0x20000, 16)], 64, [⟨63, 0, .ro, 0⟩]⟩,
  ⟨0x1800050, [(0x20000, 16)], 64, [⟨63, 0, .ro, 0⟩]⟩,
  ⟨0x1800058, [(0x20000, 16)], 64, [⟨7, 0, .ro, 0⟩, ⟨23, 8, .ro, 0⟩, ⟨29, 24, .ro, 0⟩, ⟨30, 30, .ro, 0⟩, ⟨62, 62, .w1c, 0⟩, ⟨63, 63, .w1c, 0⟩]⟩,
  ⟨0x1800060, [(0x20000, 16)], 32, [⟨31, 0, .ro, 0⟩]⟩,
  ⟨0x1800100, [(0x20000, 16), (0x10, 8)], 64, [⟨47, 0, .ro, 0⟩]⟩,
  ⟨0x1800108, [(0x20000, 16), (0x10, 8)], 32, [⟨15, 0, .ro, 0⟩, ⟨31, 16, .ro, 0⟩]⟩]

/-- The registers of block UP. -/
def regSpecsUP : List RegSpec := [
  ⟨0x1C00000, [(0x40000, 4)], 32, [⟨0, 0, .ro, 0⟩, ⟨1, 1, .ro, 0⟩, ⟨2, 2, .ro, 0⟩, ⟨3, 3, .ro, 1⟩, ⟨4, 4, .ro, 0⟩, ⟨7, 5, .ro, 0⟩, ⟨8, 8, .ro, 0⟩]⟩,
  ⟨0x1C00004, [(0x40000, 4)], 32, [⟨0, 0, .rw, 0⟩, ⟨1, 1, .w1s, 0⟩, ⟨2, 2, .w1s, 0⟩]⟩,
  ⟨0x1C00008, [(0x40000, 4)], 32, [⟨19, 0, .ro, 0⟩]⟩,
  ⟨0x1C0000C, [(0x40000, 4)], 32, [⟨8, 0, .rwl, 0x1C2⟩, ⟨17, 9, .ro, 0⟩, ⟨27, 18, .ro, 0⟩]⟩,
  ⟨0x1C00010, [(0x40000, 4)], 64, [⟨7, 0, .ro, 0⟩, ⟨23, 8, .ro, 0⟩, ⟨39, 24, .ro, 0⟩, ⟨47, 40, .ro, 0⟩, ⟨55, 48, .ro, 0⟩]⟩,
  ⟨0x1C00018, [(0x40000, 4)], 64, [⟨63, 0, .ro, 0⟩]⟩,
  ⟨0x1C00020, [(0x40000, 4)], 32, [⟨7, 0, .ro, 0⟩, ⟨8, 8, .ro, 0⟩]⟩,
  ⟨0x1C00024, [(0x40000, 4)], 32, [⟨19, 0, .w1c, 0⟩]⟩,
  ⟨0x1C00028, [(0x40000, 4)], 64, [⟨63, 0, .ro, 0⟩]⟩,
  ⟨0x1C00030, [(0x40000, 4)], 64, [⟨63, 0, .ro, 0⟩]⟩,
  ⟨0x1C00038, [(0x40000, 4)], 64, [⟨4, 0, .ro, 0⟩, ⟨5, 5, .ro, 0⟩, ⟨11, 6, .ro, 0⟩, ⟨19, 12, .ro, 0⟩, ⟨62, 62, .w1c, 0⟩, ⟨63, 63, .w1c, 0⟩]⟩,
  ⟨0x1C00040, [(0x40000, 4), (0x8, 8)], 64, [⟨17, 0, .rw, 0⟩, ⟨35, 18, .rw, 0⟩, ⟨36, 36, .rw, 0⟩, ⟨37, 37, .rw, 0⟩, ⟨38, 38, .rw, 0⟩]⟩,
  ⟨0x1C00100, [(0x40000, 4), (0x4, 40)], 32, [⟨3, 0, .ro, 0⟩, ⟨4, 4, .ro, 0⟩]⟩]

/-- The registers of block PT. -/
def regSpecsPT : List RegSpec := [
  ⟨0x200000, [], 32, [⟨0, 0, .ro, 1⟩, ⟨1, 1, .ro, 0⟩, ⟨2, 2, .ro, 0⟩, ⟨3, 3, .ro, 0⟩, ⟨4, 4, .ro, 0⟩, ⟨5, 5, .ro, 0⟩]⟩,
  ⟨0x200004, [], 32, [⟨0, 0, .rw, 0⟩, ⟨1, 1, .rw, 1⟩, ⟨2, 2, .rw, 1⟩, ⟨3, 3, .w1s, 0⟩]⟩,
  ⟨0x200008, [], 64, [⟨31, 0, .ro, 0⟩, ⟨63, 32, .ro, 0⟩]⟩,
  ⟨0x200010, [], 32, [⟨10, 0, .rw, 0x384⟩]⟩,
  ⟨0x200014, [], 32, [⟨10, 0, .ro, 0⟩, ⟨21, 11, .ro, 0⟩]⟩,
  ⟨0x200018, [], 32, [⟨10, 0, .rwl, 0x4B0⟩]⟩,
  ⟨0x20001C, [], 32, [⟨2, 0, .ro, 0⟩, ⟨5, 3, .ro, 0⟩, ⟨8, 6, .ro, 0⟩, ⟨11, 9, .ro, 0⟩, ⟨14, 12, .ro, 0⟩, ⟨27, 16, .ro, 0⟩]⟩,
  ⟨0x200020, [], 32, [⟨23, 0, .ro, 0⟩]⟩,
  ⟨0x200024, [], 32, [⟨4, 0, .ro, 0⟩]⟩,
  ⟨0x200028, [], 64, [⟨63, 0, .ro, 0⟩]⟩,
  ⟨0x200100, [(0x10, 24)], 32, [⟨11, 0, .ro, 0⟩, ⟨13, 12, .ro, 0⟩, ⟨16, 14, .ro, 0⟩, ⟨17, 17, .ro, 0⟩, ⟨18, 18, .ro, 0⟩, ⟨19, 19, .ro, 0⟩]⟩,
  ⟨0x200104, [(0x10, 24)], 32, [⟨7, 0, .rwl, 0x5F⟩, ⟨15, 8, .rwl, 0x5C⟩, ⟨23, 16, .rwl, 0x69⟩, ⟨31, 24, .rwl, 0x64⟩]⟩,
  ⟨0x200108, [(0x10, 24)], 32, [⟨7, 0, .rwl, 0x78⟩, ⟨11, 8, .rwl, 5⟩, ⟨16, 12, .rwl, 0⟩, ⟨19, 17, .rw, 2⟩]⟩,
  ⟨0x20010C, [(0x10, 24)], 32, [⟨3, 0, .ro, 0⟩, ⟨5, 4, .ro, 0⟩]⟩,
  ⟨0x200300, [(0x4, 26)], 32, [⟨9, 0, .ro, 0⟩, ⟨20, 10, .ro, 0⟩, ⟨26, 21, .ro, 0⟩, ⟨27, 27, .ro, 0⟩, ⟨28, 28, .ro, 0⟩]⟩]

/-- The registers of block STW. -/
def regSpecsSTW : List RegSpec := [
  ⟨0x10000, [], 32, [⟨0, 0, .ro, 0⟩, ⟨4, 1, .ro, 0⟩]⟩,
  ⟨0x10004, [], 32, [⟨15, 0, .rw, 0⟩, ⟨19, 16, .rw, 0⟩, ⟨20, 20, .rw, 0⟩, ⟨24, 21, .rw, 4⟩, ⟨25, 25, .rw, 1⟩]⟩,
  ⟨0x10008, [], 32, [⟨15, 0, .ro, 0⟩, ⟨16, 16, .ro, 0⟩]⟩,
  ⟨0x1000C, [], 32, [⟨1, 0, .rw, 0⟩, ⟨2, 2, .w1s, 0⟩]⟩]

/-- The registers of block ETC. -/
def regSpecsETC : List RegSpec := [
  ⟨0x10010, [], 64, [⟨63, 0, .ro, 0⟩]⟩,
  ⟨0x10018, [], 32, [⟨0, 0, .ro, 1⟩]⟩]

/-- The registers of block DISP. -/
def regSpecsDISP : List RegSpec := [
  ⟨0x10020, [], 32, [⟨15, 0, .wo, 0⟩, ⟨19, 16, .wo, 0⟩]⟩,
  ⟨0x10028, [], 64, [⟨63, 0, .ro, 0⟩]⟩,
  ⟨0x10030, [], 64, [⟨63, 0, .ro, 0⟩]⟩,
  ⟨0x10038, [], 64, [⟨63, 0, .ro, 0⟩]⟩]

/-- The registers of block LNCH. -/
def regSpecsLNCH : List RegSpec := [
  ⟨0x11000, [(0x100, 16)], 64, [⟨47, 0, .rw, 0⟩]⟩,
  ⟨0x11008, [(0x100, 16)], 64, [⟨11, 0, .rw, 0⟩]⟩,
  ⟨0x11010, [(0x100, 16)], 64, [⟨56, 0, .rw, 0⟩]⟩,
  ⟨0x11018, [(0x100, 16)], 64, [⟨56, 0, .rw, 0⟩]⟩,
  ⟨0x11020, [(0x100, 16)], 64, [⟨63, 0, .rw, 0⟩]⟩,
  ⟨0x11028, [(0x100, 16)], 32, [⟨31, 0, .rw, 1⟩]⟩,
  ⟨0x1102C, [(0x100, 16)], 32, [⟨15, 0, .rw, 0⟩, ⟨31, 16, .rw, 1⟩]⟩,
  ⟨0x11030, [(0x100, 16)], 64, [⟨47, 0, .rw, 0⟩]⟩,
  ⟨0x11038, [(0x100, 16)], 32, [⟨31, 0, .rw, 0⟩]⟩,
  ⟨0x1103C, [(0x100, 16)], 32, [⟨0, 0, .w1s, 0⟩, ⟨1, 1, .w1s, 0⟩, ⟨2, 2, .w1s, 0⟩, ⟨3, 3, .rw, 0⟩, ⟨9, 4, .rw, 0⟩]⟩,
  ⟨0x11040, [(0x100, 16)], 64, [⟨2, 0, .ro, 0⟩, ⟨15, 8, .ro, 0⟩, ⟨31, 16, .ro, 0⟩, ⟨63, 32, .ro, 0⟩]⟩]

/-- The registers of block PCIE. -/
def regSpecsPCIE : List RegSpec := [
  ⟨0x500000, [], 32, [⟨0, 0, .ro, 0⟩, ⟨3, 1, .ro, 0⟩, ⟨6, 4, .ro, 0⟩, ⟨7, 7, .ro, 0⟩, ⟨8, 8, .ro, 0⟩]⟩,
  ⟨0x500008, [], 64, [⟨63, 0, .rw, 0⟩]⟩,
  ⟨0x500010, [], 64, [⟨47, 30, .rw, 0⟩]⟩,
  ⟨0x500018, [], 32, [⟨15, 0, .rw, 0x32⟩]⟩,
  ⟨0x500020, [], 64, [⟨47, 0, .ro, 0⟩, ⟨55, 48, .ro, 0⟩, ⟨56, 56, .ro, 0⟩, ⟨57, 57, .ro, 0⟩, ⟨62, 62, .w1c, 0⟩, ⟨63, 63, .w1c, 0⟩]⟩]

/-- The registers of block BRG. -/
def regSpecsBRG : List RegSpec := [
  ⟨0x300000, [], 32, [⟨2, 0, .ro, 0⟩, ⟨3, 3, .ro, 0⟩, ⟨4, 4, .ro, 0⟩, ⟨15, 8, .ro, 0⟩]⟩,
  ⟨0x300004, [], 32, [⟨0, 0, .w1s, 0⟩, ⟨1, 1, .w1s, 0⟩]⟩,
  ⟨0x300008, [], 64, [⟨63, 0, .ro, 0⟩]⟩,
  ⟨0x300010, [], 64, [⟨63, 0, .ro, 0⟩]⟩,
  ⟨0x300018, [], 64, [⟨15, 0, .ro, 0⟩, ⟨31, 16, .ro, 0⟩, ⟨47, 32, .ro, 0⟩, ⟨55, 48, .ro, 0⟩, ⟨56, 56, .ro, 0⟩, ⟨57, 57, .ro, 0⟩]⟩,
  ⟨0x300020, [], 64, [⟨47, 0, .rw, 0⟩, ⟨59, 48, .rw, 0⟩]⟩,
  ⟨0x300028, [], 32, [⟨15, 0, .ro, 0⟩, ⟨31, 16, .ro, 0⟩]⟩]

/-- The registers of block SBX. -/
def regSpecsSBX : List RegSpec := [
  ⟨0x400000, [], 32, [⟨0, 0, .ro, 0⟩, ⟨15, 8, .ro, 0⟩, ⟨16, 16, .ro, 0⟩, ⟨17, 17, .ro, 0⟩, ⟨18, 18, .ro, 0⟩, ⟨19, 19, .ro, 0⟩, ⟨20, 20, .ro, 0⟩, ⟨21, 21, .ro, 0⟩]⟩,
  ⟨0x400004, [], 32, [⟨0, 0, .w1s, 0⟩, ⟨1, 1, .w1s, 0⟩, ⟨2, 2, .w1s, 0⟩]⟩,
  ⟨0x400008, [], 64, [⟨47, 0, .rw, 0⟩]⟩,
  ⟨0x400010, [], 32, [⟨20, 0, .rw, 0⟩]⟩,
  ⟨0x400014, [], 32, [⟨19, 0, .ro, 0⟩, ⟨30, 20, .ro, 0⟩]⟩,
  ⟨0x400018, [], 64, [⟨47, 0, .rw, 0⟩]⟩,
  ⟨0x400020, [(0x8, 6)], 64, [⟨63, 0, .ro, 0⟩]⟩,
  ⟨0x400050, [(0x8, 6)], 64, [⟨63, 0, .rw, 0⟩]⟩,
  ⟨0x400080, [(0x8, 13)], 64, [⟨63, 0, .ro, 0⟩]⟩,
  ⟨0x4000F0, [], 64, [⟨31, 0, .ro, 0⟩, ⟨63, 32, .ro, 0⟩]⟩,
  ⟨0x4000F8, [], 64, [⟨63, 0, .wo, 0⟩]⟩]

/-- The registers of block GB. -/
def regSpecsGB : List RegSpec := [
  ⟨0x3800000, [], 32, [⟨6, 0, .ro, 0⟩]⟩,
  ⟨0x3800004, [], 32, [⟨0, 0, .w1s, 0⟩]⟩,
  ⟨0x3800008, [], 32, [⟨31, 0, .ro, 0⟩]⟩,
  ⟨0x380000C, [], 32, [⟨31, 0, .ro, 0⟩]⟩,
  ⟨0x3800010, [], 64, [⟨63, 0, .ro, 0⟩]⟩,
  ⟨0x3800018, [], 64, [⟨63, 0, .rw, 0⟩]⟩,
  ⟨0x3800020, [], 64, [⟨31, 0, .ro, 0⟩, ⟨32, 32, .ro, 0⟩, ⟨33, 33, .ro, 0⟩]⟩,
  ⟨0x3800028, [], 32, [⟨11, 0, .w1c, 0⟩]⟩,
  ⟨0x380002C, [], 32, [⟨11, 0, .rw, 0⟩]⟩,
  ⟨0x3800030, [], 64, [⟨63, 0, .rw, 0⟩]⟩,
  ⟨0x3800038, [], 64, [⟨31, 0, .rw, 0⟩]⟩,
  ⟨0x3800040, [], 32, [⟨1, 0, .ro, 0⟩, ⟨12, 8, .ro, 0⟩, ⟨18, 16, .ro, 0⟩]⟩,
  ⟨0x3800044, [], 32, [⟨15, 0, .rw, 0x10⟩]⟩]

/-- The registers of block GLB. -/
def regSpecsGLB : List RegSpec := [
  ⟨0x0, [], 32, [⟨15, 0, .ro, 0xB20⟩, ⟨23, 16, .ro, 0xA1⟩]⟩,
  ⟨0x4, [], 32, [⟨15, 0, .ro, 1⟩]⟩,
  ⟨0x8, [], 64, [⟨63, 0, .ro, 0⟩]⟩,
  ⟨0x10, [], 32, [⟨15, 0, .rw, 0xFFFF⟩]⟩,
  ⟨0x14, [], 32, [⟨0, 0, .ro, 0⟩, ⟨1, 1, .ro, 0⟩, ⟨2, 2, .ro, 0⟩, ⟨4, 3, .ro, 0⟩, ⟨5, 5, .ro, 0⟩]⟩,
  ⟨0x18, [], 64, [⟨7, 0, .ro, 0x60⟩, ⟨12, 8, .ro, 0x10⟩, ⟨17, 13, .ro, 0x10⟩, ⟨22, 18, .ro, 0x10⟩, ⟨25, 23, .ro, 4⟩, ⟨29, 26, .ro, 8⟩, ⟨35, 30, .ro, 0x20⟩, ⟨42, 36, .ro, 0x40⟩, ⟨49, 43, .ro, 0x40⟩]⟩,
  ⟨0x20, [], 64, [⟨63, 0, .rw, 0⟩]⟩,
  ⟨0x28, [], 32, [⟨0, 0, .ro, 0⟩, ⟨4, 1, .ro, 0⟩]⟩]

/-- The registers of the block that an offset falls in (Table 17.1). -/
def regSpecsAt (off : Nat) : List RegSpec :=
  if off < 0x10000 then regSpecsGLB
  else if off < 0x100000 then regSpecsSTW ++ regSpecsETC ++ regSpecsDISP ++ regSpecsLNCH
  else if off < 0x200000 then regSpecsCTU
  else if off < 0x300000 then regSpecsPT
  else if off < 0x400000 then regSpecsBRG
  else if off < 0x500000 then regSpecsSBX
  else if off < 0x600000 then regSpecsPCIE
  else if off < 0x800000 then []
  else if off < 0x900000 then regSpecsSLICE
  else if off < 0xC00000 then regSpecsXR
  else if off < 0x1000000 then regSpecsCOUR ++ regSpecsCH
  else if off < 0x1400000 then regSpecsMEMH
  else if off < 0x1800000 then regSpecsMEML
  else if off < 0x1C00000 then regSpecsOX
  else if off < 0x2000000 then regSpecsUP
  else if off < 0x3000000 then regSpecsHOS
  else if off < 0x3800000 then regSpecsPOR
  else if off < 0x3C00000 then regSpecsGB
  else []

/-- Whether an offset from a register's first address is that of one of its instances, and that instance's byte:
the strides are taken one after another. -/
def inDims : List (Nat × Nat) → Nat → Nat → Option Nat
  | [], bytes, d => if d < bytes then some d else none
  | (stride, count) :: t, bytes, d => if d / stride < count then inDims t bytes (d % stride) else none

/-- The byte of an instance of `r` that an offset falls on. -/
def regHit (r : RegSpec) (off : Nat) : Option Nat :=
  if off < r.base then none else inDims r.dims (r.width / 8) (off - r.base)

/-- The register that an offset falls in, and the byte within it. -/
def regFindIn : List RegSpec → Nat → Option (RegSpec × Nat)
  | [], _ => none
  | r :: t, off => match regHit r off with | some b => some (r, b) | none => regFindIn t off

/-- The register that a BAR0 offset falls in, and the byte within it; none at a reserved offset (R498). -/
def regFind (off : Nat) : Option (RegSpec × Nat) := regFindIn (regSpecsAt off) off

/-- The reset value that a register's fields spell. -/
def resetOf : List FieldSpec → Nat
  | [] => 0
  | f :: t => f.reset * 2 ^ f.lo + resetOf t

/-- The reset value of the register at an offset. PT.ZONE_LIMIT.EXT_OFFSET resets to 10 in Z0–Z3 and Z12–Z15
(Table 13.10); the field's row gives no single number. -/
def resetVal (off : Nat) : W64 :=
  match regFind off with
  | none => 0
  | some (r, b) =>
    if b ≠ 0 then 0
    else
      let z := (off - 0x200108) / 0x10
      let ext := if r.base = 0x200108 ∧ (z < 4 ∨ (12 ≤ z ∧ z < 16)) then 10 * 2 ^ 12 else 0
      BitVec.ofNat 64 (resetOf r.fields + ext)

end Sys2Proof.Machine
end

