-- ==== Sys2Proof/Machine/Tab.lean ====
section
/-!
DEFINITION. Sys2Proof/Machine/Tab.lean: reading and writing the sparse tables that hold the block's large arrays,
in the one canonical form (keys strictly rising, no entry equal to the default).
-/

namespace Sys2Proof.Machine

/-- The entry listed at `k`, if one is. -/
def tabFind {α : Type} : Tab α → Nat → Option α
  | [], _ => none
  | (a, v) :: t, k => if k = a then some v else tabFind t k

/-- What key `k` holds, `d` where nothing is listed. -/
def tabGet {α : Type} (d : α) (t : Tab α) (k : Nat) : α := (tabFind t k).getD d

/-- The table with the entry at `k` taken out. -/
def tabErase {α : Type} : Tab α → Nat → Tab α
  | [], _ => []
  | (a, v) :: t, k => if k = a then tabErase t k else (a, v) :: tabErase t k

/-- The table with `v` listed at `k`. -/
def tabInsert {α : Type} : Tab α → Nat → α → Tab α
  | [], k, v => [(k, v)]
  | (a, w) :: t, k, v =>
    if k = a then (k, v) :: t else if k < a then (k, v) :: (a, w) :: t else (a, w) :: tabInsert t k v

/-- Write `v` at `k`, in canonical form over the default `d`. -/
def tabSet {α : Type} [DecidableEq α] (d : α) (t : Tab α) (k : Nat) (v : α) : Tab α :=
  if v = d then tabErase t k else tabInsert t k v

/-- Every entry through `f` of its key and value, over the default `d`. -/
def tabMap {α : Type} [DecidableEq α] (d : α) (f : Nat → α → α) : Tab α → Tab α
  | [] => []
  | (a, v) :: t => tabSet d (tabMap d f t) a (f a v)

/-- The keys strictly rise from above `lo`, and no entry holds the default that its key has. -/
def tabWfFrom {α : Type} [DecidableEq α] (d : Nat → α) : Option Nat → Tab α → Bool
  | _, [] => true
  | lo, (a, v) :: t => (match lo with | none => true | some l => decide (l < a)) && decide (v ≠ d a) && tabWfFrom d (some a) t

/-- The canonical form of a table. -/
def tabWf {α : Type} [DecidableEq α] (d : Nat → α) (t : Tab α) : Bool := tabWfFrom d none t

/-- A range of keys read as a list. -/
def tabRange {α : Type} (d : α) (t : Tab α) (k : Nat) : Nat → List α
  | 0 => []
  | n + 1 => tabGet d t k :: tabRange d t (k + 1) n

/-- A list written from `k` upward. -/
def tabWrite {α : Type} [DecidableEq α] (d : α) : Tab α → Nat → List α → Tab α
  | t, _, [] => t
  | t, k, v :: vs => tabWrite d (tabSet d t k v) (k + 1) vs

/-- Replace element `i` of a list through `f`. -/
def listUpd {α : Type} (f : α → α) : List α → Nat → List α
  | [], _ => []
  | a :: l, 0 => f a :: l
  | a :: l, i + 1 => a :: listUpd f l i

/-- The index of the first element that meets `p`. -/
def listFind {α : Type} (p : α → Bool) : List α → Option Nat
  | [] => none
  | a :: l => if p a then some 0 else (listFind p l).map (· + 1)

/-- The list without its element `i`. -/
def listDrop1 {α : Type} : List α → Nat → List α
  | [], _ => []
  | _ :: l, 0 => l
  | a :: l, i + 1 => a :: listDrop1 l i

end Sys2Proof.Machine
end

