-- ==== Sys2Proof/Machine/State.lean ====
section
/-!
DEFINITION. Sys2Proof/Machine/State.lean: everything the manual gives the block, as plain data, and the block right
after reset. Control and status registers are the sparse file `regs` keyed by BAR0 offset (R495); an unlisted
register holds its reset value. Large arrays are sparse tables whose unlisted entries hold a default.
-/

namespace Sys2Proof.Machine

/-- The reasons for which the block stops. -/
inductive Fault where
  /-- Kept for a stop that no rule of the manual gives an effect; no meaning raises it at present. Safe. -/
  | stuck (why : String)
  deriving DecidableEq, Repr

/-- The reasons for which a command is turned away without a meaning. -/
inductive Refusal where
  /-- Raised by an arm of `exec` that has no meaning yet. Safe. -/
  | notModelled (mnemonic : String)
  /-- Raised when the word that a command carries is a legal word of another row: the command is not that row's,
  and the device has no such event. Safe. -/
  | wrongWord
  deriving DecidableEq, Repr

/-! ### Who asks for an access -/

/-- The requester to which the outcome of an access returns. -/
inductive Asker where
  /-- A porter's request slot. -/
  | porter (n slot : Nat)
  /-- An inbound transaction of an Oxlux port. -/
  | oxlux (x k : Nat)
  /-- A walk of the CTU. -/
  | walker (i : Nat)
  /-- A courier channel's tile: its unit's number `k`, part `j`, on the source side or the destination side. -/
  | courier (c ch k j : Nat) (src : Bool)
  /-- A courier's read of a landed tile for its hash engine (R261), by the read's number. -/
  | hashRead (c ch k : Nat)
  /-- The add at ARR_DVA of a courier channel. -/
  | arrival (c ch : Nat)
  /-- An uncached access of a steward core. -/
  | steward (k : Nat)
  /-- A fill of the steward's L2, by line number. -/
  | line (l : Nat)
  /-- An entry of the steward's eviction buffer, by line number. -/
  | evict (l : Nat)
  /-- A part of a BAR2 access. -/
  | host (id part : Nat)
  /-- A port of an upper site: tag `t` of its READs or WRITEs. -/
  | upper (u p t : Nat) (wr : Bool)
  /-- A scrubber's read of one beat. -/
  | scrub
  /-- The write-back of a corrected word. -/
  | writeBack
  /-- No one waits. -/
  | nobody
  deriving DecidableEq, Repr

/-- What an access does. -/
inductive AccOp where
  | read
  | write
  /-- A memory-side add of element type `ty` (Table 7.10). -/
  | add (ty : Nat)
  | audit
  deriving DecidableEq, Repr

/-- An end of a mesh route: router 64 × row + column, and whether its attachment port or its core. -/
structure MeshEnd where
  router : Nat
  att : Bool
  deriving DecidableEq, Repr

/-- An access to memory by DPA. -/
structure MemReq where
  op : AccOp
  dpa : Nat
  n : Nat
  key : Nat := 0
  data : List Byte := []
  launch : BitVec 16 := 0
  who : Asker
  back : MeshEnd
  deriving DecidableEq, Repr

/-! ### Shared buffer (02) -/

/-- What a tile of the buffer carries beside its bytes (R42, R47, R56). -/
structure Tile where
  valid : BitVec 64 := 0
  code : W32 := 0
  poisoned : Bool := false
  deriving DecidableEq, Repr

/-- A background requester class, in the class order of Table 3.5. -/
inductive BgClass where
  | walker | steward | host | scrub
  deriving DecidableEq, Repr

/-- A background request waiting at a slice; a read carries no data. -/
structure BgReq where
  cls : BgClass
  dpa : Nat
  len : Nat
  data : List Byte := []
  en : List Bool := []
  who : Asker
  deriving DecidableEq, Repr

/-- A tile audit that waits at a slice (R227): the tile, and the request slot of the porter that asked. -/
structure Audit where
  tile : Nat
  porter : Nat
  slot : Nat
  deriving DecidableEq, Repr

/-- A contribution held by a reduction unit (R85): its index, bytes, whether it came with a bus error, and its place
in the order of arrival. -/
structure RedHeld where
  idx : Nat
  data : List Byte
  bad : Bool
  order : Nat
  deriving DecidableEq, Repr

/-- One destination beat of a reduction (R83-R92). -/
structure RedBeat where
  idx : Nat
  desc : W64
  beat : Nat
  e : Nat
  acc : List Byte
  held : List RedHeld
  recv : BitVec 64
  arrived : Nat
  poison : Bool
  failed : Bool
  done : Bool
  doneOrder : Nat
  deriving DecidableEq, Repr

/-- A slice's state outside its registers and array. -/
structure Slice where
  corrQ : List Nat := []
  rmw : List (Nat × W64) := []
  bgR : List BgReq := []
  bgW : List BgReq := []
  ageR : List Nat := [0, 0, 0, 0]
  ageW : List Nat := [0, 0, 0, 0]
  lastR : Nat := 3
  lastW : Nat := 3
  audits : List Audit := []
  scrubPos : Nat := 0
  /-- Corrected words that the scrubber has read and has still to rewrite (R40, R41). -/
  scrubHeld : List Nat := []
  scrubDue : Bool := false
  red : List RedBeat := []
  redOrder : Nat := 0
  /-- Beats closed under R92: descriptor index, beat, launch. -/
  redClosed : List (Nat × Nat × Nat) := []
  /-- Beats finished since their descriptor last finished whole: descriptor index, beat (R259). -/
  redDone : List (Nat × Nat) := []
  deriving DecidableEq, Repr

/-! ### Hostels (05, 06) -/

/-- An entry of the reconvergence stack (R141); addresses are byte offsets. -/
structure Rejoin where
  rejoin : Nat
  saved : W32
  pendPc : Nat
  pendMask : W32
  deriving DecidableEq, Repr

/-- An arrival that waits for the group's implied fence (R201-R203). -/
inductive SyncOp where
  | barb
  | barc
  | siga (rank k imm : Nat)
  | mile (id : Nat)
  deriving DecidableEq, Repr

/-- What a group waits for. -/
inductive GWait where
  | none
  | fence
  | fenceThen (op : SyncOp)
  | waita (ctr : Nat) (val : W32)
  | barb
  | barc
  deriving DecidableEq, Repr

/-- One lane's part of a memory instruction: its address and its captured operands. -/
structure LaneAcc where
  lane : Nat
  dpa : Nat
  b : Nat
  c : Nat
  deriving DecidableEq, Repr

/-- An access on the caravan link that has not taken effect (R149): the instruction word and its lanes, or a signal
to an arrival counter of a peer. -/
inductive PeerOp where
  | mem (w : W64) (target : Nat) (lanes : List LaneAcc)
  | tile (w : W64) (target : Nat) (dpa : Nat)
  | sig (target : Nat) (ctr imm : Nat)
  deriving DecidableEq, Repr

/-- A group slot (R136-R145). Thread registers are keyed 32 × register + lane, tile registers 4096 × register +
byte. -/
structure Group where
  used : Bool := false
  launch : BitVec 16 := 0
  block : Nat := 0
  gidx : Nat := 0
  pc : BitVec 18 := 0
  active : W32 := 0
  live : W32 := 0
  stack : List Rejoin := []
  v : Tab W32 := []
  p : Tab W32 := []
  m : Tab Byte := []
  flags : W32 := 0
  wait : GWait := .none
  stopped : Bool := false
  peer : List PeerOp := []
  deriving DecidableEq, Repr

/-- A resident block (R146, R147, R201, R203). -/
structure Block where
  used : Bool := false
  launch : BitVec 16 := 0
  slot : Nat := 0
  leg : Nat := 0
  rank : Nat := 0
  cluster : Nat := 0
  nblocks : Nat := 1
  ngroups : Nat := 0
  alloc : Nat := 0
  size : Nat := 0
  ctrBase : Nat := 0
  blkid : W32 := 0
  chip : W32 := 0
  nchips : W32 := 0
  segBase : W64 := 0
  seed : W64 := 0
  step : W64 := 0
  flags : W32 := 0
  miles : List (Nat × Nat) := []
  deriving DecidableEq, Repr

/-- An instruction in a hostel's array queue (R152). -/
structure ArrayOp where
  group : Nat
  launch : BitVec 16
  word : W64
  d0 : Nat
  a0 : Nat
  b0 : Nat
  n : Nat
  s : Nat
  dva : Nat
  deriving DecidableEq, Repr

/-! ### Crossroads (03) -/

/-- An engine's transfer that waits for meetings at one of its crossroads ports (R66-R70). Its blocks are the 256 B beats, or
at a 128 B port the 128 B halves, that its bytes touch. `moved` are the blocks that a slice has read, or that have left the
engine; `arrived` counts those at their destination, a read's by block in `got`; `crc` is the running tile code of a
whole-tile read. `due` is the first slot of its meeting, counted in slots since RUN was first set, and `last` the slot in
which a slice last served it. `age` and `born` count slots since its last flit and since its first. `red` names a reduction
descriptor and contributor; `expect` is the tile code that a whole-tile write carries. -/
structure XOp where
  port : Nat
  write : Bool
  addr : Nat
  n : Nat
  moved : List Nat := []
  arrived : Nat := 0
  got : Tab (List Byte) := []
  crc : Nat := 0
  data : List Byte := []
  ready : Bool := true
  due : Option Nat := none
  last : Option Nat := none
  age : Nat := 0
  born : Nat := 0
  red : Option (Nat × Nat) := none
  expect : Option Nat := none
  whole : Bool := false
  cause : Nat := 0
  who : Asker
  req : Option MemReq := none
  deriving DecidableEq, Repr

/-- A beat on a seam channel (R66, R93): the slot of its consuming entry, the transfer, the block and its bytes from `addr`,
and with the last beat of a whole-tile read its status and code (R80). -/
structure SeamBeat where
  slot : Nat
  port : Nat
  who : Asker
  blk : Nat
  addr : Nat
  data : List Byte
  fin : Option (Nat × Nat) := none
  red : Option (Nat × Nat) := none
  deriving DecidableEq, Repr

/-- A breach found by the timetable check (R72). -/
structure Breach where
  slot : Nat
  col : Nat
  wr : Bool
  rule : Nat
  deriving DecidableEq, Repr

/-- A half of the crossroads beyond its registers. -/
structure HalfX where
  /-- Timetable entries by bank: 2^20 × bank + (slot × 80 + column) × 2 + direction. -/
  bank : Tab (BitVec 16) := []
  /-- Multicast groups by bank: 256 × bank + group. -/
  groups : Tab (BitVec 256) := []
  /-- Reduction descriptors by bank: 8192 × bank + 64 × (slice mod 48) + index. -/
  red : Tab W64 := []
  /-- Transfers that wait, by engine port. -/
  ops : Tab (List XOp) := []
  /-- Beats on the seam channels toward this half: 4 × channel + queue. -/
  seam : Tab (List SeamBeat) := []
  /-- The half waits at slot 0 for the other (R98). -/
  realign : Bool := false
  /-- The clock of the half: 0 full speed, else the throttle level (R95, R96). -/
  clock : Nat := 0
  /-- The slot whose COMPLETION entry a narrow write has taken (R51), by column. -/
  taken : Tab Nat := []
  /-- The first slot of the last run of an upper-site port at a slice column (R371, R372), by 256 × (2 × column + direction) +
  port, plus one. -/
  runs : Tab Nat := []
  deriving DecidableEq, Repr

/-! ### Upper sites (12) -/

/-- An upper site beyond its registers. `level` is the fill of each port's buffer toward its read group, in 128ths of a beat
(R375); `lost` marks a port that has dropped a beat of the pushed tile in progress; `sent` are the flits that have left, by
port; `msgs` the sideband messages sent. `phase` of Table 12.5: 0 empty, absent or off; 1 supplies in regulation and RST_N at 0;
2 waiting for IDENT; 3 training its groups; 4 in service. `mask` are the ports that IDENT enables, `retrain` those in the
recovery of R380, `rstN` the pin RST_N, `pg` the pin PG; `presentN` is the pin PRESENT_N, which a die ties to 0. -/
structure Upper where
  phase : Nat := 0
  mask : Nat := 0
  retrain : Nat := 0
  rstN : Bool := false
  pg : Bool := false
  presentN : Bool := false
  level : Tab Nat := []
  lost : Tab Bool := []
  sent : List (Nat × BitVec 2176) := []
  msgs : List (BitVec 256) := []
  deriving DecidableEq, Repr

/-! ### Porter mesh (03, 07) -/

/-- What a START carries (R235), with the launch slot and the leg that it belongs to. -/
structure StartMsg where
  launch : BitVec 16 := 0
  slot : Nat := 0
  leg : Nat := 0
  entry : Nat := 0
  args : Nat := 0
  pidx : Nat := 0
  nporters : Nat := 0
  chip : Nat := 0
  nchips : Nat := 0
  seed : W64 := 0
  step : W64 := 0
  deriving DecidableEq, Repr

/-- What a packet of the mesh carries (Table 7.13). -/
inductive MeshBody where
  /-- A far request on its way to its translation stop, by DVA. -/
  | far (dva : Nat) (r : MemReq)
  | req (r : MemReq)
  | resp (who : Asker) (cause : Nat) (data : List Byte)
  | gput (launch : BitVec 16) (off : Nat) (data : List Byte) (who : Asker) (back : MeshEnd)
  | gadd (launch : BitVec 16) (off : Nat) (v : W32) (who : Asker) (back : MeshEnd)
  | mcastAck (taken dropped : Nat)
  | start (m : StartMsg)
  | kill (launch : BitVec 16)
  | loadBegin
  | load (off : Nat) (data : List Byte)
  | loadCheck (count : Nat) (crc : W32)
  | done (m : StartMsg) (flags : W32)
  | mile (m : StartMsg) (id : Nat)
  | killed (n : Nat) (launch : BitVec 16)
  | imageBad (n : Nat)
  | startRefused (n : Nat) (m : StartMsg)
  deriving DecidableEq, Repr

/-- Where a packet goes: one end, or the cores of a multicast entry's rows and columns (R81). -/
inductive MeshDst where
  | one (e : MeshEnd)
  | many (rows cols : W64)
  deriving DecidableEq, Repr

/-- A flit: the packet's last flit carries its contents. `outs` are the outputs that it must still take. -/
structure Flit where
  src : MeshEnd
  dst : MeshDst
  pkt : Nat
  last : Bool
  waited : Nat := 0
  outs : List MeshPort
  body : Option MeshBody
  deriving DecidableEq, Repr

/-- The acknowledgements of a multicast packet as they merge (R82). -/
structure McastAck where
  src : MeshEnd
  taken : Nat
  dropped : Nat
  total : Nat
  deriving DecidableEq, Repr

/-- The porter mesh: input queues keyed 24 × router + 4 × input + channel; round-robin places keyed 24 × router + 4 × output
+ channel; packets delivered, by 2 × router + attachment. -/
structure Mesh where
  queues : Tab (List Flit) := []
  rr : Tab Nat := []
  inbox : Tab (List (Nat × MeshBody)) := []
  acks : Tab McastAck := []
  nextPkt : Nat := 0
  /-- MESH.MCAST_ROWS[i] at 2i and MESH.MCAST_COLS[i] at 2i + 1 (Table 3.12). -/
  mcast : Tab W64 := []
  /-- Multicast bytes staged with a timetable image, written at the bank switch (R71). -/
  pendingMcast : Option (List W64) := none
  deriving DecidableEq, Repr

/-! ### Porters and steward cores (07, 14) -/

/-- A core of the porter set: g and f registers, the program counter and the sticky flags. -/
structure Core where
  g : Tab W32 := []
  f : Tab W32 := []
  pc : W32 := 0
  flags : W32 := 0
  deriving DecidableEq, Repr

/-- What a porter waits for at issue (R230, R232). -/
inductive PorWait where
  | none
  | waitq (k : Nat)
  | waitw (off : Nat) (b : W32)
  | mile (id : Nat)
  | exit
  deriving DecidableEq, Repr

/-- A taken request slot (R223, R228): the opcode, the destination register or offset, the length, and the completion
word. -/
structure PorReq where
  op : Nat
  dst : Nat
  n : Nat
  compl : Option Nat
  id : Nat := 0
  deriving DecidableEq, Repr

/-- A porter beyond its registers and local memory. -/
structure Porter where
  core : Core := {}
  msg : StartMsg := {}
  wait : PorWait := .none
  stopped : Bool := false
  slots : Tab PorReq := []
  loadCount : Nat := 0
  loadDropped : Bool := false
  powering : Bool := false
  deriving DecidableEq, Repr

/-- Where a load puts its data: the register, whether an f register, the size in bytes and the sign extension. -/
structure LoadDst where
  reg : Nat
  fl : Bool
  size : Nat
  signed : Bool
  deriving DecidableEq, Repr

/-- What waits for a fill of the steward's L2 (R431): a load or a store of a core, with the sticky flags that the store's
instruction sets. -/
inductive L2Wait where
  | load (core off : Nat) (d : LoadDst)
  | store (core off : Nat) (data : List Byte) (flags : W32)
  /-- The core issues its instruction again once the line is there. -/
  | replay (core : Nat)
  deriving DecidableEq, Repr

/-- A line of the L2 (R425): its line number, dirty mark, bytes, and the class of a stored error (0 none, 1 corrected,
2 uncorrectable). -/
structure L2Line where
  line : Nat
  dirty : Bool
  data : List Byte
  err : Nat := 0
  deriving DecidableEq, Repr

/-- A fill in progress: the way it completes into (16: none, served uncached), what waits, maintenance that waits by
core (4: none waits) and operation, and the memory's answer once it is back. -/
structure Fill where
  line : Nat
  way : Nat
  prefetch : Bool
  waits : List L2Wait
  cmos : List (Nat × Nat)
  back : Option (Nat × List Byte) := none
  deriving DecidableEq, Repr

/-- An eviction-buffer entry (R428, R429): the bytes written so far; `open_` names the core that streams into it. -/
structure EvEntry where
  line : Nat
  data : List Byte
  en : List Bool
  open_ : Option Nat := none
  /-- Its writes have been sent, and `left` of them are not answered. -/
  sent : Bool := false
  left : Nat := 0
  deriving DecidableEq, Repr

/-- A stride tracker (R427). -/
structure Tracker where
  last : Nat
  stride : Int
  hits : Nat
  deriving DecidableEq, Repr

/-- A steward core (R422-R428): the saved pc and cause of its exception, the lines its L1 data cache holds (newest
first), its trackers in use order, and the run of its last store misses. -/
structure SCore where
  core : Core := {}
  csr : Tab W32 := []
  epc : W32 := 0
  ecause : Nat := 0
  eaddr : Nat := 0
  trapped : Bool := false
  wfi : Bool := false
  waiting : Bool := false
  /-- The line whose eviction entry a CLEAN or FLUSH of the core waits for (R431). -/
  cleanWait : Option Nat := none
  l1 : List (Nat × List Byte) := []
  trackers : List Tracker := []
  storeRun : Nat := 0
  storeLast : Nat := 0
  storeMask : BitVec 64 := 0
  stream : Option Nat := none
  deriving DecidableEq, Repr

/-- The steward complex beyond its registers (R422-R432). Lines are keyed 16 × set + way. -/
structure Steward where
  cores : Tab SCore := []
  lines : Tab (Option L2Line) := []
  lfsr : BitVec 16 := 0xACE1
  evict : List EvEntry := []
  fills : List Fill := []
  corrected : Tab Nat := []
  deriving DecidableEq, Repr

/-! ### Memory sites (10) -/

/-- A scheduled command at a site (R300, R301): the courier's piece it serves, what it does, its range under a key, the slot
of its meeting, the slots of lead, its cost in budget units, and its place in the order of entry. -/
structure SchedCmd where
  who : Asker
  op : AccOp
  dpa : Nat
  n : Nat
  key : Nat
  due : Nat
  lead : Nat
  cost : Nat
  seq : Nat := 0
  /-- Its access has been made. -/
  done : Bool := false
  deriving DecidableEq, Repr

/-- A memory-side add in progress: the granules done, and the first cause (R312-R314). -/
structure AddJob where
  req : MemReq
  done : Nat := 0
  cause : Nat := 0
  deriving DecidableEq, Repr

/-- A memory site beyond its registers (R295-R325). Rows are numbered unit + units × (row, stack and bank together). -/
structure Site where
  keys : Tab (BitVec 512) := []
  cmds : List SchedCmd := []
  planned : List SchedCmd := []
  adds : List AddJob := []
  /-- Tracked mesh requests, each with its place in the order of entry. -/
  mesh : List (Nat × MemReq) := []
  seq : Nat := 0
  /-- Slots and costs of the scheduled commands accepted of late (R301). -/
  costs : List (Nat × Nat) := []
  queue : List Nat := []
  repaired : Tab Nat := []
  retired : List (Nat × Nat) := []
  scrubPos : Nat := 0
  scrubFixed : List Nat := []
  selfRefresh : Bool := false
  retraining : Bool := false
  margining : Bool := false
  windows : Tab Nat := []
  mr4At : Nat := 0
  deriving DecidableEq, Repr

/-! ### Translation (09) -/

/-- Who asked for a translation. -/
inductive TransFor where
  /-- A courier channel, for its descriptor `d`; `arr`: the word at ARR_DVA. -/
  | courier (c ch d : Nat) (arr : Bool)
  /-- A translation stop: 0–31 West, 32–63 East, and the request's own number there. -/
  | stop (k id : Nat)
  /-- An inbound transaction. -/
  | oxlux (x k : Nat)
  deriving DecidableEq, Repr

/-- A lookup (R275): the tag, the address, whether it needs the write permission, and who asked. -/
structure Lookup where
  ast : Nat
  dva : Nat
  write : Bool
  who : TransFor
  launch : BitVec 16
  deriving DecidableEq, Repr

/-- A translation: the first byte of the page or run in both spaces, its size, and the leaf's fields. -/
structure Trans where
  va : Nat
  pa : Nat
  log2 : Nat
  r : Bool
  w : Bool
  key : Nat
  deriving DecidableEq, Repr

/-- The answer to a lookup: a translation, a fault of a kind at a level (Table 9.4), or an abort (R283). -/
inductive Answer where
  | page (t : Trans)
  | fault (kind level : Nat)
  | abort
  deriving DecidableEq, Repr

/-- A look-aside entry with its tag. -/
structure TlbEntry where
  ast : Nat
  t : Trans
  deriving DecidableEq, Repr

/-- A walk in progress (R276): the level and DPA of the entry being read, and the read's outcome once it is back. -/
structure Walk where
  ast : Nat
  dva : Nat
  level : Nat
  entry : Nat
  back : Option (Nat × List Byte)
  waiters : List Lookup
  discard : Bool := false
  deriving DecidableEq, Repr

/-- A pending fault (R279). `record`: 0 in its merge interval, 1 waiting for ring space, 2 written. -/
structure PendFault where
  ast : Nat
  dva : Nat
  kind : Nat
  level : Nat
  write : Bool
  waiters : List Lookup
  record : Nat := 0
  order : Nat := 0
  seq : Nat := 0
  deriving DecidableEq, Repr

/-- An access that an invalidation waits for: a porter's request by slot and number, a courier's unit by channel and
number, an inbound transaction. -/
inductive InvalWait where
  | porter (n slot id : Nat)
  | courier (ch id : Nat)
  | oxlux (x k : Nat)
  deriving DecidableEq, Repr

/-- The central translation unit beyond its registers. Arrays are keyed by set, each set in use order. -/
structure Ctu where
  queues : Tab (List Lookup) := []
  small : Tab (List TlbEntry) := []
  medium : Tab (List TlbEntry) := []
  huge : Tab (List TlbEntry) := []
  walks : Tab (Option Walk) := []
  missed : List Lookup := []
  pending : Tab (Option PendFault) := []
  waiting : List (Lookup × Nat × Nat) := []
  order : Nat := 0
  /-- The tag that is being invalidated, and the accesses that were out at the write (R285). -/
  inval : Option (Nat × List InvalWait) := none
  deriving DecidableEq, Repr

/-- A far request at its translation stop (R210): its own number, the answer once there, and whether a fault of it waits
for service (R211). -/
structure StopReq where
  id : Nat
  dva : Nat
  req : MemReq
  ans : Option Answer := none
  stalled : Bool := false
  deriving DecidableEq, Repr

/-- A translation stop. -/
structure Stop where
  next : Nat := 0
  reqs : List StopReq := []
  deriving DecidableEq, Repr

/-! ### Couriers (08) -/

/-- Who pushed a descriptor: the dispatcher for a leg, the steward, or the driver (R242). -/
inductive PushBy where
  | leg (slot leg : Nat)
  | steward
  | driver
  deriving DecidableEq, Repr

/-- A queued descriptor, numbered in the channel's push order. -/
structure Desc where
  words : List W64
  by_ : PushBy
  id : Nat := 0
  deriving DecidableEq, Repr

/-- The part of a unit that one side moves: bytes `off` onward of the unit, at a DVA and, once translated, at a DPA under
a key. -/
structure Piece where
  off : Nat
  n : Nat
  dva : Nat
  dpa : Nat := 0
  key : Nat := 0
  deriving DecidableEq, Repr

/-- A unit of a descriptor that has been commanded (R248, R250): the first source and destination tile that it takes, its
pieces on both sides, the data as it gathers by place, the bytes to be written, how many pieces of each side are still out,
whether the destination side has begun, the tile code that it carries, and the first bus error. -/
structure TileJob where
  k : Nat
  id : Nat
  src : List Piece
  dst : List Piece
  got : Tab (List Byte) := []
  out : List Byte := []
  srcLeft : Nat
  dstLeft : Nat
  wrote : Bool := false
  code : Option Nat := none
  cause : Nat := 0
  deriving DecidableEq, Repr

/-- A channel (R241-R255). The head of `queue` is the running descriptor, and it moves data once `moving` holds. `next` is
the next unit to be commanded, `landed` how many tiles have landed, `hashed` how many a hash read-back has taken. -/
structure Chan where
  queue : List Desc := []
  nextDesc : Nat := 0
  waiting : List Desc := []
  moving : Bool := false
  startSlot : Nat := 0
  next : Nat := 0
  landed : Nat := 0
  shift : Nat := 0
  jobs : List TileJob := []
  ahead : List (Nat × Answer) := []
  asked : List Nat := []
  /-- Tiles that the hash engine has still to read back (R261): the read's own number, the unit, the tile's DPA, and whether
  the read has been sent. -/
  reads : List (Nat × Nat × Nat × Bool) := []
  /-- Slices that a WATCH has counted (R259). -/
  counts : List Nat := []
  /-- The context is killed: no further tile is commanded (R255). -/
  stopping : Bool := false
  /-- The add at ARR_DVA is out, or ended in a bus error (R250). -/
  arrOut : Bool := false
  arrCause : Nat := 0
  /-- 0 not parked; 1 parked by a page fault; 2 by a late translation (R252). -/
  parkKind : Nat := 0
  /-- The last descriptor ended, or was refused, in error (R254). -/
  failed : Bool := false
  /-- The provenance record is written (R262). -/
  record : Bool := false
  /-- The one increment of the whole descriptor has been made (ARR_PER_DESC). -/
  perDone : Bool := false
  /-- The source tile that several destination tiles share (Table 8.4): its number and its bytes. -/
  kept : Option (Nat × List Byte) := none
  deriving DecidableEq, Repr

/-- The target of an increment that is not yet visible (R250). -/
inductive ArrTarget where
  | hostel (h i : Nat)
  | courier (c i : Nat)
  | word (dva : Nat)
  deriving DecidableEq, Repr

/-- A digest context (R131, R132): leaf digests by index, the stream's length once it is set, the root once it closes. -/
structure HashCtx where
  leaves : Tab (BitVec 384) := []
  failed : Bool := false
  closed : Bool := false
  deriving DecidableEq, Repr

/-- The couriers beyond their registers: channels keyed 16 × courier + channel; each increment on its way with its launch. -/
structure Couriers where
  chans : Tab Chan := []
  /-- Increments on their way, by channel. -/
  incs : Tab (List (BitVec 16 × ArrTarget)) := []
  /-- The descriptor that holds a courier's leaf lanes: the courier's channel plus one (R261). -/
  lanes : Tab Nat := []
  nextJob : Nat := 0
  deriving DecidableEq, Repr

/-! ### Oxlux (11) -/

/-- A packet that waits to be sent: its flit payloads, the TAIL's ECAUSE (0 none), the flits sent, and the flit times that
it has been at the head. -/
structure OxPkt where
  payload : List (List Byte)
  err : Nat := 0
  sent : Nat := 0
  waited : Nat := 0
  deriving DecidableEq, Repr

/-- A reliable flit in the retry buffer (R344). -/
structure OxFlit where
  seq : Nat
  vc : Nat
  kind : Nat
  err : Nat
  payload : List Byte
  deriving DecidableEq, Repr

/-- A packet whose HEAD has been accepted and whose TAIL has not (R346). -/
structure OxPart where
  start : Nat
  payload : List (List Byte)
  at_ : Nat
  /-- The sequence numbers of its flits. -/
  seqs : List Nat := []
  deriving DecidableEq, Repr

/-- A packet that has been accepted whole: its payloads and its TAIL's ECAUSE. -/
structure OxRx where
  payload : List (List Byte)
  err : Nat
  /-- The link has failed since: its response is dropped (R347). -/
  drop : Bool := false
  deriving DecidableEq, Repr

/-- A transaction that this port has sent (R350): who waits for it, the router to which the response goes, and the VC1
flits reserved. -/
structure OxOut where
  who : Asker
  back : MeshEnd
  read : Bool
  n : Nat
  vc1 : Nat
  mesh : Bool
  deriving DecidableEq, Repr

/-- An inbound transaction in service (R353): its header, its data, the parts that are not answered, and the first
cause. -/
structure OxIn where
  k : Nat
  hdr : List Byte
  data : List Byte
  left : Nat := 0
  cause : Nat := 0
  dpa : Nat := 0
  /-- The link has failed since: its response is dropped (R347). -/
  drop : Bool := false
  deriving DecidableEq, Repr

/-- An outbound request that waits at the port for a tag: as a packet, and as a transaction. -/
structure OxReq where
  opc : Nat
  cls : Bool
  w : Nat
  off : Nat
  n : Nat
  ty : Nat := 0
  code : Option Nat := none
  red : Nat := 0
  contrib : Nat := 0
  beats : Nat := 0
  data : List Byte := []
  who : Asker
  back : MeshEnd
  mesh : Bool
  deriving DecidableEq, Repr

/-- An Oxlux port beyond its registers. Channels key the tables. -/
structure Oxlux where
  reqs : List OxReq := []
  pkts : Tab (List OxPkt) := []
  seq : Nat := 0
  retry : List OxFlit := []
  resend : Option Nat := none
  nak : Option Nat := none
  ctrl : List (List Byte) := []
  credits : Tab Nat := []
  owe : Tab Nat := []
  tags : Tab OxOut := []
  ackAt : Nat := 0
  expect : Nat := 0
  nakSent : Bool := false
  parts : Tab OxPart := []
  /-- Sequence numbers that were accepted before E went back to a discarded packet's HEAD (R345, R346). -/
  skip : List Nat := []
  rx : Tab (List OxRx) := []
  ins : List OxIn := []
  nextIn : Nat := 0
  bad : Nat := 0
  searching : Bool := false
  cleanAt : Nat := 0
  downAt : Nat := 0
  rate : Nat := 0
  peerMin : Nat := 0
  held : Bool := false
  sent : List (BitVec 2108) := []
  deriving DecidableEq, Repr

/-! ### Launches (14) -/

/-- A leg entry (Table 14.5). -/
structure LegEntry where
  waits : List Nat
  endMile : Nat
  energy : Nat
  duration : Nat
  watchdog : Nat
  timetable : Nat
  blocks : Nat
  groups : Nat
  cluster : Nat
  alloc : Nat
  porters : Nat
  hosOff : Nat
  porOff : Nat
  courOff : Nat
  descs : Nat
  deriving DecidableEq, Repr

/-- Where a leg stands in the current step (R438-R440). -/
inductive LegPhase where
  | unstarted | deferred | admitted | running | ended
  deriving DecidableEq, Repr

/-- A leg in the current step. -/
structure LegRun where
  phase : LegPhase := .unstarted
  startEtc : Nat := 0
  /-- The slot 0 at which the leg started, counted in slots since RUN was first set (R109). -/
  startSlot : Nat := 0
  blocksLeft : Nat := 0
  blocksToPlace : Nat := 0
  portersLeft : Nat := 0
  descsLeft : Nat := 0
  pushed : List Nat := []
  timed : Bool := true
  flags : Nat := 0
  deriving DecidableEq, Repr

/-- A milestone entry (Table 14.6). -/
structure MileEntry where
  id : Nat
  kind : Nat
  step : Bool
  abort : Bool
  expect : Nat
  children : Nat
  parent : Nat
  patience : Nat
  deriving DecidableEq, Repr

/-- A milestone in the current step (R441, R442). -/
structure MileRun where
  count : Nat := 0
  /-- The local part is complete. -/
  complete : Bool := false
  released : Bool := false
  hostRel : Bool := false
  arrived : Nat := 0
  sent : Bool := false
  doneEtc : Nat := 0
  reports : Nat := 0
  deriving DecidableEq, Repr

/-- A stream entry (R433). -/
structure StreamEntry where
  kind : Nat
  ctx : Nat
  len : Nat
  deriving DecidableEq, Repr

/-- A launch slot beyond its registers (R436-R446): its place in the order of GO, the image's DPA and length, what the image
declares, the current step, the digests, and whether the step is closing (R445) or the context is being killed (R446). -/
structure Launch where
  order : Nat := 0
  image : Nat := 0
  len : Nat := 0
  seed : W64 := 0
  legs : List LegEntry := []
  runs : List LegRun := []
  miles : List MileEntry := []
  mileRuns : List MileRun := []
  timetables : List Nat := []
  streams : List StreamEntry := []
  stepMile : Nat := 0
  ckptCtx : Nat := 0
  ckptLen : Nat := 0
  step : W64 := 0
  stepsDone : Nat := 0
  dprog : BitVec 384 := 0
  dckpt : BitVec 384 := 0
  dbatch : BitVec 384 := 0
  closing : Bool := false
  killing : Bool := false
  /-- The steward has acted on the kill (R446). -/
  killSent : Bool := false
  tallyRange : Bool := false
  deriving DecidableEq, Repr

/-- A cross-chip message held for a launch or step to come (R443): the port, whether RELEASE, the milestone, the job tag and
the step. -/
structure HeldMsg where
  port : Nat
  release : Bool
  id : Nat
  job : Nat
  step : Nat
  deriving DecidableEq, Repr

/-- The dispatcher (R439, R443): the active and the staged timetable, as launch identifier and image index, the staged one with
the launch slot and leg that it serves; timetables whose check failed; and held cross-chip messages. -/
structure Disp where
  active : Option (Nat × Nat) := none
  staged : Option (Nat × Nat × Nat × Nat) := none
  failed : List (Nat × Nat) := []
  held : List HeldMsg := []
  deriving DecidableEq, Repr

/-- A milestone arrival on its way to the dispatcher (R441): slot, identifier. -/
structure MileMsg where
  slot : Nat
  id : Nat
  deriving DecidableEq, Repr

/-! ### Guestbook (16) -/

/-- A guestbook entry (Table 16.4). -/
structure GbEntry where
  stamp : Nat
  seq : W32 := 0
  kind : Nat
  cause : Nat
  source : Nat
  launch : BitVec 16 := 0
  flags : Nat := 0
  count : Nat := 1
  detail : Nat := 0
  payload : List Byte := []
  deriving DecidableEq, Repr

/-- The guestbook beyond its registers (R483-R493). -/
structure Guestbook where
  waiting : List GbEntry := []
  ring : Tab GbEntry := []
  retained : List GbEntry := []
  /-- The latest stamp among the entries without PRIOR that have been overwritten (R488). -/
  lost : Option Nat := none
  ueSecond : Nat := 0
  ueCount : Nat := 0
  deriving DecidableEq, Repr

/-- What the PCIe port has sent (R450-R452). -/
inductive PcieOut where
  | msix (vector : Nat)
  | write (addr : Nat) (data : List Byte) (relaxed : Bool)
  | read (tag : Nat) (addr len : Nat)
  | completion (ok : Bool) (data : List Byte)
  | configRetry
  | configData (v : W32)
  deriving DecidableEq, Repr

/-- A BAR2 access whose parts are out (R450): the parts' data, how many are not answered, and the first cause. -/
structure Bar2 where
  id : Nat
  write : Bool
  dpa : Nat
  left : Nat
  cause : Nat := 0
  data : Tab (List Byte) := []
  deriving DecidableEq, Repr

/-- A device-initiated read of the host window that waits for its completion (R451): its tag once it is sent, and the bytes that
have come. -/
structure HostAcc where
  tag : Option Nat := none
  addr : Nat
  n : Nat
  data : List Byte := []
  who : Asker
  deriving DecidableEq, Repr

/-- The PCIe port beyond its registers. -/
structure Pcie where
  msixEnable : Bool := false
  msixFuncMask : Bool := false
  msixTable : Tab W32 := []
  pba : W64 := 0
  config : Tab W32 := []
  sent : List PcieOut := []
  aer : List Nat := []
  bar2 : List Bar2 := []
  /-- The base of the BAR2 window in force, in units of 1 GiB (R450, R499). -/
  window : Nat := 0
  nextTag : Nat := 0
  host : List HostAcc := []
  deriving DecidableEq, Repr

/-! ### Power and heat (13) -/

/-- A thermal zone beyond its registers (R398-R402, R414-R417): consecutive passing self-checks of its broken die sensors and
good readings of its external sensors; each stack's last readout and how often it has come in a row; consecutive samples below
THR_TRIP − 5 °C; its last fast samples, newest first; and, for a deferral, its entry and the cross-chip milestones that were
pending (slot, identifier). -/
structure Zone where
  dieGood : Tab Nat := []
  extGood : Tab Nat := []
  extSame : Tab (Nat × Nat) := []
  below : Nat := 0
  history : List Int := []
  deferAt : Nat := 0
  deferMiles : List (Nat × Nat) := []
  deriving DecidableEq, Repr

/-- Power delivery beyond its registers (R394, R407, R420): the rails that are enabled, by index of Table 13.2; the throttle level
of each upper site's current limit; since when the limit has held without a break; and the pins power-good and THERM_ALARM_N. -/
structure Power where
  good : Bool := false
  enabled : Nat := 0
  limLevel : Tab Nat := []
  limitSince : Tab Nat := []
  thermAlarm : Bool := false
  zones : Tab Zone := []
  deriving DecidableEq, Repr

/-! ### Bring-up and security (15) -/

/-- The fuse map (Table 15.3): what a die's fuses hold, blown at manufacture or since. A mark of 1 is a bad unit; sites 0–15 are HBM
PHYs and 16–31 LPDDR PHYs. `rows` and `columns` are the spares switched in at manufacture, by 64 × slice + sub-array; `railMin` and
`railMax` the limits of the adaptive rails in mV. Floors are by container type. -/
structure Fuses where
  serial : W64 := 0
  part : BitVec 16 := 0
  stepping : BitVec 8 := 0
  badSlices : BitVec 96 := 0
  badHostels : BitVec 8 := 0
  badPorters : BitVec 4096 := 0
  badCouriers : BitVec 32 := 0
  badSeam : BitVec 64 := 0
  badSites : BitVec 32 := 0
  badOxlux : BitVec 16 := 0
  badUppers : BitVec 4 := 0
  rows : Tab Nat := []
  columns : Tab Nat := []
  gens : W64 := 0
  railMin : Tab Nat := []
  railMax : Tab Nat := []
  ecSigners : List (BitVec 384) := []
  hssSigners : List (BitVec 384) := []
  revoked : BitVec 4 := 0
  floors : Tab Nat := []
  field : Bool := false
  debugged : Bool := false
  hssBlocks : BitVec 1024 := 0
  deriving DecidableEq, Repr

/-- A new defect (Table 15.4): family and index of Table 16.6, and the reason. -/
structure Defect where
  family : Nat
  index : Nat
  reason : Nat
  deriving DecidableEq, Repr

/-- Bring-up beyond its registers (R457-R462): whether the fuses have been read and stage 4 runs, whether ready has been declared,
which engines have reported, and the outcomes; `record` is the floor-plan record of Table 15.4, by byte. -/
structure Boot where
  training : Bool := false
  ready : Bool := false
  mapBad : Bool := false
  sram : Bool := false
  logic : Bool := false
  tests : Option Bool := none
  pcie : Bool := false
  sites : BitVec 32 := 0
  ctuOk : Bool := true
  xrOk : Bool := true
  rereads : Nat := 0
  defects : List Defect := []
  record : Tab Byte := []
  deriving DecidableEq, Repr

/-- What a licence enables (Table 15.8). -/
structure Licence where
  hbm : Nat := 8
  lpddr : Nat := 0
  oxlux : Nat := 8
  hostels : Nat := 4
  mx : Bool := false
  tally : Bool := false
  deriving DecidableEq, Repr

/-- The strongbox beyond its registers (R464-R473): the submission that it checks, the licence and the digests of the containers that
have verified, the porter service firmware that it holds, the result of the last licence that failed, whether layer 1 is derived,
whether a debug token has zeroed the secrets, and the debug scope. -/
structure Strongbox where
  copy : List Byte := []
  copyBad : Bool := false
  licence : Option Licence := none
  licenceD : BitVec 384 := 0
  licenceResult : Nat := 0xFF
  fwD : BitVec 384 := 0
  fwSvn : Nat := 0
  porterD : BitVec 384 := 0
  porterFw : Option (List Byte) := none
  layer1 : Bool := false
  zeroed : Bool := false
  scope : Nat := 0
  deriving DecidableEq, Repr

/-- A compute-part reset or a hard repair that runs (R467, R475): the rows to be repaired, by site and offset. -/
structure Service where
  repair : List (Nat × Nat) := []
  deriving DecidableEq, Repr

/-- The state of the block. -/
structure State where
  /-- Commands that wait, first in first out. -/
  pending : List Instr
  /-- The model's own counter behind the free values (assumption 2). -/
  free : Nat
  /-- Control and status registers by BAR0 offset. -/
  regs : Tab W64
  /-- Memory by DPA (R30). -/
  mem : List Host.Cell
  /-- Protected words with a stored error, by DPA / 8: 1 correctable, 2 uncorrectable. -/
  wordErr : Tab Nat
  tiles : Tab Tile
  slices : Tab Slice
  hosGroups : Tab Group
  hosBlocks : Tab Block
  hosCtrs : Tab W32
  hosStore : Tab W64
  hosArray : Tab (List ArrayOp)
  /-- West 0, East 1. -/
  halves : Tab HalfX
  /-- Upper sites U0–U3. -/
  uppers : Tab Upper
  mesh : Mesh
  porters : Tab Porter
  steward : Steward
  /-- Sites 0–15 HBM, 16–31 LPDDR. -/
  sites : Tab Site
  stops : Tab Stop
  ctu : Ctu
  couriers : Couriers
  /-- Oxlux ports X0–X15. -/
  ox : Tab Oxlux
  /-- Digest contexts by 16 × launch slot + context (R261). -/
  hashes : Tab HashCtx
  launches : Tab Launch
  nextLaunch : BitVec 16
  goOrder : Nat
  mileMsgs : List MileMsg
  disp : Disp
  /-- Gated clock domains (R25, R26), by the numbers of `domainNum`: 0 off, 1 waking, 2 on. -/
  clocks : Tab Nat
  /-- The digest of the last checkpoint stream that closed (R133). -/
  lastCkpt : BitVec 384
  guestbook : Guestbook
  pcie : Pcie
  power : Power
  fuses : Fuses
  boot : Boot
  sbx : Strongbox
  service : Service
  /-- The high word of ETC.VALUE that a 32-bit read of the low word has latched for the next read at offset + 4 (R454). -/
  etcLatch : Option W32
  /-- The tick of a guestbook search that runs (R486). -/
  finding : Option Nat
  /-- Steward packets (bytes 64–127) waiting to be sent on VC3, by Oxlux port (R358, R442, R493). -/
  stewardTx : Tab (List (List Byte))
  deriving DecidableEq, Repr

/-- The block right after reset. -/
def State.reset : State where
  pending := []
  free := 0
  regs := []
  mem := []
  wordErr := []
  tiles := []
  slices := []
  hosGroups := []
  hosBlocks := []
  hosCtrs := []
  hosStore := []
  hosArray := []
  halves := []
  uppers := []
  mesh := {}
  porters := []
  steward := {}
  sites := []
  stops := []
  ctu := {}
  couriers := {}
  ox := []
  hashes := []
  launches := []
  nextLaunch := 1
  goOrder := 0
  mileMsgs := []
  disp := {}
  clocks := []
  lastCkpt := 0
  guestbook := {}
  pcie := {}
  power := {}
  fuses := {}
  boot := {}
  sbx := {}
  service := {}
  etcLatch := none
  finding := none
  stewardTx := []

end Sys2Proof.Machine
end

