-- ==== Sys2Proof/Machine/Ops.lean ====
section
/-!
DEFINITION. Sys2Proof/Machine/Ops.lean: the named operations that every meaning is built of: registers, memory, the
address map, events and interrupts, health, and the start of a context kill.
-/

namespace Sys2Proof.Machine

/-- The outcome of a command. -/
abbrev Res := Host.Outcome State Fault Refusal

/-! ### Registers -/

/-- A register's value: what is listed, else its reset value. -/
def State.reg (s : State) (r : Nat) : W64 :=
  match tabFind s.regs r with
  | some v => v
  | none => resetVal r

/-- Set a register, whole. -/
def State.setReg (s : State) (r : Nat) (v : W64) : State :=
  { s with regs := tabSet (resetVal r) s.regs r v }

/-- A field of a register. -/
def State.fld (s : State) (r : Nat) (f : Fld) : Nat := fldGet (s.reg r) f

/-- Set a field of a register. -/
def State.setFld (s : State) (r : Nat) (f : Fld) (v : Nat) : State := s.setReg r (fldPut (s.reg r) f v)

/-- A one-bit field. -/
def State.flag (s : State) (r : Nat) (f : Fld) : Bool := s.fld r f != 0

/-- Set a one-bit field. -/
def State.setFlag (s : State) (r : Nat) (f : Fld) (b : Bool) : State := s.setFld r f (b2n b)

/-- Add to a 64-bit counter that wraps. -/
def State.bump (s : State) (r : Nat) (k : Nat) : State := s.setReg r (s.reg r + BitVec.ofNat 64 k)

/-- Add to a field, saturating. -/
def State.satFld (s : State) (r : Nat) (f : Fld) (k : Nat) : State :=
  s.setFld r f (satInc (fldWidth f) (s.fld r f) k)

/-- Nanoseconds since power-good (R454). -/
def State.etc (s : State) : Nat := (s.reg ETC.VALUE).toNat

/-- The next free value, and the counter advanced. -/
def State.takeFree (s : State) : Nat × State := (s.free, { s with free := s.free + 1 })

/-! ### Memory -/

/-- One byte of memory. -/
def State.byte (s : State) (a : Nat) : Byte := tabGet 0 s.mem a

/-- `n` bytes from `a`. -/
def State.bytes (s : State) (a n : Nat) : List Byte := tabRange 0 s.mem a n

/-- Write bytes from `a` upward. -/
def State.putBytes (s : State) (a : Nat) (l : List Byte) : State := { s with mem := tabWrite 0 s.mem a l }

/-- A little-endian number of `n` bytes. -/
def State.word (s : State) (a n : Nat) : Nat := leVal (s.bytes a n)

/-- Write the bytes that `en` enables. -/
def maskBytes : List Byte → List Byte → List Bool → List Byte
  | o :: os, n :: ns, e :: es => (if e then n else o) :: maskBytes os ns es
  | os, _, _ => os

/-- Clear `n` bytes from `a` to zero: what was listed there is taken out. -/
def State.clearBytes (s : State) (a n : Nat) : State :=
  { s with mem := s.mem.filter fun c => !(decide (a ≤ c.1) && decide (c.1 < a + n)) }

/-! ### The device physical address map (R30) -/

/-- What a DPA reaches. -/
inductive Target where
  | buffer
  | csr (off : Nat)
  | hostelStore (h : Nat)
  | porterMem (n : Nat)
  | site (i off : Nat)
  | hostWindow (off : Nat)
  | remote (w off : Nat)
  | reserved
  deriving DecidableEq, Repr

/-- Table 1.10. Sites 0–15 are HBM, 16–31 LPDDR. -/
def targetOf (dpa : Nat) : Target :=
  if dpa < 0x30000000 then .buffer
  else if dpa < 0x40000000 then .reserved
  else if dpa < 0x44000000 then .csr (dpa - 0x40000000)
  else if dpa < 0x80000000 then .reserved
  else if dpa < 0x88000000 then .hostelStore ((dpa - 0x80000000) / 0x1000000)
  else if dpa < 0x90000000 then .reserved
  else if dpa < 0xA0000000 then .porterMem ((dpa - 0x90000000) / 0x10000)
  else if dpa < 0x10000000000 then .reserved
  else if dpa < 0x20000000000 then .site ((dpa - 0x10000000000) / 0x1000000000) (dpa % 0x1000000000)
  else if dpa < 0x40000000000 then .site (16 + (dpa - 0x20000000000) / 0x2000000000) (dpa % 0x2000000000)
  else if dpa < 0x80000000000 then .reserved
  else if dpa < 0x100000000000 then .hostWindow (dpa - 0x80000000000)
  else if dpa < 0x500000000000 then .remote ((dpa - 0x100000000000) / 0x10000000000) (dpa % 0x10000000000)
  else .reserved

/-- The first DPA of a memory site. -/
def siteBase (i : Nat) : Nat := if i < 16 then 0x10000000000 + i * 0x1000000000 else 0x20000000000 + (i - 16) * 0x2000000000
/-- The first DPA of a hostel's store. -/
def storeBase (h : Nat) : Nat := 0x80000000 + h * 0x1000000
/-- The first DPA of a porter's local memory. -/
def porterBase (n : Nat) : Nat := 0x90000000 + n * 0x10000

/-- The half of a unit: slices 0–47, sites 0–7 and 16–23, and so on lie in West (Table 0.5). -/
def sliceEast (sl : Nat) : Bool := decide (48 ≤ sl)
def siteEast (i : Nat) : Bool := decide (8 ≤ i % 16)

/-! ### Causes (Table 16.2) -/

def cUNCORRECTABLE : Nat := 0x01
def cTILE_CODE : Nat := 0x02
def cWRITE_CODE : Nat := 0x03
def cPOISONED : Nat := 0x04
def cRMW_FULL : Nat := 0x05
def cRETIRED : Nat := 0x06
def cDISCARD_ALIGN : Nat := 0x07
def cDECODE : Nat := 0x08
def cUNREACHABLE : Nat := 0x09
def cFENCED : Nat := 0x0A
def cABSENT : Nat := 0x0B
def cREDUCE_DESC : Nat := 0x0C
def cREDUCE_ORDER : Nat := 0x0D
def cREDUCE_FULL : Nat := 0x0E
def cNO_SLOT : Nat := 0x0F
def cNO_ADDER : Nat := 0x10
def cFOREIGN : Nat := 0x11
def cPORT_MISMATCH : Nat := 0x12
def cPERMISSION : Nat := 0x13
def cHOST_ABORT : Nat := 0x14
def cFAULT_ABORTED : Nat := 0x15
def cNOT_PINNED : Nat := 0x16
def cWINDOW_PEER : Nat := 0x17
def cWINDOW_INVALID : Nat := 0x18
def cWINDOW_LIMIT : Nat := 0x19
def cWINDOW_PERM : Nat := 0x1A
def cKEY_MISMATCH : Nat := 0x1B
def cSITE_LATE : Nat := 0x1C
def cKEY_INVALID : Nat := 0x1D
def cLINK_DOWN : Nat := 0x1E
def cPROTOCOL : Nat := 0x1F
def cAPERTURE : Nat := 0x20
def cUP_OVERRUN : Nat := 0x21
def cUP_CRC : Nat := 0x22
def cADD_ALIGN : Nat := 0x23
def cBUS_ERROR : Nat := 0x40
def cILLEGAL : Nat := 0x41
def cSEGMENT : Nat := 0x42
def cMISALIGNED : Nat := 0x43
def cLENGTH : Nat := 0x44
def cDIVERGENT_MATRIX : Nat := 0x45
def cDIVERGENT_BARRIER : Nat := 0x46
def cDIVERGENT_BRANCH : Nat := 0x47
def cRECONVERGE_OVERFLOW : Nat := 0x48
def cLOCK_OWNER : Nat := 0x49
def cTALLY_WINDOW : Nat := 0x4A
def cLANE_COUNT : Nat := 0x4B
def cSTREAM_OVERLAP : Nat := 0x4C
def cUNLICENSED : Nat := 0x4D
def cCOURIER_DESC : Nat := 0x4E
def cUNIT_FENCED : Nat := 0x4F
def cLEG_WATCHDOG : Nat := 0x50
def cMILESTONE_PATIENCE : Nat := 0x51
def cSTEP_INCOMPLETE : Nat := 0x52
def cLAUNCH_ABORTED : Nat := 0x53
def cPARTIAL_RESET : Nat := 0x54
def cDEBUG_UNLOCK : Nat := 0x55
def cTHERMAL_SHUTDOWN : Nat := 0x56
def cPLL_LOCK : Nat := 0x57
def cDEVICE_FAILED : Nat := 0x58
def cIMAGE_FORMAT : Nat := 0x80
def cUNIT_ABSENT : Nat := 0x81
def cCLUSTER : Nat := 0x82
def cPORTER_REFUSED : Nat := 0x83

/-! ### Entry kinds (Table 16.5) and sources (Table 16.6) -/

def kBUS_ERROR : Nat := 0x01
def kCORRECTED : Nat := 0x02
def kKILL : Nat := 0x03
def kLAUNCH : Nat := 0x04
def kLEG_END : Nat := 0x05
def kPROVENANCE : Nat := 0x06
def kREPAIR : Nat := 0x07
def kRETIRE : Nat := 0x08
def kLINK : Nat := 0x09
def kTHERMAL : Nat := 0x0A
def kPEER_NOTICE : Nat := 0x0B
def kMILESTONE : Nat := 0x0C
def kSUBMIT : Nat := 0x0D
def kBOOT : Nat := 0x0E
def kHEALTH : Nat := 0x0F
def kSHUTDOWN : Nat := 0x10
def kUNIT : Nat := 0x11
def kL2 : Nat := 0x12
def kREDUCE_CLOSE : Nat := 0x13

/-- SOURCE: the family in bits 15:12 and the instance in bits 11:0. -/
def srcOf (family index : Nat) : Nat := family % 16 * 4096 + index % 4096
def srcSite (i : Nat) : Nat := if i < 16 then srcOf 7 i else srcOf 8 (i - 16)

/-! ### The guestbook: events on their way (R484, R487) -/

/-- Events of one source and cause in one millisecond share an entry (R487). -/
def gbMerges (k c src t : Nat) (e : GbEntry) : Bool :=
  e.kind == k && e.cause == c && e.source == src && e.stamp / 1000000 == t / 1000000

/-- Add one to the COUNT of the first entry that meets `p`, if one does. -/
def gbBump (p : GbEntry → Bool) : List GbEntry → Option (List GbEntry)
  | [] => none
  | e :: t => if p e then some ({ e with count := e.count + 1 } :: t) else (gbBump p t).map (e :: ·)

/-- The same on the committed ring. -/
def ringBump (p : GbEntry → Bool) : Tab GbEntry → Option (Tab GbEntry)
  | [] => none
  | (k, e) :: t => if p e then some ((k, { e with count := e.count + 1 }) :: t) else (ringBump p t).map ((k, e) :: ·)

/-- An entry merges where `p` says so, else waits for its commit. -/
def State.gbMerge (s : State) (p : GbEntry → Bool) (e : GbEntry) : State :=
  let g := s.guestbook
  match gbBump p g.waiting with
  | some l => { s with guestbook := { g with waiting := l } }
  | none => match ringBump p g.ring with
    | some r => { s with guestbook := { g with ring := r } }
    | none => { s with guestbook := { g with waiting := g.waiting ++ [e] } }

/-- Log an event of any kind but KILL, stamped now. -/
def State.event (s : State) (kind cause source : Nat) (launch : BitVec 16) (detail : Nat) (payload : List Byte) : State :=
  let e : GbEntry := { stamp := s.etc, kind := kind, cause := cause, source := source, launch := launch,
                       detail := detail % 2 ^ 64, payload := payload }
  if kind = kBUS_ERROR || kind = kCORRECTED then s.gbMerge (gbMerges kind cause source s.etc) e
  else { s with guestbook := { s.guestbook with waiting := s.guestbook.waiting ++ [e] } }

/-- Log a bus error of a unit (R478, R487). -/
def State.busError (s : State) (cause source : Nat) (launch : BitVec 16) (addr : Nat) : State :=
  s.event kBUS_ERROR cause source launch addr []

/-! ### Interrupts (R452, R490) -/

/-- A double word of the MSI-X table; a vector's control word resets to masked (PRESUMED, assumption 6). -/
def State.msixWord (s : State) (i : Nat) : W32 := tabGet (if i % 4 = 3 then 1 else 0) s.pcie.msixTable i

/-- One message on a vector: sent when MSI-X is enabled and the vector unmasked, held in the pending bit while it is
masked (R452). -/
def State.msix (s : State) (vec : Nat) : State :=
  let p := s.pcie
  if !p.msixEnable then s
  else if p.msixFuncMask || (s.msixWord (4 * vec + 3)).getLsbD 0 then
    { s with pcie := { p with pba := p.pba ||| BitVec.ofNat 64 (2 ^ (vec % 64)) } }
  else if s.flag PCIE.STATUS PCIE.STATUS_BME then { s with pcie := { p with sent := p.sent ++ [.msix vec] } }
  else s

/-- The vector of guestbook interrupt cause k. -/
def State.gbVector (s : State) (k : Nat) : Nat :=
  if k < 8 then bitsOf (s.reg GB.IRQ_VECTOR_LO).toNat (8 * k + 5) (8 * k)
  else bitsOf (s.reg GB.IRQ_VECTOR_HI).toNat (8 * (k - 8) + 5) (8 * (k - 8))

/-- Raise interrupt cause k of Table 16.7. -/
def State.raise (s : State) (k : Nat) : State :=
  let s := s.setReg GB.IRQ_STATUS (s.reg GB.IRQ_STATUS ||| BitVec.ofNat 64 (2 ^ k))
  if bitOf (s.reg GB.IRQ_ENABLE).toNat k then s.msix (s.gbVector k) else s

def iKILL : Nat := 0
def iRETIRE : Nat := 1
def iHEALTH : Nat := 2
def iLINK_DOWN : Nat := 3
def iUP_FAULT : Nat := 4
def iTHERMAL : Nat := 5
def iPEER_NOTICE : Nat := 6
def iLPDDR_HOT : Nat := 7
def iMILESTONE : Nat := 8
def iSUBMIT : Nat := 9
def iUNCORRECTABLE : Nat := 10
def iPCIE_ACCESS : Nat := 11

/-! ### Notices and health (R491-R493) -/

/-- A steward message put in a port's VC3 queue. -/
def State.stewardSend (s : State) (x : Nat) (msg : List Byte) : State :=
  { s with stewardTx := tabSet [] s.stewardTx x (tabGet [] s.stewardTx x ++ [padTo 64 msg]) }

/-- OX.TRAIN.STATE of a port in service (Table 11.3: 6 ACTIVE). -/
def State.oxActive (s : State) (x : Nat) : Bool := s.fld (OX.TRAIN x) OX.TRAIN_STATE == 6

/-- One message to every port in ACTIVE. -/
def State.stewardSendAll (s : State) (msg : List Byte) : State :=
  (List.range 16).foldl (fun s x => if s.oxActive x then s.stewardSend x msg else s) s

/-- The health notice of R493. -/
def State.healthNotice (s : State) : List Byte :=
  let st := s.fld GB.HEALTH GB.HEALTH_STATE
  [0x21, BitVec.ofNat 8 st] ++ leBytes 2 (bitsOf (s.reg GB.HEALTH).toNat 23 8) ++ leBytes 2 0 ++
    leBytes 2 (s.fld GLB.NODE_ID GLB.NODE_ID_NODE) ++ leBytes 8 s.etc

/-- Health changes state: the entry, the interrupt and the notice. -/
def State.healthChanged (s : State) : State :=
  let st := s.fld GB.HEALTH GB.HEALTH_STATE
  let s := s.setFld GLB.STATUS GLB.STATUS_HEALTH st
  let s := (s.event kHEALTH 0 (srcOf 0 0) 0 (s.reg GB.HEALTH).toNat []).raise iHEALTH
  if s.flag PT.CTRL PT.CTRL_NOTICE_ENABLE then s.stewardSendAll s.healthNotice else s

/-- A degraded reason arises (R491): its bit, and the state from HEALTHY to DEGRADED. -/
def State.degrade (s : State) (bit : Nat) : State :=
  let s := s.setReg GB.HEALTH (s.reg GB.HEALTH ||| BitVec.ofNat 64 (2 ^ bit))
  if s.fld GB.HEALTH GB.HEALTH_STATE = 0 then (s.setFld GB.HEALTH GB.HEALTH_STATE 1).healthChanged else s

/-- Uncorrectable words found count toward the second they fall in (Table 16.8 bit 10). -/
def State.countUe (s : State) (n : Nat) : State :=
  let sec := s.etc / 1000000000
  let g := s.guestbook
  let c := (if g.ueSecond = sec then g.ueCount else 0) + n
  let s := { s with guestbook := { g with ueSecond := sec, ueCount := c } }
  let lim := max 1 (s.fld GB.UE_LIMIT GB.UE_LIMIT_COUNT)
  if c > lim then s.degrade 10 else s

/-! ### Launches and kills (R177, R446, R482) -/

/-- A launch slot's state (Table 14.12). -/
def State.slotState (s : State) (k : Nat) : Nat := s.fld (LNCH.STATUS k) LNCH.STATUS_STATE
def State.launch (s : State) (k : Nat) : Launch := tabGet {} s.launches k
def State.setLaunch (s : State) (k : Nat) (l : Launch) : State := { s with launches := tabSet {} s.launches k l }
/-- The identifier of the launch in a slot. -/
def State.launchId (s : State) (k : Nat) : BitVec 16 := BitVec.ofNat 16 (s.fld (LNCH.STATUS k) LNCH.STATUS_LAUNCH)

/-- The slot in which a launch is being checked or runs. -/
def State.slotOf (s : State) (l : BitVec 16) : Option Nat :=
  (List.range 16).find? fun k => (s.slotState k == 1 || s.slotState k == 2) && s.launchId k == l

/-- Whether a launch's context is being killed. -/
def State.killing (s : State) (l : BitVec 16) : Bool :=
  match s.slotOf l with
  | some k => (s.launch k).killing
  | none => false

/-- The order of the guestbook (R485). -/
def gbBefore (a b : GbEntry) : Bool :=
  decide (a.stamp < b.stamp) || (a.stamp == b.stamp && (decide (a.source < b.source) ||
    (a.source == b.source && decide (a.kind < b.kind))))

/-- A further fault of a context joins its KILL entry; the earliest in guestbook order gives the entry's fields
(R482). -/
def killMerge (e : GbEntry) : List GbEntry → Option (List GbEntry)
  | [] => none
  | o :: t =>
    if o.kind == kKILL && o.launch == e.launch then
      some ((if gbBefore e o then { e with count := o.count + 1 } else { o with count := o.count + 1 }) :: t)
    else (killMerge e t).map (o :: ·)

/-- The KILL entry of a context's fault: new, or merged while the context is being killed. -/
def State.killEvent (s : State) (e : GbEntry) (merging : Bool) : State :=
  let g := s.guestbook
  if merging then
    match killMerge e g.waiting with
    | some l => { s with guestbook := { g with waiting := l } }
    | none => s.gbMerge (fun o => o.kind == kKILL && o.launch == e.launch && o.flags == 0) e
  else { s with guestbook := { g with waiting := g.waiting ++ [e] } }

/-- The kill cause that a context's KILL entry now carries. -/
def State.killCause (s : State) (l : BitVec 16) (d : Nat) : Nat :=
  match s.guestbook.waiting.find? fun e => e.kind == kKILL && e.launch == l with
  | some e => e.cause
  | none => d

/-- The hostel blocks of a context stop: its groups issue nothing further and its queued array instructions are
dropped (Table 5.11, cycles 1 to 8). -/
def State.stopHostels (s : State) (l : BitVec 16) : State :=
  { s with
    hosGroups := tabMap {} (fun _ g => if g.used && g.launch == l then { g with stopped := true } else g) s.hosGroups,
    hosArray := tabMap [] (fun _ q => q.filter fun o => o.launch != l) s.hosArray }

/-- A fault kills a context (R177, R446, R482): its KILL entry, the interrupt, the mark on its launch, and its hostel
work stopped. A context that is not known is not killed. `bus` is the underlying bus-error cause. -/
def State.startKill (s : State) (l : BitVec 16) (cause source detail bus group lane : Nat) : State :=
  match s.slotOf l with
  | none => s
  | some k =>
    let la := s.launch k
    let e : GbEntry := { stamp := s.etc, kind := kKILL, cause := cause, source := source, launch := l,
                         detail := detail % 2 ^ 64,
                         payload := [BitVec.ofNat 8 bus, BitVec.ofNat 8 group, BitVec.ofNat 8 lane] }
    let s := s.killEvent e la.killing
    let s := if la.killing then s else s.raise iKILL
    let s := s.setFld (LNCH.STATUS k) LNCH.STATUS_CAUSE (if la.killing then s.killCause l (s.fld (LNCH.STATUS k) LNCH.STATUS_CAUSE) else cause)
    (s.setLaunch k { la with killing := true }).stopHostels l

/-! ### Milestones and legs, as their ends are counted (R440, R441) -/

/-- A leg's record changed. -/
def State.setRun (s : State) (k leg : Nat) (f : LegRun → LegRun) : State :=
  let la := s.launch k
  s.setLaunch k { la with runs := listUpd f la.runs leg }

def State.run (s : State) (k leg : Nat) : LegRun := (s.launch k).runs.getD leg {}

/-- An arrival on its way to the dispatcher. -/
def State.arrive (s : State) (k id : Nat) : State := { s with mileMsgs := s.mileMsgs ++ [⟨k, id⟩] }

/-- A running leg whose blocks, porters and descriptors have all ended ends: its record is written and END_MILE takes
one arrival (R440, R114). -/
def State.legCheck (s : State) (k leg : Nat) : State :=
  let r := s.run k leg
  let la := s.launch k
  if r.phase = .running ∧ r.blocksLeft = 0 ∧ r.portersLeft = 0 ∧ r.descsLeft = 0 then
    let s := s.setRun k leg fun r => { r with phase := .ended }
    let e : GbEntry := {
      stamp := s.etc, kind := kLEG_END, cause := 0, source := srcOf 11 0, launch := s.launchId k,
      flags := b2n r.timed, detail := r.startEtc,
      payload := leBytes 2 k ++ leBytes 2 leg ++ leBytes 4 0 ++ leBytes 8 s.etc ++ leBytes 8 la.step.toNat }
    let s := { s with guestbook := { s.guestbook with waiting := s.guestbook.waiting ++ [e] } }
    -- The tally-range flag of its blocks enters the step's flags (R171).
    let s := if bitOf r.flags 5 then s.setLaunch k { s.launch k with tallyRange := true } else s
    match la.legs[leg]? with
    | some le => if le.endMile = 0xFFFF then s else s.arrive k le.endMile
    | none => s
  else s

/-- The running legs of a launch lose their exactness (R114). -/
def State.inexact (s : State) (k : Nat) : State :=
  let la := s.launch k
  s.setLaunch k { la with runs := la.runs.map fun r => if r.phase = .running then { r with timed := false } else r }

/-- An event of Table 4.1 that touches every running leg. -/
def State.inexactAll (s : State) : State := (List.range 16).foldl (fun s k => if s.slotState k = 2 then s.inexact k else s) s

/-- Launch `l` loses exactness. -/
def State.inexactOf (s : State) (l : BitVec 16) : State :=
  match s.slotOf l with
  | some k => s.inexact k
  | none => s

/-! ### Presence and licence (R7, R32, R461, R468) -/

/-- Whether the fuse map marks a unit bad, by family and index of Table 16.6. -/
def Fuses.bad (f : Fuses) (family i : Nat) : Bool :=
  match family with
  | 1 => f.badSlices.getLsbD i
  | 3 => f.badPorters.getLsbD i
  | 4 => f.badHostels.getLsbD i
  | 5 => f.badCouriers.getLsbD i
  | 7 => f.badSites.getLsbD i
  | 8 => f.badSites.getLsbD (16 + i)
  | 9 => f.badOxlux.getLsbD i
  | 10 => f.badUppers.getLsbD i
  | 15 => f.badSeam.getLsbD i
  | _ => false

/-- Whether a unit is bad: fused bad, or found so in stage 4 (R461). -/
def State.unitBad (s : State) (family i : Nat) : Bool :=
  s.fuses.bad family i || s.boot.defects.any fun d => d.family == family && d.index == i

/-- Whether a unit is in the floor plan, whether or not it is enabled (R7, R462). -/
def State.planned (s : State) (family i : Nat) : Bool := s.boot.ready && !s.boot.mapBad && !s.unitBad family i

def State.sliceHere (s : State) (sl : Nat) : Bool := s.flag (SLICE.STATUS sl) SLICE.STATUS_PRESENT
def State.hostelEnabled (s : State) (h : Nat) : Bool := bitOf (s.fld BRG.ENABLED BRG.ENABLED_HOSTELS) h
def State.hostelUp (s : State) (h : Nat) : Bool :=
  s.flag (HOS.STATUS h) HOS.STATUS_PRESENT && s.flag (HOS.STATUS h) HOS.STATUS_POWERED && s.hostelEnabled h
def State.siteEnabled (s : State) (i : Nat) : Bool :=
  if i < 16 then bitOf (s.fld BRG.ENABLED BRG.ENABLED_HBM) i else bitOf (s.fld BRG.ENABLED BRG.ENABLED_LPDDR) (i - 16)
def State.oxEnabled (s : State) (x : Nat) : Bool := bitOf (s.fld BRG.ENABLED BRG.ENABLED_OXLUX) x
def State.porterUp (s : State) (n : Nat) : Bool :=
  s.flag (POR.STATUS n) POR.STATUS_PRESENT && s.flag (POR.STATUS n) POR.STATUS_POWERED
/-- Populated bytes of a site (R31). -/
def State.siteBytes (s : State) (i : Nat) : Nat := s.fld (MEM.CAPACITY i) MEM.CAPACITY_MIB * 2 ^ 20

end Sys2Proof.Machine
end

