-- ==== Sys2Proof/Machine/Buffer.lean ====
section
/-!
DEFINITION. Sys2Proof/Machine/Buffer.lean: the shared buffer: from address to slice (R36), the tile code (R42, R43),
word protection (R38-R41), reads and writes of a tile (R44-R47, R50-R53), discards (R48, R55) and poison (R56, R57).
-/

namespace Sys2Proof.Machine

/-! ### From address to slice -/

/-- The five-bit fold of a local tile index. -/
def foldQ (q : Nat) : Nat := Nat.xor (Nat.xor (q % 32) (q / 32 % 32)) (q / 1024 % 2)

/-- The slice and local tile index of a tile (R36). -/
def sliceOf (t : Nat) : Nat × Nat :=
  let q := t / 96
  let r := t % 96
  (32 * (r / 32) + Nat.xor (r % 32) (foldQ q), q)

/-- The tile at a local index of a slice (R37). -/
def tileAt (sl q : Nat) : Nat := 96 * q + 32 * (sl / 32) + Nat.xor (sl % 32) (foldQ q)

/-! ### The tile code -/

/-- One bit of the reflected CRC-32C (R42). -/
def crcBit (c : Nat) : Nat := if c % 2 = 1 then Nat.xor (c / 2) 0x82F63B78 else c / 2

/-- One byte. -/
def crcByte (c : Nat) (b : Byte) : Nat :=
  crcBit (crcBit (crcBit (crcBit (crcBit (crcBit (crcBit (crcBit (Nat.xor c b.toNat))))))))

/-- The code of bytes in ascending address order, from a running value. -/
def crcBytes (c : Nat) (l : List Byte) : Nat := l.foldl crcByte c

/-- The code after `n` zero bytes. -/
def crcZeros : Nat → Nat → Nat
  | 0, c => c
  | n + 1, c => crcZeros n (crcByte c 0)

/-- The code of a difference pattern that is zero but for `d` at offset `o` of a tile (R43). -/
def codeDiff (o : Nat) (d : List Byte) : Nat := crcZeros (4096 - o - d.length) (crcBytes 0 d)

/-! ### Tiles and slices -/

def State.tile (s : State) (t : Nat) : Tile := tabGet {} s.tiles t
def State.setTile (s : State) (t : Nat) (v : Tile) : State := { s with tiles := tabSet {} s.tiles t v }
def State.slice (s : State) (sl : Nat) : Slice := tabGet {} s.slices sl
def State.setSlice (s : State) (sl : Nat) (v : Slice) : State := { s with slices := tabSet {} s.slices sl v }

/-- Whether the row of a local tile is retired (R61). -/
def State.tileRetired (s : State) (sl q : Nat) : Bool :=
  bitOf (s.reg (SLICE.RETIRED_ROWS sl (q / 2 / 64))).toNat (q / 2 % 64)

/-- Whether a tile's slice is removed or its row retired (R61). -/
def State.tileGone (s : State) (t : Nat) : Bool :=
  let (sl, q) := sliceOf t
  !s.sliceHere sl || s.tileRetired sl q

/-- Whether the sector of a byte is valid (R47). -/
def State.sectorValid (s : State) (a : Nat) : Bool := (s.tile (a / 4096)).valid.getLsbD (a % 4096 / 64)

/-- A merged word that waits in the read-modify-write buffer (R52). -/
def State.rmwWord (s : State) (wd : Nat) : Option W64 :=
  (((s.slice (sliceOf (wd / 512)).1).rmw.find? fun e => e.1 == wd).map (·.2))

/-- A byte of the buffer as a read returns it: zero in an invalid sector, the buffered word where one waits. -/
def State.bufByte (s : State) (a : Nat) : Byte :=
  if !s.sectorValid a then 0
  else match s.rmwWord (a / 8) with
    | some w => BitVec.ofNat 8 (w.toNat / 2 ^ (8 * (a % 8)))
    | none => s.byte a

/-- `n` bytes of the buffer from `a`. -/
def State.bufBytes (s : State) (a : Nat) : Nat → List Byte
  | 0 => []
  | n + 1 => s.bufByte a :: s.bufBytes (a + 1) n

/-- A word's stored error, none in an invalid sector or where a merged word waits. -/
def State.bufWordErr (s : State) (wd : Nat) : Nat :=
  if s.sectorValid (8 * wd) && (s.rmwWord wd).isNone then tabGet 0 s.wordErr wd else 0

/-- The words that `n` bytes from `a` touch. -/
def wordsOf (a n : Nat) : List Nat := if n = 0 then [] else (List.range ((a + n - 1) / 8 - a / 8 + 1)).map (a / 8 + ·)

/-! ### Faults of a slice (R56, R57, Table 2.10) -/

/-- The slice's error log: the first fault's fields, or OVERFLOW while VALID is 1. -/
def State.sliceLog (s : State) (sl q word cause : Nat) : State :=
  let r := SLICE.ERR_LOG sl
  if s.flag r SLICE.ERR_LOG_VALID then s.setFlag r SLICE.ERR_LOG_OVERFLOW true
  else ((((s.setFld r SLICE.ERR_LOG_LOCAL_TILE q).setFld r SLICE.ERR_LOG_WORD word).setFld r SLICE.ERR_LOG_CAUSE cause).setFlag
    r SLICE.ERR_LOG_VALID true)

/-- Poison a tile (R56). -/
def State.poisonTile (s : State) (t : Nat) : State :=
  let v := s.tile t
  if v.poisoned then s
  else (s.setTile t { v with poisoned := true }).satFld (SLICE.POISON_COUNT (sliceOf t).1) SLICE.POISON_COUNT_VALUE 1

/-- A fault found at byte `a`: the slice's log and the guestbook; a cause of Table 2.5 with its local code. -/
def State.sliceFault (s : State) (a cause local4 : Nat) : State :=
  let (sl, q) := sliceOf (a / 4096)
  (s.sliceLog sl q (a % 4096 / 8) local4).busError cause (srcOf 1 sl) 0 a

/-- An uncorrectable word: the counter, the poison, the log; `alone` when no requester receives it (R57). -/
def State.sliceUe (s : State) (wd : Nat) (alone : Bool) : State :=
  let t := wd / 512
  let sl := (sliceOf t).1
  let s := ((s.satFld (SLICE.ECC_UE_COUNT sl) SLICE.ECC_UE_COUNT_VALUE 1).poisonTile t).sliceFault (8 * wd) cUNCORRECTABLE 2
  let s := s.countUe 1
  if alone then s.raise iUNCORRECTABLE else s

/-- A corrected word: the counter, the log, and its place in the correction queue (R39). -/
def State.sliceCe (s : State) (wd : Nat) (queue : Bool) : State :=
  let (sl, q) := sliceOf (wd / 512)
  let s := (s.satFld (SLICE.ECC_CE_COUNT sl) SLICE.ECC_CE_COUNT_VALUE 1).sliceLog sl q (wd % 512) 1
  let s := s.event kCORRECTED 0 (srcOf 1 sl) 0 (8 * wd) []
  let v := s.slice sl
  if queue && v.corrQ.length < 16 && !v.corrQ.contains wd then s.setSlice sl { v with corrQ := v.corrQ ++ [wd] } else s

/-- The words that a read finds in error, in ascending order: each uncorrectable one and each corrected one is counted and logged. -/
def State.sliceFound (s : State) (queue alone : Bool) (wds : List Nat) : State :=
  wds.foldl (fun s wd =>
    if s.bufWordErr wd = 2 then s.sliceUe wd alone else if s.bufWordErr wd = 1 then s.sliceCe wd queue else s) s

/-- An access to a retired tile or a removed slice (R61): a bus error, logged in the guestbook alone. -/
def State.retiredAccess (s : State) (a : Nat) : State := s.busError cRETIRED (srcOf 1 (sliceOf (a / 4096)).1) 0 a

/-- Whether bytes of a range lie in the steward reserve while it is closed to everything but the steward (R467). -/
def State.reserveShut (s : State) (a n : Nat) : Bool :=
  let st := s.fld BRG.STATUS BRG.STATUS_STAGE
  (st == 2 || st == 3) && decide (0x2FE00000 < a + n) && decide (a < 0x30000000)

/-- An access to the closed reserve is refused. -/
def State.reserveRefuse (s : State) (a : Nat) : State := s.busError cUNREACHABLE (srcOf 1 (sliceOf (a / 4096)).1) 0 a

/-- The code that a tile will hold once its buffered words complete (R44). -/
def State.codeAhead (s : State) (t : Nat) : Nat :=
  (s.slice (sliceOf t).1).rmw.foldl
    (fun c e => if e.1 / 512 = t then
      let old := s.word (8 * e.1) 8
      Nat.xor c (codeDiff (8 * e.1 % 4096) (leBytes 8 (Nat.xor old e.2.toNat)))
    else c) (s.tile t).code.toNat

/-! ### Reads (R38, R44, R45, R56) -/

/-- Read `n` bytes of one tile: the state after the checks, the cause (0: OK) and the bytes. `whole`: one transfer of
the whole tile, whose code is compared. -/
def State.bufRead (s : State) (a n : Nat) (whole : Bool) : State × Nat × List Byte :=
  let t := a / 4096
  let data := s.bufBytes a n
  if s.tileGone t then (s.retiredAccess a, cRETIRED, data)
  else if (s.tile t).poisoned then (s.sliceFault a cPOISONED 5, cPOISONED, data)
  else
    let wds := wordsOf a n
    let bad := wds.any fun wd => s.bufWordErr wd == 2
    let s := s.sliceFound true false wds
    if bad then (s, cUNCORRECTABLE, data)
    else if whole && crcBytes 0 data != s.codeAhead t then
      ((s.poisonTile t).sliceFault a cTILE_CODE 3, cTILE_CODE, data)
    else (s, 0, data)

/-! ### Writes (R46, R47, R50-R53) -/

/-- Take words out of the correction queue, the scrubber's hand and the error map: a write reached them (R41). -/
def State.rewritten (s : State) (sl : Nat) (wds : List Nat) : State :=
  let v := s.slice sl
  let s := s.setSlice sl { v with
    corrQ := v.corrQ.filter fun w => !wds.contains w,
    scrubHeld := v.scrubHeld.filter fun w => !wds.contains w }
  { s with wordErr := s.wordErr.filter fun e => !wds.contains e.1 }

/-- Make the sectors that a write touches valid, the rest of each filled with zeros (R47). -/
def State.openSectors (s : State) (a n : Nat) : State :=
  let t := a / 4096
  let secs := if n = 0 then [] else (List.range ((a + n - 1) / 64 - a / 64 + 1)).map (a / 64 + ·)
  secs.foldl (fun s k =>
    if s.sectorValid (64 * k) then s
    else
      let v := s.tile t
      (s.clearBytes (64 * k) 64).setTile t { v with valid := v.valid ||| BitVec.ofNat 64 (2 ^ (k % 64)) }) s

/-- Write whole bytes into the array with the code's difference (R43). -/
def State.bufStore (s : State) (a : Nat) (data : List Byte) : State :=
  let t := a / 4096
  let old := s.bytes a data.length
  let d := List.zipWith (fun o n => o ^^^ n) old data
  let v := s.tile t
  (s.putBytes a data).setTile t { v with code := BitVec.ofNat 32 (Nat.xor v.code.toNat (codeDiff (a % 4096) d)) }

/-- The enabled bytes of one word: its new value and whether all eight are enabled. -/
def wordMerge (old : W64) (o : Nat) (data : List Byte) (en : List Bool) : W64 × Bool :=
  let olds := leBytes 8 old.toNat
  let ens := (List.range 8).map fun i => en.getD (o + i) false
  let news := (List.range 8).map fun i => data.getD (o + i) 0
  (BitVec.ofNat 64 (leVal (maskBytes olds news ens)), ens.all id)

/-- Replace the value of a waiting word. -/
def rmwSet (wd : Nat) (v : W64) : List (Nat × W64) → List (Nat × W64)
  | [] => []
  | e :: t => if e.1 = wd then (wd, v) :: t else e :: rmwSet wd v t

/-- One word of a write: into the buffered word where one waits (R53), else into the array, or held for a deferred
completion (R52). `base` is the byte address of word `wd`'s place in `data`. -/
def State.bufPutWord (s : State) (sl wd o : Nat) (data : List Byte) (en : List Bool) (completion : Bool) : State :=
  match s.rmwWord wd with
  | some old =>
    let v := s.slice sl
    s.setSlice sl { v with rmw := rmwSet wd (wordMerge old o data en).1 v.rmw }
  | none =>
    let (w, whole) := wordMerge (BitVec.ofNat 64 (s.word (8 * wd) 8)) o data en
    if whole || completion then s.bufStore (8 * wd) (leBytes 8 w.toNat)
    else
      let v := s.slice sl
      s.setSlice sl { v with rmw := v.rmw ++ [(wd, w)] }

/-- The words of a write with at least one byte enabled: word and offset of its first byte in `data`. The data start
at an 8 B boundary. -/
def wordsEnabled (a : Nat) (en : List Bool) : List (Nat × Nat) :=
  ((List.range (en.length / 8)).filter fun i => ((en.drop (8 * i)).take 8).any id).map fun i => (a / 8 + i, 8 * i)

/-- Whether a word of the write is only partly enabled. -/
def partWord (en : List Bool) (o : Nat) : Bool := !(((en.drop o).take 8).all id)

/-- A write of part of one tile from an 8 B boundary: the state and the cause (0: OK). `completion`: the next write
slot is marked as its completion slot (R51). -/
def State.bufWrite (s : State) (a : Nat) (data : List Byte) (en : List Bool) (completion : Bool) : State × Nat :=
  let t := a / 4096
  let sl := (sliceOf t).1
  if s.tileGone t then (s.retiredAccess a, cRETIRED)
  else
    let ws := wordsEnabled a en
    let fresh := (ws.filter fun w => partWord en w.2 && (s.rmwWord w.1).isNone).length
    if !completion && fresh != 0 && (s.slice sl).rmw.length + fresh > 8 then (s.sliceFault a cRMW_FULL 6, cRMW_FULL)
    else
      -- The in-slot read of the old words (R43, R56).
      let wds := ws.map (·.1)
      let s := (s.sliceFound false true wds).rewritten sl wds
      let s := ws.foldl (fun s w => s.openSectors (8 * w.1) 8) s
      (ws.foldl (fun s w => s.bufPutWord sl w.1 w.2 data en completion) s, 0)

/-- A write of bytes from any address, within one tile. -/
def State.bufPutAt (s : State) (a : Nat) (l : List Byte) (en : List Bool) (completion : Bool) : State × Nat :=
  let pre := a % 8
  let post := (8 - (a + l.length) % 8) % 8
  s.bufWrite (a - pre) (List.replicate pre 0 ++ l ++ List.replicate post 0)
    (List.replicate pre false ++ en ++ List.replicate post false) completion

def State.bufPut (s : State) (a : Nat) (l : List Byte) : State × Nat := s.bufPutAt a l (l.map fun _ => true) false

/-- A beat of a whole-tile write (R46): stored whole, with no check of the words it replaces. -/
def State.bufPutWhole (s : State) (a : Nat) (data : List Byte) : State × Nat :=
  let t := a / 4096
  let sl := (sliceOf t).1
  if s.tileGone t then (s.retiredAccess a, cRETIRED)
  else
    let wds := wordsOf a data.length
    let v := s.slice sl
    let s := (s.setSlice sl { v with rmw := v.rmw.filter fun e => !wds.contains e.1 }).rewritten sl wds
    ((s.openSectors a data.length).bufStore a data, 0)

/-- The end of a whole-tile write: the code set from the data, and checked against an expected one. -/
def State.bufSeal (s : State) (t : Nat) (data : List Byte) (expected : Option Nat) : State × Nat :=
  let code := crcBytes 0 data
  let s := s.setTile t { s.tile t with code := BitVec.ofNat 32 code }
  match expected with
  | some e => if e = code then (s, 0) else ((s.poisonTile t).sliceFault (4096 * t) cWRITE_CODE 4, cWRITE_CODE)
  | none => (s, 0)

/-- A whole-tile write (R46): the tile's bytes, all sectors valid, the code from the data; a code that differs from
the expected one poisons the tile and leaves the data stored. -/
def State.bufWriteTile (s : State) (t : Nat) (data : List Byte) (expected : Option Nat) : State × Nat :=
  let sl := (sliceOf t).1
  if s.tileGone t then (s.retiredAccess (4096 * t), cRETIRED)
  else
    let v := s.slice sl
    let s := s.setSlice sl { v with rmw := v.rmw.filter fun e => e.1 / 512 != t }
    let s := s.rewritten sl (wordsOf (4096 * t) 4096)
    let code := crcBytes 0 data
    let s := (s.putBytes (4096 * t) data).setTile t
      { s.tile t with valid := BitVec.allOnes 64, code := BitVec.ofNat 32 code }
    match expected with
    | some e => if e = code then (s, 0) else ((s.poisonTile t).sliceFault (4096 * t) cWRITE_CODE 4, cWRITE_CODE)
    | none => (s, 0)

/-- A discard of a tile (R48, R55). -/
def State.discardTile (s : State) (t : Nat) : State × Nat :=
  let sl := (sliceOf t).1
  if s.tileGone t then (s.retiredAccess (4096 * t), cRETIRED)
  else
    let v := s.slice sl
    let s := s.setSlice sl { v with rmw := v.rmw.filter fun e => e.1 / 512 != t }
    let s := s.rewritten sl (wordsOf (4096 * t) 4096)
    let n := s.fld (SLICE.POISON_COUNT sl) SLICE.POISON_COUNT_VALUE
    let s := if (s.tile t).poisoned then s.setFld (SLICE.POISON_COUNT sl) SLICE.POISON_COUNT_VALUE (n - 1) else s
    (s.setTile t {}, 0)

/-- The deferred completions of one beat: every buffered word of the beat of the oldest (R52). -/
def State.rmwComplete (s : State) (sl : Nat) : State :=
  match (s.slice sl).rmw with
  | [] => s
  | e :: _ =>
    let beat := e.1 / 32
    let v := s.slice sl
    let now := v.rmw.filter fun x => x.1 / 32 == beat
    let s := s.setSlice sl { v with rmw := v.rmw.filter fun x => x.1 / 32 != beat }
    now.foldl (fun s x => s.bufStore (8 * x.1) (leBytes 8 x.2.toNat)) s

/-- Rewrite a corrected word: its stored error is gone (R39). -/
def State.writeBack (s : State) (wd : Nat) : State := { s with wordErr := tabSet 0 s.wordErr wd 0 }

end Sys2Proof.Machine
end

