-- ==== Sys2Proof/Machine/RegAccess.lean ====
section
/-!
DEFINITION. Sys2Proof/Machine/RegAccess.lean: reads and writes of the control and status registers by access code
(R13, R497-R500), and the windows of BAR0 that are no registers (R106).
-/

namespace Sys2Proof.Machine

/-! ### Fields that a row of the opcode table of its own acts on -/

/-- The bits of a register, by the register's first instance, that a command of their own writes: a plain write leaves
them as they are. -/
def ownBits : Nat → Nat
  | 0x900000 => 0x6            -- XR.TT_CTRL ARM, RUN
  | 0x3000004 => 0x3           -- POR.CTRL FENCE, POWER_OFF
  | 0x1000C => 0x7             -- STW.L2_MAINT OP, GO
  | 0xC00104 => 0x3            -- CH_CTRL PUSH, ABORT
  | 0x100020 => 0xFFFFFFFF     -- CTU.FQ_CONS
  | 0x100004 => 0x8000         -- CTU.STATUS FQ_WRITE_ERROR
  | 0x100028 => 0x13F          -- CTU.RESOLVE
  | 0x10000C => 0xFFF          -- CTU.INVAL AST
  | 0x100000 => 0x1            -- CTU.CTRL STALL_REPLAY
  | 0x1000030 => 0x8000001FFFFFFFFF  -- MEM.REPAIR_REQ
  | 0x1400030 => 0x8000001FFFFFFFFF
  | 0x1000004 => 0x3           -- MEM.CTRL FENCE, RETRAIN
  | 0x1400004 => 0x3
  | 0x1000044 => 0x1000        -- MEM.MARGIN_CTRL START
  | 0x1400044 => 0x1000
  | 0x1800004 => 0x6           -- OX.CTRL FENCE, RETRAIN
  | 0x1800028 => 0x7FFFF       -- OX.TEST LOOP, PATTERN, GEN, CHK
  | 0x10 => 0xFFFF             -- GLB.NODE_ID
  | 0x1C00024 => 0xFFFFF       -- UP.PORT_FENCED
  | 0x1C00004 => 0x6           -- UP.CTRL RESET, SEAL
  | 0x200004 => 0x9            -- PT.CTRL FIXED_DISPATCH, SEAL
  | 0x1103C => 0x7             -- LNCH.CTRL GO, ABORT, RELEASE
  | 0x10020 => 0xFFFFF         -- DISP.HOST_RELEASE
  | 0x500010 => 0xFFFFC0000000 -- PCIE.BAR2_WINDOW
  | 0x400004 => 0x7            -- SBX.CTRL SUBMIT, NEW_NONCE, ATTEST
  | 0x4000F8 => 0xFFFFFFFFFFFFFFFF  -- SBX.FUSE_GEN_PROG
  | 0x300004 => 0x3            -- BRG.CTRL PART_RESET, HARD_REPAIR
  | 0x2000004 => 0x1           -- HOS.CTRL FENCE
  | 0x3800018 => 0xFFFFFFFFFFFFFFFF  -- GB.FIND
  | 0x3800004 => 0x1           -- GB.CTRL RETAIN_CLEAR
  | _ => 0

/-! ### The access codes -/

/-- One field after a write of `v` through `mask`. -/
def fieldWrite (sealBit : Bool) (old v mask : Nat) (f : FieldSpec) : Nat :=
  let n := 2 ^ (f.hi + 1 - f.lo)
  let o := old / 2 ^ f.lo % n
  let x := v / 2 ^ f.lo % n
  let m := mask / 2 ^ f.lo % n
  let r := match f.acc with
    | .rw => Nat.lor (Nat.land x m) (o - Nat.land o m)
    | .rwl => if sealBit then o else Nat.lor (Nat.land x m) (o - Nat.land o m)
    | .w1c => o - Nat.land o (Nat.land x m)
    | .w1s => Nat.lor o (Nat.land x m)
    | _ => o
  r * 2 ^ f.lo

/-- A register after a write of `v` through `mask`; reserved bits stay as they are. -/
def fieldsWrite (sealBit : Bool) (old v mask : Nat) (fs : List FieldSpec) : Nat :=
  let listed := fs.foldl (fun m f => Nat.lor m ((2 ^ (f.hi + 1 - f.lo) - 1) * 2 ^ f.lo)) 0
  fs.foldl (fun r f => r + fieldWrite sealBit old v mask f) (old - Nat.land old listed)

/-- A register as a read returns it: WO fields read 0. -/
def fieldsRead (v : Nat) (fs : List FieldSpec) : Nat :=
  fs.foldl (fun r f => if f.acc = .wo then putBits r f.hi f.lo 0 else r) v

/-- Whether the block of a register is sealed (R13, R401). -/
def State.sealed (s : State) (off : Nat) : Bool :=
  if 0x200000 ≤ off && off < 0x300000 then s.flag PT.CTRL PT.CTRL_SEAL
  else if 0x1C00000 ≤ off && off < 0x2000000 then
    s.flag (UP.CTRL ((off - 0x1C00000) / 0x40000)) UP.CTRL_SEAL
  else false

/-- Whether the unit of a block is absent from the floor plan, so that its block ignores writes (R500). -/
def State.blockAbsent (s : State) (off : Nat) : Bool :=
  if 0x800000 ≤ off && off < 0x860000 then !s.sliceHere ((off - 0x800000) / 0x1000)
  else if 0x1000000 ≤ off && off < 0x1200000 then !s.flag (MEM.STATUS ((off - 0x1000000) / 0x20000)) MEM.STATUS_PRESENT
  else if 0x1400000 ≤ off && off < 0x1500000 then !s.flag (MEM.STATUS (16 + (off - 0x1400000) / 0x10000)) MEM.STATUS_PRESENT
  else if 0x1800000 ≤ off && off < 0x1A00000 then !s.planned 9 ((off - 0x1800000) / 0x20000)
  else if 0x1C00000 ≤ off && off < 0x1D00000 then !s.flag (UP.STATUS ((off - 0x1C00000) / 0x40000)) UP.STATUS_PRESENT
  else if 0x2000000 ≤ off && off < 0x2800000 then !s.planned 4 ((off - 0x2000000) / 0x100000)
  else if 0x3000000 ≤ off && off < 0x3100000 then !s.flag (POR.STATUS ((off - 0x3000000) / 0x100)) POR.STATUS_PRESENT
  else false

/-- The clamp of R401 (Table 13.4), on each threshold of a zone after a write. -/
def clampTo (lo hi v : Nat) : Nat := if v < lo then lo else if hi < v then hi else v

/-! ### Windows -/

/-- The half that a staging window belongs to and the byte within it: 0 timetable, 1 multicast groups, 2 reduction
descriptors. -/
def windowOf (off : Nat) : Option (Nat × Nat × Nat) :=
  if 0x940000 ≤ off && off < 0x940000 + 1310720 then some (0, 0, off - 0x940000)
  else if 0xA80000 ≤ off && off < 0xA80000 + 1310720 then some (1, 0, off - 0xA80000)
  else if 0x920000 ≤ off && off < 0x922000 then some (0, 1, off - 0x920000)
  else if 0x930000 ≤ off && off < 0x932000 then some (1, 1, off - 0x930000)
  else if 0xBC0000 ≤ off && off < 0xBC0000 + 0xC000 then
    let sl := (off - 0xBC0000) / 0x200
    some (sl / 48, 2, (sl % 48) * 0x200 + (off - 0xBC0000) % 0x200)
  else none

def State.half (s : State) (e : Nat) : HalfX := tabGet {} s.halves e
def State.setHalf (s : State) (e : Nat) (v : HalfX) : State := { s with halves := tabSet {} s.halves e v }

/-- The active and the staging bank of a half (R71). -/
def State.activeBank (s : State) (e : Nat) : Nat := s.fld (XR.TT_CTRL e) XR.TT_CTRL_ACTIVE_BANK
def State.stagingBank (s : State) (e : Nat) : Nat := 1 - s.activeBank e

/-- Keys of the banked tables of a half. -/
def ttKey (bank slot col d : Nat) : Nat := 2 ^ 20 * bank + (slot * 80 + col) * 2 + d
def grpKey (bank g : Nat) : Nat := 256 * bank + g
def redKey (bank sl i : Nat) : Nat := 8192 * bank + 64 * (sl % 48) + i

/-- 32 bits of a staging window (R106). -/
def State.windowRead (s : State) (e kind b : Nat) : Nat :=
  let x := s.half e
  let k := s.stagingBank e
  match kind with
  | 0 => (tabGet 0 x.bank (2 ^ 20 * k + b / 2)).toNat + 65536 * (tabGet 0 x.bank (2 ^ 20 * k + b / 2 + 1)).toNat
  | 1 => bitsOf (tabGet 0 x.groups (grpKey k (b / 32))).toNat (b % 32 * 8 + 31) (b % 32 * 8)
  | _ => bitsOf (tabGet 0 x.red (8192 * k + b / 8)).toNat (b % 8 * 8 + 31) (b % 8 * 8)

/-- A write of 32 bits to a staging window, ignored while ARM is 1 (R71). Reserved bits stay 0. -/
def State.windowWrite (s : State) (e kind b v : Nat) : State :=
  if s.flag (XR.TT_CTRL e) XR.TT_CTRL_ARM then s
  else
    let x := s.half e
    let k := s.stagingBank e
    s.setHalf e (match kind with
      | 0 =>
        let i := 2 ^ 20 * k + b / 2
        let lo := tabSet 0 x.bank i (BitVec.ofNat 16 (v % 8192))
        { x with bank := tabSet 0 lo (i + 1) (BitVec.ofNat 16 (v / 65536 % 8192)) }
      | 1 =>
        let key := grpKey k (b / 32)
        { x with groups := tabSet 0 x.groups key (BitVec.ofNat 256 (putBits (tabGet 0 x.groups key).toNat (b % 32 * 8 + 31) (b % 32 * 8) v)) }
      | _ =>
        let key := 8192 * k + b / 8
        let w := putBits (tabGet 0 x.red key).toNat (b % 8 * 8 + 31) (b % 8 * 8) v
        { x with red := tabSet 0 x.red key (BitVec.ofNat 64 (putBits w 62 53 0)) })

/-! ### The bytes of a guestbook entry (Table 16.4) -/

def gbBytes (e : GbEntry) : List Byte :=
  padTo 256 (leBytes 8 e.stamp ++ leBytes 4 e.seq.toNat ++ leBytes 1 e.kind ++ leBytes 1 e.cause ++ leBytes 2 e.source ++
    leBytes 2 e.launch.toNat ++ leBytes 2 e.flags ++ leBytes 4 e.count ++ leBytes 8 e.detail ++ e.payload)

/-! ### Reads -/

/-- 32 bits of BAR0 at a 4 B-aligned offset, as a read returns them (R498). -/
def State.csrHalf (s : State) (off : Nat) : Nat :=
  match windowOf off with
  | some (e, kind, b) => s.windowRead e kind b
  | none =>
    if 0xBF0000 ≤ off && off < 0xBF0100 then
      bitsOf (tabGet 0 s.mesh.mcast ((off - 0xBF0000) / 8)).toNat (off % 8 * 8 + 31) (off % 8 * 8)
    else if 0x301000 ≤ off && off < 0x302000 then leVal (tabRange 0 s.boot.record (off - 0x301000) 4)
    else if 0x501000 ≤ off && off < 0x501400 then (s.msixWord ((off - 0x501000) / 4)).toNat
    else if 0x501800 ≤ off && off < 0x501808 then bitsOf s.pcie.pba.toNat (off % 8 * 8 + 31) (off % 8 * 8)
    else if 0x3C00000 ≤ off && off < 0x4000000 then
      match tabFind s.guestbook.ring ((off - 0x3C00000) / 256) with
      | some e => leAt (gbBytes e) (off % 256) 4
      | none => 0
    else match regFind off with
      | none => 0
      | some (r, b) =>
        let v := if r.base = 0x3800010 then s.etc - 100000 else fieldsRead (s.reg (off - b)).toNat r.fields
        bitsOf v (8 * b + 31) (8 * b)

/-- `n` bytes (4 or 8) of BAR0. -/
def State.csrRead (s : State) (off n : Nat) : Nat :=
  if n = 4 && off = 0x10014 then (match s.etcLatch with
    | some v => v.toNat
    | none => s.csrHalf off)
  else s.csrHalf off + (if n = 8 then 2 ^ 32 * s.csrHalf (off + 4) else 0)

/-- What a read of ETC.VALUE leaves behind: a 32-bit read of the low word latches the high word for the next read at offset + 4
(R454). -/
def State.etcRead (s : State) (off n : Nat) : State :=
  if n = 4 && off = 0x10010 then { s with etcLatch := some (BitVec.ofNat 32 (s.etc / 2 ^ 32)) }
  else if n = 4 && off = 0x10014 then { s with etcLatch := none }
  else s

/-! ### Writes -/

/-- The thresholds of a zone after a write of their register, clamped to Table 13.4 in the order of their fields (R401). -/
def State.clampThresh (s : State) (z : Nat) : State :=
  let t := PT.ZONE_THRESH z
  let s := s.setFld t PT.ZONE_THRESH_WARN_TRIP (clampTo 60 (s.fld t PT.ZONE_THRESH_THR_TRIP) (s.fld t PT.ZONE_THRESH_WARN_TRIP))
  let w := s.fld t PT.ZONE_THRESH_WARN_TRIP
  let s := s.setFld t PT.ZONE_THRESH_WARN_CLEAR (clampTo (w - 10) (w - 1) (s.fld t PT.ZONE_THRESH_WARN_CLEAR))
  let s := s.setFld t PT.ZONE_THRESH_THR_TRIP
    (clampTo w (s.fld (PT.ZONE_LIMIT z) PT.ZONE_LIMIT_SHUTDOWN - 5) (s.fld t PT.ZONE_THRESH_THR_TRIP))
  let h := s.fld t PT.ZONE_THRESH_THR_TRIP
  s.setFld t PT.ZONE_THRESH_THR_CLEAR (clampTo (h - 10) (h - 1) (s.fld t PT.ZONE_THRESH_THR_CLEAR))

/-- The shutdown threshold of a zone after a write, clamped to Table 13.4. -/
def State.clampLimit (s : State) (z : Nat) : State :=
  s.setFld (PT.ZONE_LIMIT z) PT.ZONE_LIMIT_SHUTDOWN (clampTo 90 125 (s.fld (PT.ZONE_LIMIT z) PT.ZONE_LIMIT_SHUTDOWN))

/-- A write of the bytes that `mask` selects of one register. Its low half alone starts no action (R499). -/
def State.regWriteMasked (s : State) (base : Nat) (r : RegSpec) (v mask : Nat) : State :=
  if s.blockAbsent base then s
  else
    let own := if r.width = 64 && mask = 2 ^ 32 - 1 && (r.base = 0x3800018 || r.base = 0x500010) then 0 else ownBits r.base
    let m := mask - Nat.land mask own
    let new := fieldsWrite (s.sealed base) (s.reg base).toNat v m r.fields
    let s := s.setReg base (BitVec.ofNat 64 new)
    if r.base = 0x200104 then s.clampThresh ((base - 0x200104) / 0x10)
    else if r.base = 0x200108 then s.clampLimit ((base - 0x200108) / 0x10)
    else s

/-- A write of 32 bits at a 4 B-aligned offset. -/
def State.csrWrite4 (s : State) (off v : Nat) : State :=
  match windowOf off with
  | some (e, kind, b) => s.windowWrite e kind b v
  | none =>
    if 0xBF0000 ≤ off && off < 0xBF0100 then
      let k := (off - 0xBF0000) / 8
      let w := putBits (tabGet 0 s.mesh.mcast k).toNat (off % 8 * 8 + 31) (off % 8 * 8) v
      { s with mesh := { s.mesh with mcast := tabSet 0 s.mesh.mcast k (BitVec.ofNat 64 w) } }
    else if 0x501000 ≤ off && off < 0x501400 then
      let i := (off - 0x501000) / 4
      { s with pcie := { s.pcie with msixTable := tabSet (if i % 4 = 3 then 1 else 0) s.pcie.msixTable i (BitVec.ofNat 32 v) } }
    else match regFind off with
      | none => s
      | some (r, b) =>
        if 0xC00500 ≤ r.base && r.base < 0xC00E00 && s.flag (CH.CTRL ((off - 0xC00000) / 0x1000) ((off % 0x1000 - 0x500) / 0x80)) CH.CTRL_PUSH
        then s  -- CH_DESC while PUSH is 1 (R242)
        else s.regWriteMasked (off - b) r (v % 2 ^ 32 * 2 ^ (8 * b)) ((2 ^ 32 - 1) * 2 ^ (8 * b))

/-- A write of 8 bytes: one 64-bit register at once, or two of 32 bits, the lower first (R499). -/
def State.csrWrite8 (s : State) (off v : Nat) : State :=
  match windowOf off, regFind off with
  | none, some (r, 0) =>
    if r.width = 64 then
      if 0xC00500 ≤ r.base && r.base < 0xC00E00 && s.flag (CH.CTRL ((off - 0xC00000) / 0x1000) ((off % 0x1000 - 0x500) / 0x80)) CH.CTRL_PUSH
      then s
      else s.regWriteMasked off r (v % 2 ^ 64) (2 ^ 64 - 1)
    else (s.csrWrite4 off (v % 2 ^ 32)).csrWrite4 (off + 4) (v / 2 ^ 32)
  | _, _ => (s.csrWrite4 off (v % 2 ^ 32)).csrWrite4 (off + 4) (v / 2 ^ 32)

def State.csrWrite (s : State) (off n v : Nat) : State := if n = 8 then s.csrWrite8 off v else s.csrWrite4 off v

end Sys2Proof.Machine
end

