-- ==== Sys2Proof/Machine/OxBase.lean ====
section
/-!
DEFINITION. Sys2Proof/Machine/OxBase.lean: packets of an Oxlux port (R351, R352, Tables 11.7 and 11.8), tags (R350), and
the response of an inbound transaction once its target has answered (R353, R354).
-/

namespace Sys2Proof.Machine

def State.oxl (s : State) (x : Nat) : Oxlux := tabGet {} s.ox x
def State.setOxl (s : State) (x : Nat) (v : Oxlux) : State := { s with ox := tabSet {} s.ox x v }
def State.updOxl (s : State) (x : Nat) (f : Oxlux → Oxlux) : State := s.setOxl x (f (s.oxl x))

/-! ### Headers (Table 11.7) -/

/-- A packet header's fields. -/
structure OxHdr where
  opc : Nat
  cls : Bool := false
  tag : Nat := 0
  len : Nat := 0
  inwin : Nat := 0
  ty : Nat := 0
  off : Nat := 0
  code : Option Nat := none
  red : Nat := 0
  contrib : Nat := 0
  beats : Nat := 0
  status : Nat := 0
  deriving DecidableEq, Repr

/-- The 256 bytes of a HEAD or SOLO flit; `inl` fills bytes 128 to 255. -/
def OxHdr.bytes (h : OxHdr) (inl : List Byte) : List Byte :=
  padTo 128 (leBytes 1 h.opc ++ leBytes 1 (b2n h.cls) ++ leBytes 2 h.tag ++ leBytes 2 h.len ++ leBytes 1 h.inwin ++
    leBytes 1 h.ty ++ leBytes 8 h.off ++ leBytes 4 (h.code.getD 0) ++ leBytes 1 h.red ++ leBytes 1 h.contrib ++
    leBytes 2 h.beats ++ leBytes 1 h.status ++ leBytes 1 (b2n h.code.isSome)) ++ padTo 128 inl

/-- The header that 256 bytes hold. -/
def hdrOf (l : List Byte) : OxHdr :=
  { opc := leAt l 0 1, cls := bitOf (leAt l 1 1) 0, tag := leAt l 2 2, len := leAt l 4 2, inwin := leAt l 6 1 % 64,
    ty := leAt l 7 1, off := leAt l 8 8 % 2 ^ 40, code := if bitOf (leAt l 25 1) 0 then some (leAt l 16 4) else none,
    red := leAt l 20 1 % 64, contrib := leAt l 21 1 % 64, beats := leAt l 22 2, status := leAt l 24 1 }

/-- Data cut into flits of 256 B. -/
def oxChunks (n : Nat) : Nat → List Byte → List (List Byte)
  | 0, _ => []
  | k + 1, l => if l.isEmpty then [] else padTo n (l.take n) :: oxChunks n k (l.drop n)

/-- The flits of a packet with data: one flit with inline data up to 128 B, else a header and data flits. -/
def oxFlits (h : OxHdr) (data : List Byte) : List (List Byte) :=
  if data.length ≤ 128 then [h.bytes data] else h.bytes [] :: oxChunks 256 16 data

/-- The channel of an opcode (Table 11.8). -/
def oxVc (opc : Nat) : Nat :=
  if opc = 0x04 then 2 else if opc = 0x05 then 3 else if opc = 0x81 || opc = 0x82 then 1 else 0

/-- A packet enters its channel's queue. -/
def State.oxPush (s : State) (x vc : Nat) (p : OxPkt) : State :=
  s.updOxl x fun o => { o with pkts := tabSet [] o.pkts vc (tabGet [] o.pkts vc ++ [p]) }

/-! ### Status and log -/

/-- TAGS_IN_USE and DRAINED (R356, Table 11.13). -/
def State.oxCount (s : State) (x : Nat) : State :=
  let o := s.oxl x
  (s.setFld (OX.STATUS x) OX.STATUS_TAGS_IN_USE o.tags.length).setFlag (OX.STATUS x) OX.STATUS_DRAINED (o.tags.isEmpty && o.retry.isEmpty)

/-- The port's error log: the first fault's fields, or OVERFLOW while VALID is 1. -/
def State.oxLog (s : State) (x cause tag inwin : Nat) (inbound : Bool) : State :=
  let r := OX.ERR_LOG x
  if s.flag r OX.ERR_LOG_VALID then s.setFlag r OX.ERR_LOG_OVERFLOW true
  else ((((s.setFld r OX.ERR_LOG_CAUSE cause).setFld r OX.ERR_LOG_TAG tag).setFld r OX.ERR_LOG_INWIN inwin).setFlag
    r OX.ERR_LOG_INBOUND inbound).setFlag r OX.ERR_LOG_VALID true

/-! ### Outbound requests (R290, R350, R352) -/

/-- The port of an outbound window, and the cause of an access that fails at it (0: none). -/
def State.oxRoute (s : State) (w : Nat) : Nat × Nat :=
  let r := CTU.OUTWIN w
  let x := s.fld r CTU.OUTWIN_PORT
  if !s.flag r CTU.OUTWIN_VALID || !s.oxActive x || !s.oxEnabled x then (x, cDECODE)
  else if s.fld r CTU.OUTWIN_PEER ≠ s.fld (OX.PEER x) OX.PEER_NODE then (x, cWINDOW_PEER)
  else if s.flag (OX.CTRL x) OX.CTRL_FENCE then (x, cFENCED)
  else (x, 0)

/-- VC1 flits that a request's response needs. -/
def oxRespFlits (r : OxReq) : Nat := if r.opc = 0x01 then 1 + (r.n + 255) / 256 else 1

/-- VC1 flits reserved by the tags in use. -/
def Oxlux.reserved (o : Oxlux) : Nat := (o.tags.map fun t => t.2.vc1).foldl (· + ·) 0

/-- The first request that waits takes a tag and becomes a packet, when a tag and response space are free. -/
def State.oxAdmit1 (s : State) (x : Nat) : State :=
  let o := s.oxl x
  match o.reqs with
  | [] => s
  | r :: rest =>
    match (List.range 512).find? fun t => (tabFind o.tags t).isNone with
    | none => s
    | some t =>
      if 1088 < o.reserved + oxRespFlits r then s
      else
        let h : OxHdr := { opc := r.opc, cls := r.cls, tag := t, len := r.n, inwin := s.fld (CTU.OUTWIN r.w) CTU.OUTWIN_INBOUND,
                           ty := r.ty, off := r.off, code := r.code, red := r.red, contrib := r.contrib, beats := r.beats }
        let flits := if r.opc = 0x04 then h.bytes [] :: oxChunks 256 16 r.data else if r.opc = 0x01 then [h.bytes []] else oxFlits h r.data
        let out : OxOut := { who := r.who, back := r.back, read := r.opc == 0x01, n := r.n, vc1 := oxRespFlits r, mesh := r.mesh }
        let s := s.setOxl x { o with reqs := rest, tags := tabInsert o.tags t out }
        (s.oxPush x (oxVc r.opc) { payload := flits }).oxCount x

/-- Every request that finds a tag. -/
def State.oxAdmit (s : State) (x : Nat) : State := (List.range (s.oxl x).reqs.length).foldl (fun s _ => s.oxAdmit1 x) s

/-- A request waits at its port. -/
def State.oxSubmit (s : State) (x : Nat) (r : OxReq) : State :=
  (s.updOxl x fun o => { o with reqs := o.reqs ++ [r] }).oxAdmit x

/-! ### Responses to the sender (R353, R354) -/

/-- ECAUSE of a tile status (R480). -/
def ecauseOf (cause : Nat) : Nat :=
  if cause = cTILE_CODE then 1 else if cause = cUNCORRECTABLE then 2 else if cause = cPOISONED then 3 else 0

def causeOfE (e : Nat) : Nat := if e = 1 then cTILE_CODE else if e = 2 then cUNCORRECTABLE else if e = 3 then cPOISONED else 0

/-- The response to a request: READ_RESP or ACK. The error of a whole-tile read goes in its TAIL; a whole tile read in a
meeting carries its code (R46). -/
def State.oxRespond (s : State) (x : Nat) (h : OxHdr) (cause : Nat) (data : List Byte) (code : Option Nat) : State :=
  let r : OxHdr := { opc := if h.opc = 0x01 then 0x81 else 0x82, tag := h.tag, len := h.len, status := cause,
                     code := if h.opc = 0x01 && h.cls && cause = 0 && data.length == 4096 then code else none }
  if h.opc ≠ 0x01 then s.oxPush x 1 { payload := [r.bytes []] }
  else if cause = 0 then s.oxPush x 1 { payload := oxFlits r data }
  else if h.len = 4096 && data.length == 4096 && ecauseOf cause ≠ 0 then
    s.oxPush x 1 { payload := oxFlits { r with status := 0 } data, err := ecauseOf cause }
  else s.oxPush x 1 { payload := [r.bytes []] }

/-- One part of an inbound transaction is answered; with the last, the sender has its response. A refusal is logged. -/
def State.oxReply (s : State) (x k cause : Nat) (data : List Byte) : State :=
  match (s.oxl x).ins.find? fun i => i.k == k with
  | none => s
  | some i =>
    let c := if i.cause = 0 then cause else i.cause
    let h := hdrOf i.hdr
    if 1 < i.left then
      s.updOxl x fun o => { o with ins := o.ins.map fun j => if j.k = k then { j with left := j.left - 1, cause := c } else j }
    else
      let s := s.updOxl x fun o => { o with ins := o.ins.filter fun j => j.k != k }
      if i.drop then s else
      let s := if c = 0 then s else s.oxLog x c h.tag h.inwin true
      s.oxRespond x h c data (if i.dpa % 4096 = 0 && i.dpa < 0x30000000 then some (crcBytes 0 data) else none)

end Sys2Proof.Machine
end

