-- ==== Sys2Proof/Machine/Answer.lean ====
section
/-!
DEFINITION. Sys2Proof/Machine/Answer.lean: the outcome of an access returns to the requester that waits for it: a fill or
an eviction entry of the steward's L2, a walk of the CTU, a BAR2 access, an inbound Oxlux transaction.
-/

namespace Sys2Proof.Machine

/-! ### Courier channels -/

def chanKey (c ch : Nat) : Nat := 16 * c + ch
def State.chan (s : State) (c ch : Nat) : Chan := tabGet {} s.couriers.chans (chanKey c ch)
def State.setChan (s : State) (c ch : Nat) (v : Chan) : State :=
  { s with couriers := { s.couriers with chans := tabSet {} s.couriers.chans (chanKey c ch) v } }


/-- The places of a unit's data that one piece holds are filled; the first cause stands. -/
def TileJob.answer (q : TileJob) (j : Nat) (src : Bool) (cause : Nat) (data : List Byte) (code : Option Nat) : TileJob :=
  let cause := if q.cause = 0 then cause else q.cause
  if src then
    match q.src[j]? with
    | none => q
    | some p => { q with srcLeft := q.srcLeft - 1, cause := cause, got := tabInsert q.got p.off data,
                         code := if q.src.length = 1 then code else none }
  else { q with dstLeft := q.dstLeft - 1, cause := cause, wrote := decide (q.dstLeft ≤ 1) }

/-- One piece of a courier's unit is back (R250). -/
def State.answerCourier (s : State) (c ch k j : Nat) (src : Bool) (cause : Nat) (data : List Byte) (code : Option Nat) : State :=
  let v := s.chan c ch
  s.setChan c ch { v with jobs := v.jobs.map fun q => if q.id = k then q.answer j src cause data code else q }

/-- The add at ARR_DVA is back (R250). -/
def State.answerArrival (s : State) (c ch cause : Nat) : State :=
  let v := s.chan c ch
  s.setChan c ch { v with arrOut := false, arrCause := cause }

/-! ### Steward L2 -/

def State.updSteward (s : State) (f : Steward → Steward) : State := { s with steward := f s.steward }

/-- A fill's data, or its bus error, is back. -/
def State.answerFill (s : State) (l cause : Nat) (data : List Byte) : State :=
  s.updSteward fun w => { w with fills := w.fills.map fun f => if f.line = l then { f with back := some (cause, data) } else f }

/-- One write of the oldest eviction entry of a line is answered. A bus error is logged (R481). -/
def State.answerEvict (s : State) (l cause : Nat) : State :=
  let s := s.updSteward fun w => { w with evict := w.evict.map fun e => if e.line = l && e.sent then { e with left := e.left - 1 } else e }
  if cause = 0 then s else s.busError cause (srcOf 11 0) 0 (64 * l)

/-! ### BAR2 (R450) -/

/-- The log of a fault of the PCIe block (Table 14.13). -/
def State.pcieLog (s : State) (dpa cause bar : Nat) (write : Bool) : State :=
  let r := PCIE.ERR_LOG
  if s.flag r PCIE.ERR_LOG_VALID then s.setFlag r PCIE.ERR_LOG_OVERFLOW true
  else ((((s.setFld r PCIE.ERR_LOG_DPA dpa).setFld r PCIE.ERR_LOG_CAUSE cause).setFld r PCIE.ERR_LOG_BAR bar).setFlag
    r PCIE.ERR_LOG_WRITE write).setFlag r PCIE.ERR_LOG_VALID true

/-- A TLP leaves the port. -/
def State.pcieSend (s : State) (o : PcieOut) : State := { s with pcie := { s.pcie with sent := s.pcie.sent ++ [o] } }

/-- A BAR2 access that is refused or meets a bus error (R450): Completer Abort for a read; a write is dropped, logged and
reported as an AER advisory non-fatal error. -/
def State.bar2Fail (s : State) (dpa cause : Nat) (write : Bool) : State :=
  if !write then s.pcieSend (.completion false [])
  else
    let s := ((s.pcieLog dpa cause 1 true).busError cause (srcOf 13 0) 0 dpa).raise iPCIE_ACCESS
    { s with pcie := { s.pcie with aer := s.pcie.aer ++ [cause] } }

/-- A BAR2 access whose parts are all back ends. -/
def State.bar2End (s : State) (b : Bar2) : State :=
  let s := { s with pcie := { s.pcie with bar2 := s.pcie.bar2.filter fun x => x.id != b.id } }
  if b.cause ≠ 0 then s.bar2Fail b.dpa b.cause b.write
  else if b.write then s else s.pcieSend (.completion true (b.data.flatMap (·.2)))

/-- One part of a BAR2 access is back. -/
def State.answerHost (s : State) (id part cause : Nat) (data : List Byte) : State :=
  match s.pcie.bar2.find? fun b => b.id == id with
  | none => s
  | some b =>
    let b := { b with left := b.left - 1, cause := if b.cause = 0 then cause else b.cause,
                      data := if b.write then b.data else tabInsert b.data part data }
    let s := { s with pcie := { s.pcie with bar2 := s.pcie.bar2.map fun x => if x.id = id then b else x } }
    if b.left = 0 then s.bar2End b else s

/-! ### Walks -/

/-- A walk's read is back. -/
def State.answerWalk (s : State) (i cause : Nat) (data : List Byte) : State :=
  match tabGet none s.ctu.walks i with
  | none => s
  | some w => { s with ctu := { s.ctu with walks := tabSet none s.ctu.walks i (some { w with back := some (cause, data) }) } }

/-- The outcome of an access that no mesh or crossroads port carries further. -/
def State.answer (s : State) (who : Asker) (cause : Nat) (data : List Byte) : State :=
  match who with
  | .line l => s.answerFill l cause data
  | .evict l => s.answerEvict l cause
  | .host id part => s.answerHost id part cause data
  | .walker i => s.answerWalk i cause data
  | .oxlux x k => s.oxReply x k cause data
  | .courier c ch k j src => s.answerCourier c ch k j src cause data none
  | .arrival c ch => s.answerArrival c ch cause
  | _ => s

end Sys2Proof.Machine
end

