-- ==== Sys2Proof/Machine/Mesh.lean ====
section
/-!
DEFINITION. Sys2Proof/Machine/Mesh.lean: the porter mesh (R99-R104): attachments, routes, packets and the grant of one
flit; and multicast with its merged acknowledgements (R81, R82).
-/

namespace Sys2Proof.Machine

/-! ### Attachments (Table 3.9) -/

def coreEnd (n : Nat) : MeshEnd := ⟨n, false⟩
def stewardEnd : MeshEnd := ⟨31 * 64 + 31, true⟩
def walkerEnd : MeshEnd := ⟨33 * 64 + 31, true⟩
/-- Edge port of a translation stop: 0–31 West, 32–63 East. -/
def edgeEnd (k : Nat) : MeshEnd := if k < 32 then ⟨2 * k * 64 + 31, true⟩ else ⟨2 * (k - 32) * 64 + 32, true⟩
/-- Router of a memory site. -/
def siteEnd (i : Nat) : MeshEnd :=
  if i < 16 then
    let n := i % 8
    let row := if n < 4 then 0 else 63
    let col := if i < 8 then 8 * (n % 4) + 3 else 60 - 8 * (n % 4)
    ⟨row * 64 + col, true⟩
  else
    let n := i - 16
    ⟨(8 * (n % 8) + 2) * 64 + (if n < 8 then 0 else 63), true⟩
/-- Router of an Oxlux port. -/
def oxEnd (x : Nat) : MeshEnd := ⟨(8 * (x % 8) + 6) * 64 + (if x < 8 then 0 else 63), true⟩
/-- The translation stop of a porter (R210). -/
def stopOf (n : Nat) : Nat := n / 64 / 2 + (if n % 64 < 32 then 0 else 32)

/-- The inbox of an end. -/
def endKey (e : MeshEnd) : Nat := 2 * e.router + b2n e.att

def State.inbox (s : State) (e : MeshEnd) : List (Nat × MeshBody) := tabGet [] s.mesh.inbox (endKey e)
def State.setInbox (s : State) (e : MeshEnd) (l : List (Nat × MeshBody)) : State :=
  { s with mesh := { s.mesh with inbox := tabSet [] s.mesh.inbox (endKey e) l } }

/-- Take the first delivered packet that meets `p`. -/
def inboxTake (p : MeshBody → Bool) : List (Nat × MeshBody) → Option (MeshBody × List (Nat × MeshBody))
  | [] => none
  | e :: t => if p e.2 then some (e.2, t) else (inboxTake p t).map fun r => (r.1, e :: r.2)

/-! ### Routes (R81, R100) -/

/-- The bits of a 64-bit mask below and above a position. -/
def anyBelow (m : W64) (i : Nat) : Bool := decide (m.toNat % 2 ^ i ≠ 0)
def anyAbove (m : W64) (i : Nat) : Bool := decide (m.toNat / 2 ^ (i + 1) ≠ 0)

/-- The outputs that a flit takes at router `r` when it came in at `inp`. -/
def meshOuts (dst : MeshDst) (r : Nat) (inp : MeshPort) : List MeshPort :=
  let row := r / 64
  let col := r % 64
  match dst with
  | .one e =>
    if col < e.router % 64 then [.east] else if e.router % 64 < col then [.west]
    else if row < e.router / 64 then [.south] else if e.router / 64 < row then [.north]
    else if e.att then [.attachment] else [.local]
  | .many rows cols =>
    let down := if anyAbove rows row then [MeshPort.south] else []
    let up := if anyBelow rows row then [MeshPort.north] else []
    let here := if bitOf rows.toNat row then [MeshPort.local] else []
    let vert := if bitOf cols.toNat col then up ++ down ++ here else []
    let e := if anyAbove cols col then [MeshPort.east] else []
    let w := if anyBelow cols col then [MeshPort.west] else []
    match inp with
    | .north => down ++ here
    | .south => up ++ here
    | .east => w ++ vert
    | .west => e ++ vert
    | .local => e ++ w ++ vert
    | .attachment => e ++ w ++ vert

def portNum : MeshPort → Nat
  | .north => 0
  | .south => 1
  | .east => 2
  | .west => 3
  | .local => 4
  | .attachment => 5

def portOfNum : Nat → MeshPort
  | 0 => .north
  | 1 => .south
  | 2 => .east
  | 3 => .west
  | 4 => .local
  | _ => .attachment

/-- The router across an output and the input at which its flits arrive there. -/
def neighbour (r : Nat) : MeshPort → Option (Nat × MeshPort)
  | .north => some (r - 64, .south)
  | .south => some (r + 64, .north)
  | .east => some (r + 1, .west)
  | .west => some (r - 1, .east)
  | _ => none

def queueKey (r inp vc : Nat) : Nat := 24 * r + 4 * inp + vc

def State.queue (s : State) (r inp vc : Nat) : List Flit := tabGet [] s.mesh.queues (queueKey r inp vc)
def State.setQueue (s : State) (r inp vc : Nat) (l : List Flit) : State :=
  { s with mesh := { s.mesh with queues := tabSet [] s.mesh.queues (queueKey r inp vc) l } }

/-- The entries of a router input for one channel: 8, and at a row link across the seam the link's FIFO of 64 as well
(R93, R99). -/
def queueRoom (r : Nat) (inp : MeshPort) : Nat :=
  if (r % 64 = 32 && inp = .west) || (r % 64 = 31 && inp = .east) then 72 else 8

/-! ### Sending (R233) -/

/-- `n` flits of a packet; the last carries its contents. -/
def packetFlits (f : Flit) (body : MeshBody) : Nat → List Flit
  | 0 => []
  | 1 => [{ f with last := true, body := some body }]
  | n + 2 => f :: packetFlits f body (n + 1)

/-- A packet enters the mesh at an end on a channel. -/
def State.meshSend (s : State) (vc : Nat) (src : MeshEnd) (dst : MeshDst) (n : Nat) (body : MeshBody) : State :=
  let inp := if src.att then MeshPort.attachment else MeshPort.local
  let f : Flit := {
    src := src, dst := dst, pkt := s.mesh.nextPkt, last := false, outs := meshOuts dst src.router inp, body := none }
  let s := { s with mesh := { s.mesh with nextPkt := s.mesh.nextPkt + 1 } }
  s.setQueue src.router (portNum inp) vc (s.queue src.router (portNum inp) vc ++ packetFlits f body (max 1 n))

/-- Flits of `n` payload bytes. -/
def payFlits (n : Nat) : Nat := (n + 63) / 64

/-- A response on VC1: one flit, or the payload flits of a longer read. -/
def State.meshRespond (s : State) (src back : MeshEnd) (who : Asker) (cause : Nat) (data : List Byte) : State :=
  s.meshSend 1 src (.one back) (if data.length ≤ 8 then 1 else payFlits data.length) (.resp who cause data)

/-- A request on VC0 to the end that serves it. -/
def State.meshRequest (s : State) (src dst : MeshEnd) (r : MemReq) : State :=
  s.meshSend 0 src (.one dst) (1 + payFlits r.data.length) (.req r)

/-- A multicast packet of the steward on VC3 (R81), with its acknowledgements to come. -/
def State.meshMulticast (s : State) (rows cols : W64) (n : Nat) (body : MeshBody) : State :=
  let total := popCount 64 rows.toNat * popCount 64 cols.toNat
  let a : McastAck := { src := stewardEnd, taken := 0, dropped := 0, total := total }
  if total = 0 then s else
  let s := { s with mesh := { s.mesh with acks := tabInsert s.mesh.acks s.mesh.nextPkt a } }
  s.meshSend 3 stewardEnd (.many rows cols) n body

/-! ### Delivery (R82, R103, R104) -/

/-- The answer of a router for a core that is fenced or absent: a request is answered with the cause. -/
def State.coreAnswer (s : State) (n cause : Nat) : MeshBody → State
  | .req r => (s.busError cause (srcOf 3 n) r.launch r.dpa).meshRespond (coreEnd n) r.back r.who cause []
  | .gput l off _ who back => (s.busError cause (srcOf 3 n) l (porterBase n + off)).meshRespond (coreEnd n) back who cause []
  | .gadd l off _ who back => (s.busError cause (srcOf 3 n) l (porterBase n + off)).meshRespond (coreEnd n) back who cause []
  | _ => s

/-- Whether a packet is a request to the core. -/
def isRequest : MeshBody → Bool
  | .req _ => true
  | .gput _ _ _ _ _ => true
  | .gadd _ _ _ _ _ => true
  | .far _ _ => true
  | _ => false

/-- Whether a packet is part of a load transaction (R238), which a fenced core still takes (Table 7.14, step 5). -/
def isLoad : MeshBody → Bool
  | .loadBegin => true
  | .load _ _ => true
  | .loadCheck _ _ => true
  | _ => false

def State.porter (s : State) (n : Nat) : Porter := tabGet {} s.porters n
def State.setPorter (s : State) (n : Nat) (p : Porter) : State := { s with porters := tabSet {} s.porters n p }

/-- SLOTS and DRAINED follow the taken request slots (R228, Table 7.17). -/
def State.porCount (s : State) (n : Nat) : State :=
  let k := (s.porter n).slots.length
  (s.setFld (POR.STATUS n) POR.STATUS_SLOTS k).setFlag (POR.STATUS n) POR.STATUS_DRAINED (k = 0)

/-- A request slot is free again. -/
def State.porFree (s : State) (n slot : Nat) : State :=
  let p := s.porter n
  (s.setPorter n { p with slots := tabErase p.slots slot }).porCount n

/-- A response that a fenced core's router discards frees its slot (Table 7.14, step 2). -/
def State.discardResponse (s : State) (n : Nat) : MeshBody → State
  | .resp (.porter m slot) _ _ => if m = n then s.porFree n slot else s
  | _ => s

/-- A packet reaches a porter's core: its inbox, or the answer for a core that is absent or fenced. The Boolean says
whether the core took it. -/
def State.deliverCore (s : State) (n vc : Nat) (body : MeshBody) : State × Bool :=
  let absent := !s.flag (POR.STATUS n) POR.STATUS_PRESENT
  let fenced := s.flag (POR.STATUS n) POR.STATUS_FENCED
  let powered := s.flag (POR.STATUS n) POR.STATUS_POWERED
  if absent then (s.coreAnswer n cABSENT body, false)
  else if fenced && !(isLoad body && powered) then
    (if isRequest body then s.coreAnswer n cFENCED body else s.discardResponse n body, false)
  else (s.setInbox (coreEnd n) (s.inbox (coreEnd n) ++ [(vc, body)]), true)

/-- One copy of a multicast is taken or dropped; with the last, the source has its one acknowledgement (R82). -/
def State.mcastCount (s : State) (pkt : Nat) (taken : Bool) : State :=
  match tabFind s.mesh.acks pkt with
  | none => s
  | some a =>
    let a := if taken then { a with taken := a.taken + 1 } else { a with dropped := a.dropped + 1 }
    if a.taken + a.dropped < a.total then { s with mesh := { s.mesh with acks := tabInsert s.mesh.acks pkt a } }
    else
      let s := { s with mesh := { s.mesh with acks := tabErase s.mesh.acks pkt } }
      s.setInbox a.src (s.inbox a.src ++ [(1, .mcastAck a.taken a.dropped)])

/-- The last flit of a packet leaves the mesh at a router. -/
def State.deliver (s : State) (r : Nat) (out : MeshPort) (vc : Nat) (f : Flit) : State :=
  match f.body with
  | none => s
  | some body =>
    if out = .local then
      let (s, took) := s.deliverCore r vc body
      match f.dst with
      | .one _ => s
      | .many _ _ => s.mcastCount f.pkt took
    else match body with
      | .resp (.line l) cause data => s.answerFill l cause data
      | .resp (.evict l) cause _ => s.answerEvict l cause
      | .resp (.host id part) cause data => s.answerHost id part cause data
      | .resp (.walker i) cause data => s.answerWalk i cause data
      | .resp (.oxlux x k) cause data => s.oxReply x k cause data
      | .resp (.courier c ch k j src) cause data => s.answerCourier c ch k j src cause data none
      | .resp (.arrival c ch) cause _ => s.answerArrival c ch cause
      | _ => s.setInbox ⟨r, true⟩ (s.inbox ⟨r, true⟩ ++ [(vc, body)])

/-! ### The grant of one output (R101) -/

/-- Channels in order of priority. -/
def vcOrder : List Nat := [3, 1, 2, 0]

/-- Whether the next input, or the end's inbox, has room for a flit on a channel; a response is always taken (R102). -/
def State.roomFor (s : State) (r : Nat) (out : MeshPort) (vc : Nat) : Bool :=
  match neighbour r out with
  | some (r', inp) => decide ((s.queue r' (portNum inp) vc).length < queueRoom r' inp)
  | none => vc == 1 || decide (((s.inbox ⟨r, out == .attachment⟩).filter fun e => e.1 == vc).length < 8)

/-- The head flit of an input that wants an output. -/
def State.headFor (s : State) (r : Nat) (out : MeshPort) (vc inp : Nat) : Option Flit :=
  match s.queue r inp vc with
  | [] => none
  | f :: _ => if f.outs.contains out then some f else none

/-- The input that one channel grants, round-robin after the last, among heads that meet `p`. -/
def State.pickInput (s : State) (r : Nat) (out : MeshPort) (p : Flit → Bool) (vc : Nat) : Option (Nat × Nat × Flit) :=
  if !s.roomFor r out vc then none
  else
    let last := tabGet 5 s.mesh.rr (queueKey r (portNum out) vc)
    (List.range 6).findSome? fun i =>
      let inp := (last + 1 + i) % 6
      match s.headFor r out vc inp with
      | some f => if p f then some (vc, inp, f) else none
      | none => none

/-- The grant of an output: a guarded flit first, then by channel. -/
def State.pickFlit (s : State) (r : Nat) (out : MeshPort) : Option (Nat × Nat × Flit) :=
  match vcOrder.findSome? (s.pickInput r out fun f => decide (32 ≤ f.waited)) with
  | some x => some x
  | none => vcOrder.findSome? (s.pickInput r out fun _ => true)

/-- Heads that wanted the output wait one cycle more. -/
def State.waitHeads (s : State) (r : Nat) (out : MeshPort) : State :=
  ([0, 1, 2, 3] : List Nat).foldl (fun s vc => (List.range 6).foldl (fun s inp =>
    match s.queue r inp vc with
    | f :: t => if f.outs.contains out then s.setQueue r inp vc ({ f with waited := f.waited + 1 } :: t) else s
    | [] => s) s) s

/-- Grant a flit: its copy leaves by the output, and the flit leaves its queue with its last copy. -/
def State.grant (s : State) (r : Nat) (out : MeshPort) (vc inp : Nat) (f : Flit) : State :=
  let s := s.waitHeads r out
  let rest := (s.queue r inp vc).drop 1
  let outs := f.outs.erase out
  let s := s.setQueue r inp vc (if outs.isEmpty then rest else { f with outs := outs } :: rest)
  let s := { s with mesh := { s.mesh with rr := tabSet 5 s.mesh.rr (queueKey r (portNum out) vc) inp } }
  match neighbour r out with
  | some (r', inp') =>
    let g := { f with waited := 0, outs := meshOuts f.dst r' inp' }
    s.setQueue r' (portNum inp') vc (s.queue r' (portNum inp') vc ++ [g])
  | none => s.deliver r out vc f

/-- MESH_HOP (R101, R102): one flit leaves by an output, or none waits for it. -/
def execMeshHop (router : BitVec 12) (out : MeshPort) (s : State) : Res :=
  match s.pickFlit router.toNat out with
  | none => .next (s.waitHeads router.toNat out)
  | some (vc, inp, f) => .next (s.grant router.toNat out vc inp f)

end Sys2Proof.Machine
end

