-- ==== Sys2Proof/Machine/Crypto.lean ====
section
/-!
DEFINITION. Sys2Proof/Machine/Crypto.lean: SHA-384 (R131, FIPS 180-4) and AES-256-XTS (R315, IEEE 1619, FIPS 197).
-/

namespace Sys2Proof.Machine

/-! ### SHA-384 -/

/-- The round constants. -/
def shaK : List W64 :=
  [   0x428A2F98D728AE22, 0x7137449123EF65CD, 0xB5C0FBCFEC4D3B2F, 0xE9B5DBA58189DBBC,
   0x3956C25BF348B538, 0x59F111F1B605D019, 0x923F82A4AF194F9B, 0xAB1C5ED5DA6D8118,
   0xD807AA98A3030242, 0x12835B0145706FBE, 0x243185BE4EE4B28C, 0x550C7DC3D5FFB4E2,
   0x72BE5D74F27B896F, 0x80DEB1FE3B1696B1, 0x9BDC06A725C71235, 0xC19BF174CF692694,
   0xE49B69C19EF14AD2, 0xEFBE4786384F25E3, 0x0FC19DC68B8CD5B5, 0x240CA1CC77AC9C65,
   0x2DE92C6F592B0275, 0x4A7484AA6EA6E483, 0x5CB0A9DCBD41FBD4, 0x76F988DA831153B5,
   0x983E5152EE66DFAB, 0xA831C66D2DB43210, 0xB00327C898FB213F, 0xBF597FC7BEEF0EE4,
   0xC6E00BF33DA88FC2, 0xD5A79147930AA725, 0x06CA6351E003826F, 0x142929670A0E6E70,
   0x27B70A8546D22FFC, 0x2E1B21385C26C926, 0x4D2C6DFC5AC42AED, 0x53380D139D95B3DF,
   0x650A73548BAF63DE, 0x766A0ABB3C77B2A8, 0x81C2C92E47EDAEE6, 0x92722C851482353B] ++
  [   0xA2BFE8A14CF10364, 0xA81A664BBC423001, 0xC24B8B70D0F89791, 0xC76C51A30654BE30,
   0xD192E819D6EF5218, 0xD69906245565A910, 0xF40E35855771202A, 0x106AA07032BBD1B8,
   0x19A4C116B8D2D0C8, 0x1E376C085141AB53, 0x2748774CDF8EEB99, 0x34B0BCB5E19B48A8,
   0x391C0CB3C5C95A63, 0x4ED8AA4AE3418ACB, 0x5B9CCA4F7763E373, 0x682E6FF3D6B2B8A3,
   0x748F82EE5DEFB2FC, 0x78A5636F43172F60, 0x84C87814A1F0AB72, 0x8CC702081A6439EC,
   0x90BEFFFA23631E28, 0xA4506CEBDE82BDE9, 0xBEF9A3F7B2C67915, 0xC67178F2E372532B,
   0xCA273ECEEA26619C, 0xD186B8C721C0C207, 0xEADA7DD6CDE0EB1E, 0xF57D4F7FEE6ED178,
   0x06F067AA72176FBA, 0x0A637DC5A2C898A6, 0x113F9804BEF90DAE, 0x1B710B35131C471B,
   0x28DB77F523047D84, 0x32CAAB7B40C72493, 0x3C9EBE0A15C9BEBC, 0x431D67C49C100D4C,
   0x4CC5D4BECB3E42B6, 0x597F299CFC657E2A, 0x5FCB6FAB3AD6FAEC, 0x6C44198C4A475817]

/-- The initial hash value of SHA-384. -/
def shaH0 : List W64 :=
  [   0xCBBB9D5DC1059ED8, 0x629A292A367CD507, 0x9159015A3070DD17, 0x152FECD8F70E5939,
   0x67332667FFC00B31, 0x8EB44A8768581511, 0xDB0C2E0D64F98FA7, 0x47B5481DBEFA4FA4]

def shaRotr (x : W64) (n : Nat) : W64 := (x >>> n) ||| (x <<< (64 - n))

/-- The message schedule, newest word first: 64 more words after the sixteen of the block. -/
def shaSched : Nat → List W64 → List W64
  | 0, ws => ws
  | n + 1, ws =>
    let a := ws.getD 1 0
    let b := ws.getD 14 0
    let s1 := shaRotr a 19 ^^^ shaRotr a 61 ^^^ (a >>> 6)
    let s0 := shaRotr b 1 ^^^ shaRotr b 8 ^^^ (b >>> 7)
    shaSched n ((s1 + ws.getD 6 0 + s0 + ws.getD 15 0) :: ws)

/-- The eight working variables. -/
structure ShaVars where
  a : W64
  b : W64
  c : W64
  d : W64
  e : W64
  f : W64
  g : W64
  h : W64
  deriving DecidableEq, Repr

def shaRound (v : ShaVars) (k w : W64) : ShaVars :=
  let s1 := shaRotr v.e 14 ^^^ shaRotr v.e 18 ^^^ shaRotr v.e 41
  let ch := (v.e &&& v.f) ^^^ (~~~v.e &&& v.g)
  let t1 := v.h + s1 + ch + k + w
  let s0 := shaRotr v.a 28 ^^^ shaRotr v.a 34 ^^^ shaRotr v.a 39
  let maj := (v.a &&& v.b) ^^^ (v.a &&& v.c) ^^^ (v.b &&& v.c)
  ⟨t1 + (s0 + maj), v.a, v.b, v.c, v.d + t1, v.e, v.f, v.g⟩

def shaRounds : ShaVars → List W64 → List W64 → ShaVars
  | v, k :: ks, w :: ws => shaRounds (shaRound v k w) ks ws
  | v, _, _ => v

/-- `n` words of eight bytes, highest byte first. -/
def shaWords : Nat → List Byte → List W64
  | 0, _ => []
  | n + 1, l => BitVec.ofNat 64 (beVal (l.take 8)) :: shaWords n (l.drop 8)

/-- One block of 128 bytes. -/
def shaBlock (h : List W64) (l : List Byte) : List W64 :=
  let ws := (shaSched 64 (shaWords 16 l).reverse).reverse
  let v0 : ShaVars := ⟨h.getD 0 0, h.getD 1 0, h.getD 2 0, h.getD 3 0, h.getD 4 0, h.getD 5 0, h.getD 6 0, h.getD 7 0⟩
  let v := shaRounds v0 shaK ws
  [v0.a + v.a, v0.b + v.b, v0.c + v.c, v0.d + v.d, v0.e + v.e, v0.f + v.f, v0.g + v.g, v0.h + v.h]

def shaBlocks : Nat → List W64 → List Byte → List W64
  | 0, h, _ => h
  | n + 1, h, l => shaBlocks n (shaBlock h (l.take 128)) (l.drop 128)

/-- The message with its padding and its length. -/
def shaPad (l : List Byte) : List Byte :=
  let z := (239 - l.length % 128) % 128
  l ++ [0x80#8] ++ List.replicate z 0 ++ beBytes 16 (8 * l.length)

/-- SHA-384 as 48 bytes. -/
def sha384 (l : List Byte) : List Byte :=
  let p := shaPad l
  ((shaBlocks (p.length / 128) shaH0 p).take 6).flatMap fun w => beBytes 8 w.toNat

/-! ### AES-256 -/

/-- The S-box and its inverse, as numbers of 256 bytes, entry 0 lowest. -/
def aesSboxNum : Nat := 0x16BB54B00F2D99416842E6BF0D89A18CDF2855CEE9871E9B948ED9691198F8E19E1DC186B95735610EF6034866B53E708A8BBD4B1F74DDE8C6B4A61C2E2578BA08AE7A65EAF4566CA94ED58D6D37C8E779E4959162ACD3C25C2406490A3A32E0DB0B5EDE14B8EE4688902A22DC4F816073195D643D7EA7C41744975FEC130CCDD2F3FF1021DAB6BCF5389D928F40A351A89F3C507F02F94585334D43FBAAEFD0CF584C4A39BECB6A5BB1FC20ED00D153842FE329B3D63B52A05A6E1B1A2C830975B227EBE28012079A059618C323C7041531D871F1E5A534CCF73F362693FDB7C072A49CAFA2D4ADF04759FA7DC982CA76ABD7FE2B670130C56F6BF27B777C63
def aesInvNum : Nat := 0x7D0C2155631469E126D677BA7E042B17619953833CBBEBC8B0F52AAE4D3BE0A0EF9CC9939F7AE52D0D4AB519A97F51605FEC8027591012B131C7078833A8DD1FF45ACD78FEC0DB9A2079D2C64B3E56FC1BBE18AA0E62B76F89C5291D711AF1476EDF751CE837F9E28535ADE72274AC9673E6B4F0CECFF297EADC674F4111913A6B8A130103BDAFC1020F3FCA8F1E2CD00645B3B80558E4F70AD3BC8C00ABD890849D8DA75746155EDAB9EDFD5048706C92B6655DCC5CA4D41698688664F6F87225D18B6D49A25B76B224D92866A12E084EC3FA420B954CEE3D23C2A632947B54CBE9DEC444438E3487FF2F9B8239E37CFBD7F3819EA340BF38A53630D56A0952

def aesS (b : Byte) : Byte := BitVec.ofNat 8 (aesSboxNum / 256 ^ b.toNat)
def aesInvS (b : Byte) : Byte := BitVec.ofNat 8 (aesInvNum / 256 ^ b.toNat)

/-- Multiplication by x in the field of AES. -/
def aesX (b : Byte) : Byte := (b <<< 1) ^^^ (if b.getLsbD 7 then 0x1B else 0)

def aesMul : Nat → Byte → Byte → Byte
  | 0, _, _ => 0
  | n + 1, a, b => (if b.getLsbD 0 then a else 0) ^^^ aesMul n (aesX a) (b >>> 1)

def xorBytes (a b : List Byte) : List Byte := List.zipWith (· ^^^ ·) a b

/-- The key schedule, words of four bytes, newest first; `n` counts the words to come, `i` the next index. -/
def aesExpand : Nat → Nat → List (List Byte) → List (List Byte)
  | 0, _, ws => ws
  | n + 1, i, ws =>
    let t := ws.headD []
    let u :=
      if i % 8 = 0 then
        xorBytes ((t.drop 1 ++ t.take 1).map aesS) [BitVec.ofNat 8 (2 ^ (i / 8 - 1)), 0, 0, 0]
      else if i % 8 = 4 then t.map aesS
      else t
    aesExpand n (i + 1) (xorBytes (ws.getD 7 []) u :: ws)

/-- A list cut into pieces of `k`. -/
def chunks (k : Nat) : Nat → List Byte → List (List Byte)
  | 0, _ => []
  | n + 1, l => l.take k :: chunks k n (l.drop k)

/-- The fifteen round keys of a 32-byte key. -/
def aesKeys (key : List Byte) : List (List Byte) :=
  let ws := (aesExpand 52 8 (chunks 4 8 key).reverse).reverse
  (List.range 15).map fun r => ((ws.drop (4 * r)).take 4).flatten

/-- The bytes of a state by row and column: byte 4 × column + row. -/
def aesShift (inv : Bool) (s : List Byte) : List Byte :=
  (List.range 16).map fun i =>
    let r := i % 4
    let c := i / 4
    s.getD (4 * ((if inv then c + 4 - r else c + r) % 4) + r) 0

def aesMixCol (m : List Byte) (col : List Byte) : List Byte :=
  (List.range 4).map fun r =>
    (List.range 4).foldl (fun x c => x ^^^ aesMul 8 (col.getD c 0) (m.getD ((c + 4 - r) % 4) 0)) 0

def aesMix (inv : Bool) (s : List Byte) : List Byte :=
  (chunks 4 4 s).flatMap (aesMixCol (if inv then [14, 11, 13, 9] else [2, 3, 1, 1]))

/-- The rounds of encryption after the first key. -/
def aesEncRounds : List Byte → List (List Byte) → List Byte
  | s, [] => s
  | s, [k] => xorBytes (aesShift false (s.map aesS)) k
  | s, k :: ks => aesEncRounds (xorBytes (aesMix false (aesShift false (s.map aesS))) k) ks

def aesEnc (ks : List (List Byte)) (p : List Byte) : List Byte := aesEncRounds (xorBytes p (ks.headD [])) (ks.drop 1)

/-- The rounds of decryption, keys in reverse. -/
def aesDecRounds : List Byte → List (List Byte) → List Byte
  | s, [] => s
  | s, [k] => xorBytes ((aesShift true s).map aesInvS) k
  | s, k :: ks => aesDecRounds (aesMix true (xorBytes ((aesShift true s).map aesInvS) k)) ks

def aesDec (ks : List (List Byte)) (c : List Byte) : List Byte :=
  aesDecRounds (xorBytes c (ks.reverse.headD [])) (ks.reverse.drop 1)

/-! ### XTS -/

/-- The tweak of the next block of a data unit. -/
def xtsNext (t : List Byte) : List Byte :=
  let v := leVal t
  leBytes 16 (Nat.xor (2 * v % 2 ^ 128) (if v / 2 ^ 127 = 1 then 0x87 else 0))

def xtsBlocks (f : List Byte → List Byte) : Nat → List Byte → List Byte → List Byte
  | 0, _, _ => []
  | n + 1, t, l => xorBytes (f (xorBytes (l.take 16) t)) t ++ xtsBlocks f n (xtsNext t) (l.drop 16)

/-- A granule of 64 bytes under a slot's two keys, bytes 0–31 and 32–63, with its DPA as the tweak (R315). -/
def xtsGranule (enc : Bool) (keys : BitVec 512) (dpa : Nat) (l : List Byte) : List Byte :=
  let kb := leBytes 64 keys.toNat
  let k1 := aesKeys (kb.take 32)
  let t := aesEnc (aesKeys (kb.drop 32)) (leBytes 16 (dpa / 64 * 64))
  xtsBlocks (if enc then aesEnc k1 else aesDec k1) 4 t l

end Sys2Proof.Machine
end

