-- ==== Sys2Proof/Machine/Float.lean ====
section
/-!
DEFINITION. Sys2Proof/Machine/Float.lean: the number formats of Table 5.6 and every floating-point, MX, dither and
tally result (R121-R130, R153-R169), computed exactly and rounded once.
A finite value is a sign, a whole mantissa and a power of two, so sums and products are exact.
-/

namespace Sys2Proof.Machine

/-- A floating-point format (Table 5.6): exponent bits, significand bits, bias, the magnitude pattern of the
largest finite value, and whether it has infinities and NaNs. -/
structure Fmt where
  eb : Nat
  sb : Nat
  bias : Nat
  maxMag : Nat
  hasInf : Bool
  hasNan : Bool
  deriving DecidableEq, Repr

def fp32 : Fmt := ⟨8, 23, 127, 0x7F7FFFFF, true, true⟩
def bf16 : Fmt := ⟨8, 7, 127, 0x7F7F, true, true⟩
def fp16 : Fmt := ⟨5, 10, 15, 0x7BFF, true, true⟩
def e5m2 : Fmt := ⟨5, 2, 15, 0x7B, true, true⟩
def e4m3 : Fmt := ⟨4, 3, 7, 0x7E, false, true⟩
def e3m2 : Fmt := ⟨3, 2, 3, 0x1F, false, false⟩
def e2m3 : Fmt := ⟨2, 3, 1, 0x1F, false, false⟩
def e2m1 : Fmt := ⟨2, 1, 1, 0x7, false, false⟩

/-- The width of a format in bits. -/
def fmtWidth (f : Fmt) : Nat := 1 + f.eb + f.sb

/-- A value: a NaN with its payload left-aligned in 23 bits, an infinity, or ± m × 2 ^ e. -/
inductive FVal where
  | nan (s : Bool) (payload : Nat)
  | inf (s : Bool)
  | fin (s : Bool) (m : Nat) (e : Int)
  deriving DecidableEq, Repr

/-- The sticky flags of Table 5.8 as a bit mask. -/
abbrev Flags := Nat
def flInvalid : Flags := 1
def flDivZero : Flags := 2
def flOverflow : Flags := 4
def flSaturate : Flags := 8
def flTallyIn : Flags := 16
def flTallyRange : Flags := 32

/-- What a pattern of a format stands for. -/
def fdecode (f : Fmt) (x : Nat) : FVal :=
  let s := bitOf x (f.eb + f.sb)
  let ex := bitsOf x (f.eb + f.sb - 1) f.sb
  let fr := x % 2 ^ f.sb
  let mag := x % 2 ^ (f.eb + f.sb)
  if mag > f.maxMag then
    if f.hasInf && fr == 0 then .inf s
    else .nan s (fr * 2 ^ (23 - f.sb))
  else if ex = 0 then .fin s fr (1 - (f.bias : Int) - f.sb)
  else .fin s (2 ^ f.sb + fr) ((ex : Int) - f.bias - f.sb)

/-- A magnitude pattern under a sign. -/
def fsigned (f : Fmt) (s : Bool) (mag : Nat) : Nat := mag + b2n s * 2 ^ (f.eb + f.sb)

/-- The default NaN (Table 5.6). -/
def fnan (f : Fmt) : Nat := if f.hasInf then (2 ^ f.eb - 1) * 2 ^ f.sb + 2 ^ (f.sb - 1) else 2 ^ (f.eb + f.sb) - 1

/-- A NaN in a format, quietened (R162): widening appends zeros, narrowing drops low payload bits; E4M3 has one NaN
of each sign, and a format without NaN gives 0. -/
def fquiet (f : Fmt) (s : Bool) (payload : Nat) : Nat :=
  if !f.hasNan then 0
  else if !f.hasInf then fsigned f s (2 ^ (f.eb + f.sb) - 1)
  else
    let fr := payload / 2 ^ (23 - f.sb)
    fsigned f s ((2 ^ f.eb - 1) * 2 ^ f.sb + (if fr / 2 ^ (f.sb - 1) % 2 = 1 then fr else fr + 2 ^ (f.sb - 1)))

/-- Infinity of a format, or its largest finite value where it has none (R164). -/
def finf (f : Fmt) (s : Bool) : Nat :=
  if f.hasInf then fsigned f s ((2 ^ f.eb - 1) * 2 ^ f.sb) else fsigned f s f.maxMag

/-- The overflow of a format under R164. -/
def foverflow (f : Fmt) (s : Bool) : Nat × Flags := (finf f s, if f.hasInf then flOverflow else flSaturate)

/-- The power of two of the last place in which ± m × 2 ^ e is represented in a format. -/
def fquantum (f : Fmt) (m : Nat) (e : Int) : Int :=
  let low : Int := 1 - (f.bias : Int) - f.sb
  let q : Int := (Nat.log2 m : Int) + e - f.sb
  if q < low then low else q

/-- `m × 2 ^ d` floored, with the part dropped as numerator over `2 ^ k`. -/
def fshift (m : Nat) (d : Int) : Nat × Nat × Nat :=
  if d ≥ 0 then (m * 2 ^ d.toNat, 0, 0) else (m / 2 ^ (-d).toNat, m % 2 ^ (-d).toNat, (-d).toNat)

/-- The magnitude pattern of `n` places of quantum `q`; it goes on past the largest finite value. -/
def fmag (f : Fmt) (q : Int) (n : Nat) : Nat := (q - (1 - (f.bias : Int) - f.sb)).toNat * 2 ^ f.sb + n

/-- Round ± m × 2 ^ e to nearest, ties to even (R160, R164). -/
def fround (f : Fmt) (s : Bool) (m : Nat) (e : Int) : Nat × Flags :=
  if m = 0 then (fsigned f s 0, 0)
  else
    let q := fquantum f m e
    let (n, r, k) := fshift m (e - q)
    let up := 2 * r > 2 ^ k || (2 * r == 2 ^ k && k != 0 && n % 2 == 1)
    let mag := fmag f q (if up then n + 1 else n)
    if mag > f.maxMag then foverflow f s else (fsigned f s mag, 0)

/-- The dither value of an element (R127). -/
def ditherOf (seed dva step : Nat) : Nat :=
  let m := 2 ^ 64
  let z0 := Nat.xor (Nat.xor (seed % m) (dva * 0x9E3779B97F4A7C15 % m)) (step * 0xC2B2AE3D27D4EB4F % m)
  let z1 := Nat.xor z0 (z0 / 2 ^ 30) * 0xBF58476D1CE4E5B9 % m
  let z2 := Nat.xor z1 (z1 / 2 ^ 27) * 0x94D049BB133111EB % m
  Nat.xor z2 (z2 / 2 ^ 31) / 2 ^ 32 % 2 ^ 32

/-- Round by dither (R129). -/
def fdither (f : Fmt) (u : Nat) (s : Bool) (m : Nat) (e : Int) : Nat × Flags :=
  if m = 0 then (fsigned f s 0, 0)
  else
    let q := fquantum f m e
    let (n, r, k) := fshift m (e - q)
    if r = 0 then (if fmag f q n > f.maxMag then foverflow f s else (fsigned f s (fmag f q n), 0))
    else if fmag f q n ≥ f.maxMag then fround f s m e
    else (fsigned f s (fmag f q (if r * 2 ^ 24 / 2 ^ k > u / 2 ^ 8 then n + 1 else n)), 0)

/-- A rounding mode with the dither value it takes (R190). -/
inductive Rnd where
  | rne
  | dither (u : Nat)
  deriving DecidableEq, Repr

/-- A finite value into a format. -/
def froundBy (f : Fmt) (r : Rnd) (s : Bool) (m : Nat) (e : Int) : Nat × Flags :=
  match r with
  | .rne => fround f s m e
  | .dither u => fdither f u s m e

/-- A value into a format: a NaN quietened (R162), an infinity under R164, a finite value rounded. -/
def fencode (f : Fmt) (r : Rnd) : FVal → Nat × Flags
  | .nan s p => if f.hasNan then (fquiet f s p, 0) else (0, flInvalid)
  | .inf s => if f.hasInf then (finf f s, 0) else (finf f s, flSaturate)
  | .fin s m e => froundBy f r s m e

/-- The first NaN among the operands in operand order (R162). -/
def firstNan : List FVal → Option (Bool × Nat)
  | [] => none
  | .nan s p :: _ => some (s, p)
  | _ :: t => firstNan t

/-- An invalid operation (R163). -/
def finvalid (f : Fmt) : Nat × Flags := (fnan f, flInvalid)

/-- A signed dyadic as a whole number of the quantum `2 ^ e0`, `e0` not above its exponent. -/
def fint (e0 : Int) (s : Bool) (m : Nat) (e : Int) : Int :=
  let v : Int := (m * 2 ^ (e - e0).toNat : Nat)
  if s then -v else v

/-- The exact sum of two finite values; a zero sum is +0 unless both are −0 (Table 5.7). -/
def faddFin (s1 : Bool) (m1 : Nat) (e1 : Int) (s2 : Bool) (m2 : Nat) (e2 : Int) : FVal :=
  let e0 := min e1 e2
  let v := fint e0 s1 m1 e1 + fint e0 s2 m2 e2
  if v = 0 then .fin (m1 == 0 && m2 == 0 && s1 && s2) 0 e0
  else .fin (decide (v < 0)) v.natAbs e0

/-- The sum of two values that are not NaN; none where it is invalid. -/
def faddVal : FVal → FVal → Option FVal
  | .inf s, .inf t => if s = t then some (.inf s) else none
  | .inf s, _ => some (.inf s)
  | _, .inf t => some (.inf t)
  | .fin s1 m1 e1, .fin s2 m2 e2 => some (faddFin s1 m1 e1 s2 m2 e2)
  | _, _ => none

/-- The product of two values that are not NaN; none where it is invalid. -/
def fmulVal : FVal → FVal → Option FVal
  | .inf s, .inf t => some (.inf (s != t))
  | .inf s, .fin t m _ => if m = 0 then none else some (.inf (s != t))
  | .fin s m _, .inf t => if m = 0 then none else some (.inf (s != t))
  | .fin s m e, .fin t n e' => some (.fin (s != t) (m * n) (e + e'))
  | _, _ => none

/-- A value with its sign inverted. -/
def fnegVal : FVal → FVal
  | .nan s p => .nan s p
  | .inf s => .inf (!s)
  | .fin s m e => .fin (!s) m e

/-- Result of an operation: NaN operands first (R162), then the value or the invalid result (R163), into `g`. -/
def ffinish (g : Fmt) (r : Rnd) (ops : List FVal) (v : Option FVal) : Nat × Flags :=
  match firstNan ops with
  | some (s, p) => (fquiet g s p, 0)
  | none => match v with
    | none => finvalid g
    | some v => fencode g r v

def fadd (f : Fmt) (a b : Nat) : Nat × Flags :=
  ffinish f .rne [fdecode f a, fdecode f b] (faddVal (fdecode f a) (fdecode f b))
def fsub (f : Fmt) (a b : Nat) : Nat × Flags :=
  ffinish f .rne [fdecode f a, fdecode f b] (faddVal (fdecode f a) (fnegVal (fdecode f b)))
def fmul (f : Fmt) (a b : Nat) : Nat × Flags :=
  ffinish f .rne [fdecode f a, fdecode f b] (fmulVal (fdecode f a) (fdecode f b))
/-- a × b + c of values: the product exact, then the addend. -/
def ffmaVal (a b c : FVal) : Option FVal :=
  match fmulVal a b with
  | none => none
  | some p => faddVal p c
def ffma (f : Fmt) (a b c : Nat) : Nat × Flags :=
  ffinish f .rne [fdecode f a, fdecode f b, fdecode f c] (ffmaVal (fdecode f a) (fdecode f b) (fdecode f c))

/-- Order of values that are not NaN: −1, 0 or 1, with −0 equal to +0. -/
def fcmpVal : FVal → FVal → Int
  | .inf s, .inf t => b2n t - b2n s
  | .inf s, _ => if s then -1 else 1
  | _, .inf t => if t then 1 else -1
  | .fin s1 m1 e1, .fin s2 m2 e2 =>
    let e0 := min e1 e2
    let a := fint e0 s1 m1 e1
    let b := fint e0 s2 m2 e2
    if a < b then -1 else if a = b then 0 else 1
  | _, _ => 0

/-- The sign of a value. -/
def fsignVal : FVal → Bool
  | .nan s _ => s
  | .inf s => s
  | .fin s _ _ => s

/-- Minimum and maximum with min(−0, +0) = −0 (Table 5.7). -/
def fminVal (a b : FVal) : FVal :=
  let c := fcmpVal a b
  if c < 0 then a else if c > 0 then b else if fsignVal a then a else b
def fmaxVal (a b : FVal) : FVal :=
  let c := fcmpVal a b
  if c > 0 then a else if c < 0 then b else if fsignVal a then b else a
def fmin (f : Fmt) (a b : Nat) : Nat × Flags :=
  ffinish f .rne [fdecode f a, fdecode f b] (some (fminVal (fdecode f a) (fdecode f b)))
def fmax (f : Fmt) (a b : Nat) : Nat × Flags :=
  ffinish f .rne [fdecode f a, fdecode f b] (some (fmaxVal (fdecode f a) (fdecode f b)))

/-- The sign bit of a pattern cleared, inverted, or taken from another. -/
def fabsBits (f : Fmt) (a : Nat) : Nat := a % 2 ^ (f.eb + f.sb)
def fnegBits (f : Fmt) (a : Nat) : Nat := fsigned f (!bitOf a (f.eb + f.sb)) (a % 2 ^ (f.eb + f.sb))
def fcpysBits (f : Fmt) (a b : Nat) : Nat := fsigned f (bitOf b (f.eb + f.sb)) (a % 2 ^ (f.eb + f.sb))

/-- Condition codes 0–7 of R188 on floating values. -/
def fcompare (f : Fmt) (cc a b : Nat) : Bool :=
  let x := fdecode f a
  let y := fdecode f b
  let un := (firstNan [x, y]).isSome
  let c := fcmpVal x y
  match cc with
  | 0 => !un && decide (c = 0)
  | 1 => un || decide (c ≠ 0)
  | 2 => !un && decide (c < 0)
  | 3 => !un && decide (c ≤ 0)
  | 4 => !un && decide (c > 0)
  | 5 => !un && decide (c ≥ 0)
  | 6 => un
  | _ => !un

/-- Square root floored, by bits from the top. -/
def isqrtBits : Nat → Nat → Nat → Nat
  | 0, _, r => r
  | n + 1, v, r => isqrtBits n v (if (r + 2 ^ n) * (r + 2 ^ n) ≤ v then r + 2 ^ n else r)
def isqrt (v : Nat) : Nat := isqrtBits (Nat.log2 v / 2 + 1) v 0

/-- A quotient kept to well past any format's last place, its remainder as a last sticky bit. -/
def fdivFin (s : Bool) (m : Nat) (e : Int) (n : Nat) (e' : Int) : FVal :=
  .fin s (2 * (m * 2 ^ 80 / n) + b2n (m * 2 ^ 80 % n != 0)) (e - e' - 81)

def fdiv (f : Fmt) (a b : Nat) : Nat × Flags :=
  let x := fdecode f a
  let y := fdecode f b
  match x, y with
  | .fin s m e, .fin t n e' =>
    if n = 0 then (if m = 0 then finvalid f else (finf f (s != t), flDivZero))
    else if m = 0 then (fsigned f (s != t) 0, 0)
    else fencode f .rne (fdivFin (s != t) m e n e')
  | .inf s, .fin t _ _ => (finf f (s != t), 0)
  | .fin s _ _, .inf t => (fsigned f (s != t) 0, 0)
  | _, _ => ffinish f .rne [x, y] none

/-- An even power of two for a square root: mantissa and half the exponent. -/
def fevenExp (m : Nat) (e : Int) : Nat × Int :=
  if e % 2 = 0 then (m, e) else (2 * m, e - 1)

def fsqrt (f : Fmt) (a : Nat) : Nat × Flags :=
  match fdecode f a with
  | .nan s p => (fquiet f s p, 0)
  | .inf s => if s then finvalid f else (finf f false, 0)
  | .fin s m e =>
    if m = 0 then (fsigned f s 0, 0)
    else if s then finvalid f
    else
      let (n, k) := fevenExp m e
      let v := n * 2 ^ 80
      let r := isqrt v
      fround f false (2 * r + b2n (r * r != v)) (k / 2 - 41)

def frcp (f : Fmt) (a : Nat) : Nat × Flags :=
  match fdecode f a with
  | .nan s p => (fquiet f s p, 0)
  | .inf s => (fsigned f s 0, 0)
  | .fin s m e => if m = 0 then (finf f s, flDivZero) else fencode f .rne (fdivFin s 1 0 m e)

def frsq (f : Fmt) (a : Nat) : Nat × Flags :=
  match fdecode f a with
  | .nan s p => (fquiet f s p, 0)
  | .inf s => if s then finvalid f else (fsigned f false 0, 0)
  | .fin s m e =>
    if m = 0 then (finf f s, flDivZero)
    else if s then finvalid f
    else
      let (n, k) := fevenExp m e
      let v := 2 ^ 160 / n
      let r := isqrt v
      fround f false (2 * r + b2n (r * r * n != 2 ^ 160)) (-(k / 2) - 81)

/-- ln 2 in units of 2 ^ −160. -/
def ln2Fix : Nat := 1013035739299659071135698605846798551586536899366

/-- The terms y ^ k / k! from k upward, in units of 2 ^ −160. -/
def expTerms : Nat → Nat → Nat → Nat → Nat
  | 0, _, _, _ => 0
  | n + 1, k, y, t => t + expTerms n (k + 1) y (t * y / 2 ^ 160 / (k + 1))

/-- 2 ^ x rounded once. The fraction's power is taken to 160 bits with a sticky bit; a power that is not whole is
irrational, so the sticky bit decides every rounding whose distance exceeds the error (DEDUCED, assumption 8). -/
def fex2 (a : Nat) : Nat × Flags :=
  match fdecode fp32 a with
  | .nan s p => (fquiet fp32 s p, 0)
  | .inf s => if s then (0, 0) else (finf fp32 false, 0)
  | .fin s m e =>
    if m = 0 then (0x3F800000, 0)
    else if (Nat.log2 m : Int) + e ≥ 10 then
      (if s then fround fp32 false 1 (-400) else foverflow fp32 false)
    else if (Nat.log2 m : Int) + e < -60 then
      fround fp32 false (if s then 2 ^ 61 - 1 else 2 ^ 61 + 1) (-61)
    else
      let v : Int := fint (-100) s (m * 2 ^ (e + 100).toNat) (-100)
      let n : Int := v / 2 ^ 100
      let fr : Nat := (v % 2 ^ 100).toNat
      if fr = 0 then fround fp32 false 1 n
      else fround fp32 false (2 * expTerms 50 0 (fr * 2 ^ 60 * ln2Fix / 2 ^ 160) (2 ^ 160) + 1) (n - 161)

/-- The terms z ^ (2k + 1) / (2k + 1) in units of 2 ^ −160. -/
def atanhTerms : Nat → Nat → Nat → Nat → Nat
  | 0, _, _, _ => 0
  | n + 1, k, z2, t => t / (2 * k + 1) + atanhTerms n (k + 1) z2 (t * z2 / 2 ^ 160)

/-- log2 of 1 ≤ m / 2 ^ 23 < 2 in units of 2 ^ −160, by ln m = 2 atanh((m − 1) / (m + 1)). -/
def log2Frac (m : Nat) : Nat :=
  let z := (m - 2 ^ 23) * 2 ^ 160 / (m + 2 ^ 23)
  2 * atanhTerms 60 0 (z * z / 2 ^ 160) z * 2 ^ 160 / ln2Fix

/-- log2 x rounded once (DEDUCED, assumption 8). -/
def flg2 (a : Nat) : Nat × Flags :=
  match fdecode fp32 a with
  | .nan s p => (fquiet fp32 s p, 0)
  | .inf s => if s then finvalid fp32 else (finf fp32 false, 0)
  | .fin s m e =>
    if m = 0 then (finf fp32 true, flDivZero)
    else if s then finvalid fp32
    else
      let l := Nat.log2 m
      let n : Int := (l : Int) + e
      let mm := m * 2 ^ (23 - l)
      if mm = 2 ^ 23 then fround fp32 (decide (n < 0)) n.natAbs 0
      else
        let v : Int := n * 2 ^ 160 + (log2Frac mm : Int)
        fround fp32 (decide (v < 0)) (2 * v.natAbs + 1) (-161)

/-- A value rounded to an integer, to nearest even or toward zero. -/
def froundInt (toZero : Bool) (s : Bool) (m : Nat) (e : Int) : Int :=
  let (n, r, k) := fshift m e
  let up := !toZero && (2 * r > 2 ^ k || (2 * r == 2 ^ k && k != 0 && n % 2 == 1))
  let v : Int := (if up then n + 1 else n : Nat)
  if s then -v else v

/-- Floating point to an integer from `lo` to `hi`, clamping (R165). -/
def ftoInt (f : Fmt) (toZero : Bool) (lo hi : Int) (a : Nat) : Int × Flags :=
  match fdecode f a with
  | .nan _ _ => (0, flInvalid)
  | .inf s => (if s then lo else hi, flSaturate)
  | .fin s m e =>
    let v := froundInt toZero s m e
    if v < lo then (lo, flSaturate) else if v > hi then (hi, flSaturate) else (v, 0)

/-- An integer to a format, to nearest even. -/
def fofInt (f : Fmt) (v : Int) : Nat × Flags := fround f (decide (v < 0)) v.natAbs 0

/-- A conversion between formats (R162, R164, R129). -/
def fconvert (g f : Fmt) (r : Rnd) (a : Nat) : Nat × Flags :=
  match fdecode f a with
  | .nan s p => (fquiet g s p, 0)
  | .inf s => if g.hasInf then (finf g s, 0) else (finf g s, flSaturate)
  | v => fencode g r v

/-! ### MX (R166, R167) -/

/-- The exponent that R166 takes off the block's largest magnitude. -/
def mxEmax (f : Fmt) : Nat := if f.eb = 3 then 4 else 2

/-- Whether a value is a NaN or an infinity. -/
def fnonfin : FVal → Bool
  | .fin _ _ _ => false
  | _ => true

/-- floor(log2 |x|) of a finite value, none at 0. -/
def flogMag : FVal → Option Int
  | .fin _ m e => if m = 0 then none else some ((Nat.log2 m : Int) + e)
  | _ => none

/-- The largest of the exponents present. -/
def maxExp : List FVal → Option Int
  | [] => none
  | v :: t => match flogMag v, maxExp t with
    | none, r => r
    | some a, none => some a
    | some a, some b => some (if a < b then b else a)

/-- The E8M0 scale of a block of FP32 values; none for a NaN block. -/
def mxScale (f : Fmt) (xs : List FVal) : Option Nat :=
  if xs.any fnonfin then none
  else
    let e : Int := match maxExp xs with
      | none => -127
      | some l => l - mxEmax f
    some ((if e < -127 then -127 else if e > 127 then 127 else e) + 127).toNat

/-- One value as an element under a scale that is not 0xFF (R166). -/
def mxElem (f : Fmt) (scale : Nat) (r : Rnd) : FVal → Nat × Flags
  | .nan _ _ => (0, flInvalid)
  | .inf s => (finf f s, flSaturate)
  | .fin s m e => froundBy f r s m (e - ((scale : Int) - 127))

/-- The value of an element code under a scale (R167), as FP32. -/
def mxValue (f : Fmt) (scale code : Nat) : Nat × Flags :=
  if scale = 255 then (fnan fp32, 0)
  else match fdecode f (code % 2 ^ fmtWidth f) with
    | .fin s m e => fround fp32 s m (e + ((scale : Int) - 127))
    | _ => (fnan fp32, 0)

/-! ### Tallies (R121-R126) -/

/-- The pattern INVALID. -/
def tallyInvalid : Nat := 2 ^ 127

/-- Whether a window-top exponent is legal (R121). -/
def windowOk (b : Int) : Bool := decide (-160 ≤ b) && decide (b ≤ 127)

/-- A value into a tally (R122). -/
def toTally (b : Int) : FVal → Nat × Flags
  | .fin s m e =>
    if m = 0 then (0, 0)
    else if (Nat.log2 m : Int) + e ≥ b + 1 then (tallyInvalid, flTallyIn)
    else
      let t := (fshift m (e + 95 - b)).1
      (wrapTo 128 (if s then -(t : Int) else t), 0)
  | _ => (tallyInvalid, flTallyIn)

/-- Tally addition (R123). -/
def tallyAdd (x y : Nat) : Nat :=
  if x % 2 ^ 128 = tallyInvalid || y % 2 ^ 128 = tallyInvalid then tallyInvalid
  else
    let t := sextOf 128 x + sextOf 128 y
    if t < -(2 ^ 127 : Int) + 1 || t > (2 ^ 127 : Int) - 1 then tallyInvalid else wrapTo 128 t

/-- Tally negation (Table 6.10). -/
def tallyNeg (x : Nat) : Nat := if x % 2 ^ 128 = tallyInvalid then tallyInvalid else wrapTo 128 (-(sextOf 128 x))

/-- A tally out to a format (R125). -/
def fromTally (f : Fmt) (b : Int) (x : Nat) : Nat × Flags :=
  if x % 2 ^ 128 = tallyInvalid then (fnan f, flTallyRange)
  else
    let v := sextOf 128 x
    if v = 0 then (0, 0) else fround f (decide (v < 0)) v.natAbs (b - 95)

/-! ### Dot products (R153-R155) -/

/-- One product's operands: both values and whether either block scale is 0xFF, with the power of two of the scales. -/
structure DotTerm where
  a : FVal
  b : FVal
  badScale : Bool
  sc : Int
  deriving DecidableEq, Repr

/-- The infinite products of a chunk, by sign: (some positive, some negative, some invalid). -/
def dotSpecial : List DotTerm → Bool × Bool × Bool
  | [] => (false, false, false)
  | t :: r =>
    let (p, n, i) := dotSpecial r
    match fmulVal t.a t.b with
    | none => (p, n, true)
    | some (.inf s) => if s then (p, true, i) else (true, n, i)
    | _ => (p, n, i)

/-- The NaN operands of a chunk in order. -/
def dotOps : List DotTerm → List FVal
  | [] => []
  | t :: r => t.a :: t.b :: dotOps r

/-- The least power of two of the finite products. -/
def dotMinExp : List DotTerm → Int
  | [] => 0
  | t :: r => match fmulVal t.a t.b with
    | some (.fin _ _ e) => min (e + t.sc) (dotMinExp r)
    | _ => dotMinExp r

/-- The exact sum of the finite products in units of `2 ^ e0`. -/
def dotSum (e0 : Int) : List DotTerm → Int
  | [] => 0
  | t :: r => match fmulVal t.a t.b with
    | some (.fin s m e) => fint e0 s m (e + t.sc) + dotSum e0 r
    | _ => dotSum e0 r

/-- The chunk sum s of R154, an FP32 pattern. -/
def dotChunk (ts : List DotTerm) : Nat × Flags :=
  match firstNan (dotOps ts) with
  | some (s, p) => (fquiet fp32 s p, 0)
  | none =>
    if ts.any (·.badScale) then finvalid fp32
    else
      let (p, n, i) := dotSpecial ts
      if i || (p && n) then finvalid fp32
      else if p then (finf fp32 false, 0)
      else if n then (finf fp32 true, 0)
      else
        let e0 := dotMinExp ts
        let v := dotSum e0 ts
        if v = 0 then (0, 0) else fround fp32 (decide (v < 0)) v.natAbs e0

end Sys2Proof.Machine
end

