-- ==== Sys2Proof/Machine/SiteMem.lean ====
section
/-!
DEFINITION. Sys2Proof/Machine/SiteMem.lean: the data path of a memory site: the rows of its memory (R298), checked reads,
writes and adds by granule (R308-R314, R508), inline encryption (R315), and repair candidates and retirement (R316-R320).
-/

namespace Sys2Proof.Machine

def State.site (s : State) (i : Nat) : Site := tabGet {} s.sites i
def State.setSite (s : State) (i : Nat) (v : Site) : State := { s with sites := tabSet {} s.sites i v }

/-! ### Geometry (Table 10.1, R298) -/

/-- GEN of a site: HBM3E 0, HBM4 1; LPDDR5X 0, LPDDR6 1. -/
def State.siteGen (s : State) (i : Nat) : Nat := s.fld (MEM.STATUS i) MEM.STATUS_GEN
def State.siteUnits (s : State) (i : Nat) : Nat :=
  if i < 16 then (if s.siteGen i = 1 then 64 else 32) else (if s.siteGen i = 1 then 6 else 4)
/-- Granules in a row of one unit. -/
def State.siteCols (s : State) (i : Nat) : Nat := if 16 ≤ i && s.siteGen i = 0 then 32 else 16
/-- Whether the site stores check bits of its own (R308). -/
def State.siteEcc (s : State) (i : Nat) : Bool := decide (i < 16) || s.siteGen i == 1

/-- The row of a site offset. -/
def State.siteRow (s : State) (i off : Nat) : Nat :=
  let n := s.siteUnits i
  let g := off / 64
  g % n + n * (g / n / s.siteCols i)

/-- The first site offset of a row and the offset of its last granule. -/
def State.rowFirst (s : State) (i row : Nat) : Nat :=
  let n := s.siteUnits i
  64 * (row / n * s.siteCols i * n + row % n)
def State.rowLast (s : State) (i row : Nat) : Nat :=
  let n := s.siteUnits i
  64 * ((row / n * s.siteCols i + s.siteCols i - 1) * n + row % n)

/-! ### The error log -/

/-- ERR_LOG: the first fault's fields, or OVERFLOW while VALID is 1 (Table 10.8). -/
def State.siteLog (s : State) (i off cause : Nat) : State :=
  let r := MEM.ERR_LOG i
  if s.flag r MEM.ERR_LOG_VALID then s.setFlag r MEM.ERR_LOG_OVERFLOW true
  else ((s.setFld r MEM.ERR_LOG_OFFSET (off / 64 * 64)).setFld r MEM.ERR_LOG_CAUSE cause).setFlag r MEM.ERR_LOG_VALID true

/-! ### Retirement (R319, R320) -/

/-- Whether a site tile is retired. -/
def Site.retiredTile (v : Site) (tile : Nat) : Bool := v.retired.any fun r => decide (r.1 ≤ tile) && decide (tile < r.1 + r.2)

/-- The first free entry of RETIRE_LIST. -/
def State.retireSlot (s : State) (i : Nat) : Option Nat :=
  (List.range 256).find? fun m => !s.flag (MEM.RETIRE_LIST i m) MEM.RETIRE_LIST_VALID

/-- Retire a row: its tiles, the list, the record, the interrupt, and DEGRADED past the threshold. -/
def State.retireRow (s : State) (i row : Nat) : State :=
  let first := s.rowFirst i row / 4096
  let count := s.rowLast i row / 4096 - first + 1
  let v := s.site i
  let fresh := ((List.range count).filter fun k => !v.retiredTile (first + k)).length
  let s := s.setSite i { v with retired := v.retired ++ [(first, count)] }
  let s := s.satFld (MEM.RETIRE i) MEM.RETIRE_RETIRED_TILES fresh
  let entry := first * 4096 + count * 2 ^ 37 + 2 ^ 63
  let s := match s.retireSlot i with
    | some m => s.setReg (MEM.RETIRE_LIST i m) (BitVec.ofNat 64 entry)
    | none => s
  let s := (s.event kRETIRE 0 (srcSite i) 0 entry [BitVec.ofNat 8 i]).raise iRETIRE
  if s.fld (MEM.RETIRE i) MEM.RETIRE_RETIRED_TILES > s.fld (MEM.RETIRE_THRESHOLD i) MEM.RETIRE_THRESHOLD_TILES then
    (s.setFlag (MEM.STATUS i) MEM.STATUS_DEGRADED true).degrade 8
  else s

/-- A row becomes a repair candidate (R316): queued, or retired at once while the queue is full. -/
def State.repairCandidate (s : State) (i row : Nat) : State :=
  let v := s.site i
  if v.queue.contains row || v.retiredTile (s.rowFirst i row / 4096) then s
  else if 32 ≤ v.queue.length then s.retireRow i row
  else
    let s := s.setSite i { v with queue := v.queue ++ [row] }
    (s.setFld (MEM.STATUS i) MEM.STATUS_REPAIR_QUEUED (v.queue.length + 1)).setFlag (MEM.STATUS i) MEM.STATUS_REPAIR_WAIT true

/-! ### Words and granules -/

/-- The class of a stored error of the word at a DPA, none where the site keeps no check bits. -/
def State.siteWordErr (s : State) (i wd : Nat) : Nat := if s.siteEcc i then tabGet 0 s.wordErr wd else 0

/-- An uncorrectable word found (R310): counter, logs, candidate; `alone` when no requester receives it (R508). -/
def State.siteUe (s : State) (i wd : Nat) (alone : Bool) : State :=
  let off := 8 * wd - siteBase i
  let s := (s.satFld (MEM.ECC_UE_COUNT i) MEM.ECC_UE_COUNT_VALUE 1).siteLog i off 2
  let s := (s.busError cUNCORRECTABLE (srcSite i) 0 (8 * wd)).countUe 1
  let s := s.repairCandidate i (s.siteRow i off)
  if alone then s.raise iUNCORRECTABLE else s

/-- A corrected word (R308). -/
def State.siteCe (s : State) (i wd : Nat) : State :=
  let s := (s.satFld (MEM.ECC_CE_COUNT i) MEM.ECC_CE_COUNT_VALUE 1).siteLog i (8 * wd - siteBase i) 1
  s.event kCORRECTED 0 (srcSite i) 0 (8 * wd) []

/-- The eight words of a granule. -/
def granuleWords (g : Nat) : List Nat := (List.range 8).map (8 * g + ·)

/-- The plaintext of granule `g` (DPA / 64) under a key. -/
def State.granule (s : State) (i key g : Nat) : List Byte :=
  let raw := s.bytes (64 * g) 64
  if key = 0 then raw else xtsGranule false (tabGet 0 (s.site i).keys key) (64 * g) raw

/-- Store the plaintext of a granule, encrypted under its key; its words read correctly again. -/
def State.putGranule (s : State) (i key g : Nat) (l : List Byte) : State :=
  let raw := if key = 0 then l else xtsGranule true (tabGet 0 (s.site i).keys key) (64 * g) l
  let s := { s with wordErr := s.wordErr.filter fun e => !(granuleWords g).contains e.1 }
  s.putBytes (64 * g) raw

/-- The granules that `n` bytes from a DPA touch. -/
def granulesOf (dpa n : Nat) : List Nat := if n = 0 then [] else (List.range ((dpa + n - 1) / 64 - dpa / 64 + 1)).map (dpa / 64 + ·)

/-- Corrected words of a granule. -/
def State.granuleCes (s : State) (i g : Nat) : State :=
  (granuleWords g).foldl (fun s wd => if s.siteWordErr i wd = 1 then s.siteCe i wd else s) s

/-- Whether a word overlaps a range of bytes, or lies wholly inside it. -/
def wordTouches (wd dpa n : Nat) : Bool := decide (8 * wd < dpa + n) && decide (dpa < 8 * wd + 8)
def wordInside (wd dpa n : Nat) : Bool := decide (dpa ≤ 8 * wd) && decide (8 * wd + 8 ≤ dpa + n)

/-- The check of a granule that a read requests bytes of: uncorrectable words in those bytes fail it; others are handled
as scrub findings (R508). -/
def State.granuleCheck (s : State) (i g dpa n : Nat) : State × Bool :=
  let s := s.granuleCes i g
  (granuleWords g).foldl (fun (r : State × Bool) wd =>
    if r.1.siteWordErr i wd = 2 then
      if wordTouches wd dpa n then (r.1.siteUe i wd false, true) else (r.1.siteUe i wd true, r.2)
    else r) (s, false)

/-! ### Accesses -/

/-- Why a site refuses an access before it touches memory (R32, R298, R315, R319, R322); 0 when it does not. -/
def State.siteRefuses (s : State) (i dpa n key : Nat) : Nat :=
  let off := dpa - siteBase i
  let v := s.site i
  if !s.flag (MEM.STATUS i) MEM.STATUS_PRESENT || !s.siteEnabled i || decide (s.siteBytes i < off + n) then cDECODE
  else if !bitOf (s.reg (MEM.KEY_VALID i)).toNat key then cKEY_INVALID
  else if (List.range ((off + n - 1) / 4096 - off / 4096 + 1)).any fun k => v.retiredTile (off / 4096 + k) then cRETIRED
  else 0

/-- The log of a refusal: KEY_INVALID and RETIRED stand in ERR_LOG, and every one in the guestbook. -/
def State.siteRefuse (s : State) (i dpa cause : Nat) : State :=
  let off := dpa - siteBase i
  let s := if cause = cKEY_INVALID then s.siteLog i off 4 else if cause = cRETIRED then s.siteLog i off 5 else s
  s.busError cause (srcSite i) 0 dpa

/-- Read `n` bytes of a site: the state, the cause (0: OK) and the bytes. -/
def State.siteRead (s : State) (i dpa n key : Nat) : State × Nat × List Byte :=
  let why := s.siteRefuses i dpa n key
  if why ≠ 0 then (s.siteRefuse i dpa why, why, [])
  else
    let gs := granulesOf dpa n
    let (s', bad) := gs.foldl (fun (r : State × Bool) g =>
      let (t, b) := r.1.granuleCheck i g dpa n
      (t, r.2 || b)) (s, false)
    let all := gs.flatMap fun g => s.granule i key g
    (s', if bad then cUNCORRECTABLE else 0, (all.drop (dpa % 64)).take n)

/-- One granule of a write (R508): written, or left unchanged when an uncorrectable word of it is only partly covered. -/
def State.siteWriteGranule (s : State) (i key g dpa : Nat) (data : List Byte) : State × Bool :=
  let n := data.length
  let lo := 64 * g - dpa
  let pre := dpa - 64 * g
  if dpa ≤ 64 * g && 64 * g + 64 ≤ dpa + n then (s.putGranule i key g ((data.drop lo).take 64), false)
  else
    let s := s.granuleCes i g
    match (granuleWords g).filter fun wd => s.siteWordErr i wd == 2 && !wordInside wd dpa n with
    | wd :: wds => ((wd :: wds).foldl (fun s wd => s.siteUe i wd false) s, true)
    | [] =>
      let old := s.granule i key g
      let part := (data.drop lo).take (64 - pre)
      (s.putGranule i key g (old.take pre ++ part ++ old.drop (pre + part.length)), false)

/-- Write bytes at a site: the state and the cause. -/
def State.siteWrite (s : State) (i dpa key : Nat) (data : List Byte) : State × Nat :=
  let why := s.siteRefuses i dpa data.length key
  if why ≠ 0 then (s.siteRefuse i dpa why, why)
  else
    let (s, bad) := (granulesOf dpa data.length).foldl (fun (r : State × Bool) g =>
      let (t, b) := r.1.siteWriteGranule i key g dpa data
      (t, r.2 || b)) (s, false)
    (s, if bad then cUNCORRECTABLE else 0)

/-! ### Memory-side adds (R312-R314) -/

/-- The element size of an add type (Table 7.10). -/
def addSize : Nat → Nat
  | 0 => 4
  | 1 => 2
  | 2 => 4
  | 3 => 8
  | _ => 16

/-- The sum of a memory element and an addend. -/
def addElem (ty m a : Nat) : Nat :=
  match ty with
  | 0 => (fadd fp32 m a).1
  | 1 => (fadd bf16 m a).1
  | 2 => (m + a) % 2 ^ 32
  | 3 => (m + a) % 2 ^ 64
  | _ => tallyAdd m a

/-- Elements added, `k` of them, in ascending order. -/
def addElems (ty : Nat) : Nat → List Byte → List Byte → List Byte
  | 0, _, _ => []
  | k + 1, m, a =>
    let z := addSize ty
    leBytes z (addElem ty (leVal (m.take z)) (leVal (a.take z))) ++ addElems ty k (m.drop z) (a.drop z)

/-- One granule of an add: applied, or left unchanged when its read finds an uncorrectable word. -/
def State.siteAddGranule (s : State) (i key ty g dpa : Nat) (data : List Byte) : State × Bool :=
  let pre := dpa - 64 * g
  let part := (data.drop (64 * g - dpa)).take (64 - pre)
  let s := s.granuleCes i g
  match (granuleWords g).filter fun wd => s.siteWordErr i wd == 2 with
  | wd :: wds => ((wd :: wds).foldl (fun s wd => s.siteUe i wd false) s, true)
  | [] =>
    let old := s.granule i key g
    let k := part.length / addSize ty
    let sum := addElems ty k ((old.drop pre).take part.length) part
    ((s.putGranule i key g (old.take pre ++ sum ++ old.drop (pre + part.length))).bump (MEM.ADD_COUNT i) k, false)

/-- An add of elements at a site: the state and the cause. -/
def State.siteAdd (s : State) (i dpa key ty : Nat) (data : List Byte) : State × Nat :=
  let why := s.siteRefuses i dpa data.length key
  if why ≠ 0 then (s.siteRefuse i dpa why, why)
  else if dpa % addSize ty ≠ 0 || data.length % addSize ty ≠ 0 then (s.siteRefuse i dpa cADD_ALIGN, cADD_ALIGN)
  else
    let (s, bad) := (granulesOf dpa data.length).foldl (fun (r : State × Bool) g =>
      let (t, b) := r.1.siteAddGranule i key ty g dpa data
      (t, r.2 || b)) (s, false)
    (s, if bad then cUNCORRECTABLE else 0)

end Sys2Proof.Machine
end

