-- ==== Sys2Proof/Machine/Now.lean ====
section
/-!
DEFINITION. Sys2Proof/Machine/Now.lean: accesses that a unit of the steward complex makes as part of one event (fault
records, semaphore words, images, evidence): their slots and mesh hops are timing (assumption 16), their checks and effects
are those of the target.
-/

namespace Sys2Proof.Machine

/-- A write TLP to the host window (R34, R451): refused while bus mastering is disabled. -/
def State.hostWrite (s : State) (off : Nat) (data : List Byte) (relaxed : Bool) : State × Nat :=
  if !s.flag PCIE.STATUS PCIE.STATUS_BME then (s, cHOST_ABORT)
  else (s.pcieSend (.write ((s.fld PCIE.HOST_BASE PCIE.HOST_BASE_BASE + off) % 2 ^ 64) data relaxed), 0)

/-- Read inside one tile of the buffer, or another memory. -/
def State.readOne (s : State) (dpa n : Nat) : State × Nat × List Byte :=
  match targetOf dpa with
  | .buffer => s.bufRead dpa n false
  | .site i _ => s.siteRead i dpa n 0
  | .porterMem p => if s.porterUp p then (s, 0, s.bytes dpa n) else (s, cDECODE, [])
  | .hostelStore h => if s.hostelUp h then (s, 0, s.bytes dpa n) else (s, cDECODE, [])
  | _ => (s, cDECODE, [])

/-- Read `n` bytes tile by tile; the fuel is the number of tiles. -/
def State.readTiles (s : State) : Nat → Nat → Nat → State × Nat × List Byte
  | 0, _, _ => (s, 0, [])
  | k + 1, dpa, n =>
    if n = 0 then (s, 0, [])
    else
      let m := min n (4096 - dpa % 4096)
      let (s, c, d) := s.readOne dpa m
      if c ≠ 0 then (s, c, [])
      else
        let (s, c, r) := s.readTiles k (dpa + m) (n - m)
        (s, c, d ++ r)

/-- Read `n` bytes of memory. -/
def State.readNow (s : State) (dpa n : Nat) : State × Nat × List Byte := s.readTiles (n / 4096 + 2) dpa n

/-- Write bytes inside one tile. -/
def State.writeOne (s : State) (dpa : Nat) (data : List Byte) : State × Nat :=
  match targetOf dpa with
  | .buffer => s.bufPut dpa data
  | .site i _ => s.siteWrite i dpa 0 data
  | .porterMem p => if s.porterUp p then (s.putBytes dpa data, 0) else (s, cDECODE)
  | .hostelStore h => if s.hostelUp h then (s.putBytes dpa data, 0) else (s, cDECODE)
  | .hostWindow off => s.hostWrite off data false
  | _ => (s, cDECODE)

def State.writeTiles (s : State) : Nat → Nat → List Byte → State × Nat
  | 0, _, _ => (s, 0)
  | k + 1, dpa, data =>
    if data.isEmpty then (s, 0)
    else
      let m := min data.length (4096 - dpa % 4096)
      let (s, c) := s.writeOne dpa (data.take m)
      if c ≠ 0 then (s, c) else s.writeTiles k (dpa + m) (data.drop m)

/-- Write bytes of memory. -/
def State.writeNow (s : State) (dpa : Nat) (data : List Byte) : State × Nat := s.writeTiles (data.length / 4096 + 2) dpa data

end Sys2Proof.Machine
end

