-- ==== Sys2Proof/Machine/HostelWord.lean ====
section
/-!
DEFINITION. Sys2Proof/Machine/HostelWord.lean: the fields of a hostel instruction word and the encodings that are
legal (R181-R184, and the field rules of R186-R201).
An operand field that an instruction does not use is ignored unless its rule says that it must be 0.
-/

namespace Sys2Proof.Machine

/-! ### Fields (Tables 6.1 and 6.2) -/

def hwClass (w : W64) : Nat := bitsOf w.toNat 3 0
def hwFunc (w : W64) : Nat := bitsOf w.toNat 11 4
def hwGE (w : W64) : Bool := bitOf w.toNat 12
def hwGN (w : W64) : Bool := bitOf w.toNat 13
def hwGP (w : W64) : Nat := bitsOf w.toNat 16 14
def hwD (w : W64) : Nat := bitsOf w.toNat 23 17
def hwA (w : W64) : Nat := bitsOf w.toNat 30 24
/-- B of formats R and L. -/
def hwB (w : W64) : Nat := bitsOf w.toNat 37 31
/-- C of format R, and S of format L. -/
def hwC (w : W64) : Nat := bitsOf w.toNat 44 38
def hwMod (w : W64) : Nat := bitsOf w.toNat 56 45
def hwImm (w : W64) : Nat := bitsOf w.toNat 63 32
def hwRank (w : W64) : Nat := bitsOf w.toNat 33 31
/-- B and C of format M. -/
def hwMB (w : W64) : Nat := bitsOf w.toNat 40 34
def hwMC (w : W64) : Nat := bitsOf w.toNat 47 41
def hwOff (w : W64) : Int := sextOf 16 (bitsOf w.toNat 63 48)
def hwMA (w : W64) : Nat := bitsOf w.toNat 27 24
def hwMBt (w : W64) : Nat := bitsOf w.toNat 31 28
def hwFA (w : W64) : Nat := bitsOf w.toNat 34 32
def hwFB (w : W64) : Nat := bitsOf w.toNat 37 35
def hwZ (w : W64) : Bool := bitOf w.toNat 38
def hwN (w : W64) : Nat := bitsOf w.toNat 51 45
def hwFI (w : W64) : Bool := bitOf w.toNat 52
def hwFO (w : W64) : Bool := bitOf w.toNat 53
def hwDTH (w : W64) : Bool := bitOf w.toNat 54
def hwDV (w : W64) : Nat := bitsOf w.toNat 61 55
def hwBP (w : W64) : Nat := bitsOf w.toNat 26 24
def hwBN (w : W64) : Bool := bitOf w.toNat 27
def hwTarget (w : W64) : Nat := bitsOf w.toNat 42 28
def hwRejoin (w : W64) : Nat := bitsOf w.toNat 57 43
def hwK (w : W64) : Nat := bitsOf w.toNat 33 31
def hwSRank (w : W64) : Nat := bitsOf w.toNat 36 34
def hwImm24 (w : W64) : Nat := bitsOf w.toNat 63 40
/-- The window-top exponent of a tally conversion (R192). -/
def hwWindow (w : W64) : Int := sextOf 9 (hwMod w)
def hwTFmt (w : W64) : Nat := bitsOf (hwMod w) 10 9

/-- The floating format that a two-bit field selects: FP32, BF16, FP16. -/
def fmtSel : Nat → Option Fmt
  | 0 => some fp32
  | 1 => some bf16
  | 2 => some fp16
  | _ => none

/-- The width class of an MDOT format (Table 5.3). -/
def dotClass : Nat → Nat
  | 0 | 1 => 0
  | 2 | 3 => 1
  | 4 => 2
  | _ => 3

/-- Special registers that MOVS reads (Table 6.4). -/
def sregListed (n : Nat) : Bool := n ≤ 0x10 || n == 0x12 || n == 0x14 || n == 0x16
/-- Special registers of 64 bits. -/
def sregWide (n : Nat) : Bool := n ≥ 0x10

/-! ### Legality, class by class (R182) -/

/-- Reserved bits 63:57 of format R are 0. -/
def resR (w : W64) : Bool := bitsOf w.toNat 63 57 == 0
/-- The guard is off in the classes that take none (R183). -/
def noGuard (w : W64) : Bool := !hwGE w

def legalInt (w : W64) : Bool := decide (hwFunc w ≤ 0x16) && resR w
def legalIntImm (w : W64) : Bool :=
  decide (hwFunc w ≤ 0x16) && hwFunc w != 0x07 && hwFunc w != 0x15 && !bitOf w.toNat 31
def legalCmp (w : W64) : Bool :=
  let f := hwFunc w
  let predD := decide (hwD w < 8)
  if f / 16 = 8 || f / 16 = 9 then decide (f % 16 ≤ 5) && predD && !bitOf w.toNat 31
  else resR w && (
    if f / 16 = 0 || f / 16 = 1 then decide (f % 16 ≤ 5) && predD
    else if f / 16 = 2 then decide (f % 16 ≤ 7) && predD && (fmtSel (hwMod w % 4)).isSome
    else if f = 0x3A then true
    else (f == 0x30 || f == 0x31 || f == 0x32 || f == 0x33 || f == 0x38 || f == 0x39) && predD)
def legalFloat (w : W64) : Bool := decide (hwFunc w ≤ 8) && resR w && (fmtSel (hwMod w % 4)).isSome
def legalSfu (w : W64) : Bool :=
  resR w && (decide (hwFunc w ≤ 5) || (decide (0x10 ≤ hwFunc w) && decide (hwFunc w ≤ 0x13)))
/-- The rounding modes and the positions that a conversion takes (R190). -/
def legalCvt (w : W64) : Bool :=
  let f := hwFunc w
  let rm := hwMod w % 4
  let pos := hwMod w / 4 % 4
  let rmOk := if f = 0x08 || f = 0x09 then decide (rm ≤ 1)
    else if f = 0x00 || f = 0x02 || f = 0x03 || f = 0x10 || f = 0x11 || f = 0x12 then rm == 0 || (rm == 2 && hwC w % 2 == 0)
    else rm == 0
  let posOk := if f = 0x00 || f = 0x01 || f = 0x04 || f = 0x05 then decide (pos ≤ 1)
    else if f = 0x02 || f = 0x03 || f = 0x06 || f = 0x07 then true
    else pos == 0
  resR w && (decide (f ≤ 0x0B) || f == 0x10 || f == 0x11 || f == 0x12 || (f == 0x14 && hwMod w / 16 % 4 != 3)) && rmOk && posOk
def legalTally (w : W64) : Bool :=
  let f := hwFunc w
  let q := fun (n : Nat) => n % 4 == 0
  resR w && hwTFmt w != 3 && (
    if f = 0 then q (hwD w)
    else if f = 1 then q (hwD w) && q (hwA w) && q (hwB w)
    else if f = 2 then q (hwA w) && decide (hwTFmt w ≤ 1)
    else if f = 3 then q (hwD w) && q (hwA w)
    else f == 4 && q (hwA w) && decide (hwD w < 8))
def legalLdSt (w : W64) : Bool :=
  let f := hwFunc w
  decide (hwRank w ≤ 4) && hwMB w == 0 && hwMC w == 0 &&
    (if f = 0x05 || f = 0x13 then hwD w % 2 == 0
     else if f = 0x06 || f = 0x14 then hwD w % 4 == 0
     else decide (f ≤ 0x04) || (decide (0x10 ≤ f) && decide (f ≤ 0x12)))
def legalAtom (w : W64) : Bool :=
  let f := hwFunc w
  decide (hwRank w ≤ 4) &&
    (if f = 0x0B then hwD w % 4 == 0 && hwMB w % 4 == 0
     else if f = 0x11 then hwD w == 0
     else decide (f ≤ 0x0A) || f == 0x10)
def legalTile (w : W64) : Bool :=
  let f := hwFunc w
  noGuard w && (
    if f ≤ 1 then decide (hwRank w ≤ 4) && decide (hwD w < 16)
    else resR w && decide (f ≤ 5) && (f == 4 || decide (hwD w < 16)))
def legalDot (w : W64) : Bool :=
  noGuard w && hwFunc w == 0 && bitsOf w.toNat 63 39 == 0 && decide (hwD w < 16) && dotClass (hwFA w) == dotClass (hwFB w)
def legalLane (w : W64) : Bool :=
  noGuard w && decide (hwFunc w ≤ 6) && bitsOf w.toNat 63 62 == 0 &&
    (if hwDTH w then !hwFO w && hwDV w % 2 == 0 else hwDV w == 0)
def legalCtrl (w : W64) : Bool :=
  let f := hwFunc w
  noGuard w && decide (f ≤ 7) && bitsOf w.toNat 63 58 == 0 &&
    (f == 1 || (hwBP w == 0 && !hwBN w && hwRejoin w == 0)) &&
    (f == 3 || f == 4 || hwD w == 0) &&
    (!(f == 2 || f == 4 || f == 5) || hwTarget w / 128 == 0)
def legalSync (w : W64) : Bool :=
  noGuard w && decide (hwFunc w ≤ 7) && bitsOf w.toNat 39 37 == 0 &&
    (if hwFunc w = 6 then decide (hwSRank w ≤ 4) else hwSRank w == 0)
def legalSpecial (w : W64) : Bool :=
  resR w && hwB w == 0 && hwC w == 0 && hwMod w == 0 &&
    (if hwFunc w = 0 then sregListed (hwA w) && (!sregWide (hwA w) || hwD w % 2 == 0)
     else hwFunc w == 1 && hwD w == 0x0A)

/-- Whether an issued word is legal (R182). -/
def hostelLegal (w : W64) : Bool :=
  match hwClass w with
  | 0x0 => legalInt w
  | 0x1 => legalIntImm w
  | 0x2 => legalCmp w
  | 0x3 => legalFloat w
  | 0x4 => legalSfu w
  | 0x5 => legalCvt w
  | 0x6 => legalTally w
  | 0x7 => legalLdSt w
  | 0x8 => legalAtom w
  | 0x9 => legalTile w
  | 0xA => legalDot w
  | 0xB => legalLane w
  | 0xC => legalCtrl w
  | 0xD => legalSync w
  | 0xE => legalSpecial w
  | _ => false

/-- A tally conversion whose window-top exponent is out of range (R121). -/
def hostelBadWindow (w : W64) : Bool :=
  hwClass w == 0x6 && (hwFunc w == 0 || hwFunc w == 2) && !windowOk (hwWindow w)

/-- A word that uses an MX format or tally mode (R8): 1 MX, 2 tally, 0 neither. -/
def hostelFeature (w : W64) : Nat :=
  match hwClass w with
  | 0x5 => if hwFunc w ≥ 0x10 then 1 else 0
  | 0x6 => 2
  | 0x8 => if hwFunc w = 0x0B then 2 else 0
  | 0xA => if hwFA w ≥ 5 then 1 else 0
  | _ => 0

/-- The instructions of the hostel, each the words of one row of the opcode table: the classes it stands in and its
function values. -/
structure HOp where
  cls : Nat
  func : Nat
  deriving DecidableEq, Repr

/-- The row that a word belongs to: immediate forms join the register form, and the condition of a compare is no
part of the row. -/
def hwOp (w : W64) : HOp :=
  let c := hwClass w
  let f := hwFunc w
  if c = 1 then ⟨0, f⟩
  else if c = 2 && (f / 16 == 8) then ⟨2, 0⟩
  else if c = 2 && (f / 16 == 9) then ⟨2, 0x10⟩
  else if c = 2 && f < 0x30 then ⟨2, f / 16 * 16⟩
  else ⟨c, f⟩

/-! ### The registers that an instruction names, for the scoreboard (R139) -/

def regRun (r n : Nat) : List Nat := (List.range n).map fun i => (r + i) % 128

/-- Thread registers that a legal word reads or writes (R139). -/
def hwRegs (w : W64) : List Nat :=
  let f := hwFunc w
  let d := hwD w
  let a := hwA w
  match hwClass w with
  | 0x0 => d :: ((if f = 0x14 then [] else [a]) ++ (if f = 0x12 || f = 0x13 then [] else [hwB w]) ++ (if f = 7 then [hwC w] else []))
  | 0x1 => if f = 0x14 then [d] else [d, a]
  | 0x2 => if f < 0x30 then [a, hwB w] else if f ≥ 0x80 then [a] else if f = 0x3A then [d] else []
  | 0x3 => [d, a] ++ (if f = 6 || f = 7 then [] else [hwB w]) ++ (if f = 3 then [hwC w] else [])
  | 0x4 => [d, a] ++ (if f = 0 || f ≥ 0x10 then [hwB w] else [])
  | 0x5 => [d, a] ++ (if f = 0x14 then [hwB w] else []) ++ (if hwMod w % 4 = 2 then regRun (hwC w) 2 else [])
  | 0x6 =>
    if f = 0 then regRun d 4 ++ [a] else if f = 1 then regRun d 4 ++ regRun a 4 ++ regRun (hwB w) 4
    else if f = 2 then d :: regRun a 4 else if f = 3 then regRun d 4 ++ regRun a 4 else regRun a 4
  | 0x7 => a :: regRun d (if f = 5 || f = 0x13 then 2 else if f = 6 || f = 0x14 then 4 else 1)
  | 0x8 =>
    if f = 0xB then a :: (regRun d 4 ++ regRun (hwMB w) 4) else if f = 0x10 then [d, a] else if f = 0x11 then [a]
    else [d, a, hwMB w] ++ (if f = 9 then [hwMC w] else [])
  | 0x9 => if f ≤ 1 then [a] else if f = 4 then [d, hwB w] else if f = 5 then [a, hwB w] else []
  | 0xB => [d, a, hwB w, hwC w, hwN w] ++ (if hwDTH w then regRun (hwDV w) 2 else [])
  | 0xC => if f = 2 || f = 5 then [hwTarget w % 128] else if f = 3 then [d] else if f = 4 then [d, hwTarget w % 128] else []
  | 0xD => if f = 4 then [a] else if f = 5 then [d] else []
  | 0xE => if f = 0 then regRun d (if sregWide a then 2 else 1) else [a]
  | _ => []

/-- Tile registers that a legal word of class 0x9 reads or writes. -/
def hwTiles (w : W64) : List Nat :=
  if hwClass w = 0x9 then
    (if hwFunc w = 2 || hwFunc w = 4 then [hwA w % 16] else []) ++ (if hwFunc w = 4 then [] else [hwD w % 16])
  else []

end Sys2Proof.Machine
end

