-- ==== Sys2Proof/Machine/HostelOps.lean ====
section
/-!
DEFINITION. Sys2Proof/Machine/HostelOps.lean: what every hostel instruction shares: the group and its registers, the
check at issue (R182), guards and masks (R140, R183), faults (R177, R178), the arrival counters, and the end of a
group (R144, R171, R202, R203).
-/

namespace Sys2Proof.Machine

/-! ### Groups, blocks and registers -/

def gkey (h g : Nat) : Nat := h * 64 + g
def State.group (s : State) (h g : Nat) : Group := tabGet {} s.hosGroups (gkey h g)
def State.setGroup (s : State) (h g : Nat) (v : Group) : State := { s with hosGroups := tabSet {} s.hosGroups (gkey h g) v }
def State.blockAt (s : State) (h b : Nat) : Block := tabGet {} s.hosBlocks (h * 8 + b)
def State.setBlock (s : State) (h b : Nat) (v : Block) : State := { s with hosBlocks := tabSet {} s.hosBlocks (h * 8 + b) v }
def State.ctr (s : State) (h c : Nat) : W32 := tabGet 0 s.hosCtrs (h * 64 + c)
def State.setCtr (s : State) (h c : Nat) (v : W32) : State := { s with hosCtrs := tabSet 0 s.hosCtrs (h * 64 + c) v }

/-- A thread register of a lane. -/
def Group.rv (g : Group) (r lane : Nat) : W32 := tabGet 0 g.v (32 * (r % 128) + lane)
def Group.wv (g : Group) (r lane : Nat) (x : W32) : Group := { g with v := tabSet 0 g.v (32 * (r % 128) + lane) x }
/-- `n` consecutive registers of a lane as one number, lowest first (R184). -/
def Group.rvN (g : Group) (r lane : Nat) : Nat → Nat
  | 0 => 0
  | n + 1 => (g.rv r lane).toNat + 2 ^ 32 * g.rvN (r + 1) lane n
def Group.wvN (g : Group) (r lane : Nat) : Nat → Nat → Group
  | 0, _ => g
  | n + 1, x => (g.wv r lane (BitVec.ofNat 32 x)).wvN (r + 1) lane n (x / 2 ^ 32)
/-- A predicate as a mask over lanes. -/
def Group.rp (g : Group) (p : Nat) : W32 := tabGet 0 g.p (p % 8)
/-- Set a predicate in the lanes of `xm` to the bits of `v`. -/
def Group.wp (g : Group) (p : Nat) (xm v : W32) : Group :=
  { g with p := tabSet 0 g.p (p % 8) ((g.rp p &&& ~~~xm) ||| (v &&& xm)) }
/-- A byte of a tile register. -/
def Group.rm (g : Group) (m i : Nat) : Byte := tabGet 0 g.m (4096 * (m % 16) + i)
def Group.rmBytes (g : Group) (m i n : Nat) : List Byte := tabRange 0 g.m (4096 * (m % 16) + i) n
def Group.wmBytes (g : Group) (m i : Nat) (l : List Byte) : Group := { g with m := tabWrite 0 g.m (4096 * (m % 16) + i) l }
/-- Set sticky flags (R170). -/
def Group.orFlags (g : Group) (f : Flags) : Group := { g with flags := g.flags ||| BitVec.ofNat 32 f }

/-- Recount the occupied slots and blocks of HOS.STATUS. -/
def State.hosCount (s : State) (h : Nat) : State :=
  let n := ((List.range 64).filter fun g => (s.group h g).used).length
  let b := ((List.range 8).filter fun b => (s.blockAt h b).used).length
  (s.setFld (HOS.STATUS h) HOS.STATUS_GROUPS_IN_USE n).setFld (HOS.STATUS h) HOS.STATUS_BLOCKS_IN_USE b

/-! ### Guards and masks -/

/-- The lanes in which an instruction acts: active and past the guard (R140, R183). -/
def execMask (g : Group) (w : W64) : W32 :=
  if hwGE w then g.active &&& (if hwGN w then ~~~g.rp (hwGP w) else g.rp (hwGP w)) else g.active

/-- The lanes of a mask, ascending. -/
def lanesOf (m : W32) : List Nat := ones 32 m.toNat

/-- The lowest lane of a mask (R185). -/
def lowLane (m : W32) : Option Nat := lowestOne 32 m.toNat

/-! ### Faults -/

/-- The hostel's kill log: the first fault's fields, or OVERFLOW while VALID is 1. -/
def State.hosLog (s : State) (h : Nat) (l : BitVec 16) (g lane cause pc : Nat) : State :=
  let r := HOS.KILL_LOG h
  if s.flag r HOS.KILL_LOG_VALID then s.setFlag r HOS.KILL_LOG_OVERFLOW true
  else
    (((((s.setFld r HOS.KILL_LOG_LAUNCH l.toNat).setFld r HOS.KILL_LOG_GROUP g).setFld r HOS.KILL_LOG_LANE lane).setFld
      r HOS.KILL_LOG_CAUSE cause).setFld r HOS.KILL_LOG_PC pc).setFlag r HOS.KILL_LOG_VALID true

/-- A hostel fault (R177, R178): the kill log unless the context is already being killed, then the context's stop. -/
def State.hostelFault (s : State) (h g lane cause : Nat) : State :=
  let gr := s.group h g
  let s := s.setGroup h g { gr with stopped := true }
  let s := if s.killing gr.launch then s else s.hosLog h gr.launch g lane cause gr.pc.toNat
  s.startKill gr.launch cause (srcOf 4 h) gr.pc.toNat 0 g lane

/-! ### Issue -/

/-- Whether a rejoin is due before the next fetch (R141). -/
def Group.rejoinDue (g : Group) : Bool :=
  match g.stack with
  | [] => false
  | r :: _ => g.pc.toNat == r.rejoin

/-- The registers that accesses in flight on the caravan link will write. -/
def PeerOp.writes : PeerOp → List Nat
  | .mem w _ _ => if hwClass w = 7 && hwFunc w ≥ 0x10 then [] else if hwClass w = 8 && hwFunc w = 0x11 then []
      else regRun (hwD w) (if hwClass w = 7 && hwFunc w = 5 then 2 else if (hwClass w = 7 && hwFunc w = 6) || (hwClass w = 8 && hwFunc w = 0xB) then 4 else 1)
  | _ => []

/-- The tile registers that work in flight will read or write: queued dot instructions and peer tile transfers. -/
def State.tilesBusy (s : State) (h g : Nat) : List Nat :=
  ((tabGet [] s.hosArray h).filter fun o => o.group == g && hwClass o.word == 0xA).flatMap (fun o =>
      [hwD o.word % 16, hwMA o.word, hwMBt o.word]) ++
    (s.group h g).peer.flatMap fun p => match p with
      | .tile w _ _ => [hwD w % 16]
      | _ => []

/-- Whether an instruction must wait for a register or tile register in flight (R139). -/
def State.interlocked (s : State) (h g : Nat) (w : W64) : Bool :=
  let gr := s.group h g
  let busy := gr.peer.flatMap PeerOp.writes
  ((hwRegs w).any fun r => busy.contains r) ||
    (hwClass w == 0x9 && (hwTiles w).any fun m => (s.tilesBusy h g).contains m)

/-- Whether the group in a slot can issue: it runs, waits for nothing, and has no rejoin due. -/
def State.canIssue (s : State) (h g : Nat) : Bool :=
  let gr := s.group h g
  gr.used && !gr.stopped && gr.wait == .none && !gr.rejoinDue && !s.flag (HOS.STATUS h) HOS.STATUS_FENCED

/-- Advance the program counter. -/
def Group.next (g : Group) : Group := { g with pc := g.pc + 8 }

/-- The check at issue and then the instruction (R8, R121, R182): a slot that cannot issue stays as it is; a word that
is not legal kills the context with ILLEGAL_INSTRUCTION, a window out of range with TALLY_WINDOW, an unlicensed
feature with UNLICENSED; a legal word of another row is no event of this row. -/
def State.issue (s : State) (h g : Nat) (w : W64) (op : HOp) (body : State → Res) : Res :=
  if !s.canIssue h g then .next s
  else if !hostelLegal w then .next (s.hostelFault h g 0 cILLEGAL)
  else if hwOp w ≠ op then .refused .wrongWord
  else if hostelBadWindow w then .next (s.hostelFault h g 0 cTALLY_WINDOW)
  else if hostelFeature w = 1 && !s.flag BRG.ENABLED BRG.ENABLED_MX then .next (s.hostelFault h g 0 cUNLICENSED)
  else if hostelFeature w = 2 && !s.flag BRG.ENABLED BRG.ENABLED_TALLY then .next (s.hostelFault h g 0 cUNLICENSED)
  else if s.interlocked h g w then .next s
  else body s

/-- Every executing lane through `f`, ascending, which writes the group. -/
def Group.perLane (g : Group) (xm : W32) (f : Group → Nat → Group) : Group := (lanesOf xm).foldl f g

/-- An instruction that only writes its group: the lanes' effect, then the program counter. -/
def State.issueGroup (s : State) (h g : Nat) (w : W64) (op : HOp) (f : Group → W32 → Group) : Res :=
  s.issue h g w op fun s =>
    let gr := s.group h g
    .next (s.setGroup h g (f gr (execMask gr w)).next)

/-- A value per lane into v_d with its sticky flags, from the group as it was at issue. -/
def laneWrite (w : W64) (f : Group → Nat → Nat × Flags) (gr : Group) (xm : W32) : Group :=
  gr.perLane xm fun acc l =>
    let (x, fl) := f gr l
    (acc.wv (hwD w) l (BitVec.ofNat 32 x)).orFlags fl

/-- A truth value per lane into p_d. -/
def predWrite (w : W64) (f : Group → Nat → Bool) (gr : Group) (xm : W32) : Group :=
  gr.wp (hwD w) xm (BitVec.ofNat 32 ((lanesOf xm).foldl (fun m l => m + (if f gr l then 2 ^ l else 0)) 0))

/-! ### Blocks of a cluster (R147, R148) -/

/-- The hostels and block slots of a launch's cluster. -/
def State.clusterBlocks (s : State) (b : Block) : List (Nat × Nat) :=
  (List.range 64).filterMap fun k =>
    let o := s.blockAt (k / 8) (k % 8)
    if o.used && o.launch == b.launch && o.cluster == b.cluster then some (k / 8, k % 8) else none

/-- The block that RANK names, as hostel and block slot: rank 4 is the issuing block. -/
def State.rankBlock (s : State) (h : Nat) (b : Nat) (rank : Nat) : Option (Nat × Nat) :=
  if rank = 4 then some (h, b)
  else (s.clusterBlocks (s.blockAt h b)).find? fun k => (s.blockAt k.1 k.2).rank == rank

/-! ### The end of a group -/

/-- The live groups of a block. -/
def State.liveGroups (s : State) (h b : Nat) : List Nat :=
  (List.range 64).filter fun g => (s.group h g).used && (s.group h g).block == b

/-- The mask of the group indices that are live in a block. -/
def State.liveMask (s : State) (h b : Nat) : Nat :=
  (s.liveGroups h b).foldl (fun m g => Nat.lor m (2 ^ (s.group h g).gidx)) 0

/-- Send every pending milestone whose live groups have all arrived (R203). -/
def State.mileFlush (s : State) (h b : Nat) : State :=
  let bl := s.blockAt h b
  let lm := s.liveMask h b
  let done := bl.miles.filter fun m => Nat.land m.2 lm == lm
  let s := s.setBlock h b { bl with miles := bl.miles.filter fun m => Nat.land m.2 lm != lm }
  done.foldl (fun s m => s.arrive bl.slot m.1) s

/-- The end of a block: its allocation and slot are free and its flags join the leg's record (R171, R440). -/
def State.endBlock (s : State) (h b : Nat) : State :=
  let bl := s.blockAt h b
  let s := (s.setBlock h b {}).hosCount h
  let s := s.setRun bl.slot bl.leg fun r =>
    { r with blocksLeft := r.blocksLeft - 1, flags := Nat.lor r.flags bl.flags.toNat }
  s.legCheck bl.slot bl.leg

/-- The end of a group (R144): its flags join the block's record, its slot is free, and the block's pending
milestones are counted again; the last group ends the block. -/
def State.endGroup (s : State) (h g : Nat) : State :=
  let gr := s.group h g
  let b := gr.block
  let bl := s.blockAt h b
  let s := (s.setGroup h g {}).setBlock h b { bl with flags := bl.flags ||| gr.flags }
  let s := s.mileFlush h b
  if (s.liveGroups h b).isEmpty then s.endBlock h b else s.hosCount h

end Sys2Proof.Machine
end

