-- ==== Sys2Proof/Machine/HostelInt.lean ====
section
/-!
DEFINITION. Sys2Proof/Machine/HostelInt.lean: the integer instructions of the hostel (R187, R165), in register and
immediate form.
-/

namespace Sys2Proof.Machine

/-- Operand b: the immediate in class 0x1, else v_b (R187). -/
def intB (w : W64) (gr : Group) (l : Nat) : Nat := if hwClass w = 1 then hwImm w else (gr.rv (hwB w) l).toNat
def intA (w : W64) (gr : Group) (l : Nat) : Nat := (gr.rv (hwA w) l).toNat
def intC (w : W64) (gr : Group) (l : Nat) : Nat := (gr.rv (hwC w) l).toNat

/-- A result of a and b with no flag. -/
def int2 (w : W64) (f : Nat → Nat → Nat) (gr : Group) (l : Nat) : Nat × Flags := (f (intA w gr l) (intB w gr l) % 2 ^ 32, 0)

def s32 (a : Nat) : Int := sextOf 32 a

/-- Clamp to INT32, setting SATURATE (R165). -/
def clamp32 (v : Int) : Nat × Flags :=
  if v < -(2 ^ 31 : Int) then (2 ^ 31, flSaturate)
  else if v > (2 ^ 31 : Int) - 1 then (2 ^ 31 - 1, flSaturate)
  else (wrapTo 32 v, 0)

def iAdd (a b : Nat) : Nat := a + b
def iSub (a b : Nat) : Nat := wrapTo 32 ((a : Int) - b)
def iMul (a b : Nat) : Nat := a * b
def iMulhu (a b : Nat) : Nat := a * b / 2 ^ 32
def iMulhs (a b : Nat) : Nat := wrapTo 32 (s32 a * s32 b / 2 ^ 32)
def iAnd (a b : Nat) : Nat := Nat.land a b
def iOr (a b : Nat) : Nat := Nat.lor a b
def iXor (a b : Nat) : Nat := Nat.xor a b
def iShl (a b : Nat) : Nat := a * 2 ^ (b % 32)
def iShr (a b : Nat) : Nat := a / 2 ^ (b % 32)
def iSra (a b : Nat) : Nat := wrapTo 32 (s32 a / (2 ^ (b % 32) : Nat))
def iMin (a b : Nat) : Nat := if s32 a ≤ s32 b then a else b
def iMax (a b : Nat) : Nat := if s32 b ≤ s32 a then a else b
def iMinu (a b : Nat) : Nat := if a ≤ b then a else b
def iMaxu (a b : Nat) : Nat := if b ≤ a then a else b
def iClz (a : Nat) : Nat := if a = 0 then 32 else 31 - Nat.log2 a
def iPopc (a : Nat) : Nat := popCount 32 a

/-- ADD (R187, Table 6.5). -/
def execAdd (h : BitVec 3) (g : BitVec 6) (w : W64) (s : State) : Res :=
  s.issueGroup h.toNat g.toNat w ⟨0x0, 0x00⟩ (laneWrite w (int2 w iAdd))

/-- SUB (R187, Table 6.5). -/
def execSub (h : BitVec 3) (g : BitVec 6) (w : W64) (s : State) : Res :=
  s.issueGroup h.toNat g.toNat w ⟨0x0, 0x01⟩ (laneWrite w (int2 w iSub))

/-- ADDS (R187, Table 6.5). -/
def execAdds (h : BitVec 3) (g : BitVec 6) (w : W64) (s : State) : Res :=
  s.issueGroup h.toNat g.toNat w ⟨0x0, 0x02⟩ (laneWrite w fun gr l => clamp32 (s32 (intA w gr l) + s32 (intB w gr l)))

/-- SUBS (R187, Table 6.5). -/
def execSubs (h : BitVec 3) (g : BitVec 6) (w : W64) (s : State) : Res :=
  s.issueGroup h.toNat g.toNat w ⟨0x0, 0x03⟩ (laneWrite w fun gr l => clamp32 (s32 (intA w gr l) - s32 (intB w gr l)))

/-- MUL (R187, Table 6.5). -/
def execMul (h : BitVec 3) (g : BitVec 6) (w : W64) (s : State) : Res :=
  s.issueGroup h.toNat g.toNat w ⟨0x0, 0x04⟩ (laneWrite w (int2 w iMul))

/-- MULHU (R187, Table 6.5). -/
def execMulhu (h : BitVec 3) (g : BitVec 6) (w : W64) (s : State) : Res :=
  s.issueGroup h.toNat g.toNat w ⟨0x0, 0x05⟩ (laneWrite w (int2 w iMulhu))

/-- MULHS (R187, Table 6.5). -/
def execMulhs (h : BitVec 3) (g : BitVec 6) (w : W64) (s : State) : Res :=
  s.issueGroup h.toNat g.toNat w ⟨0x0, 0x06⟩ (laneWrite w (int2 w iMulhs))

/-- MAD (R187, Table 6.5). -/
def execMad (h : BitVec 3) (g : BitVec 6) (w : W64) (s : State) : Res :=
  s.issueGroup h.toNat g.toNat w ⟨0x0, 0x07⟩ (laneWrite w fun gr l => ((intA w gr l * intB w gr l + intC w gr l) % 2 ^ 32, 0))

/-- AND (R187, Table 6.5). -/
def execAnd (h : BitVec 3) (g : BitVec 6) (w : W64) (s : State) : Res :=
  s.issueGroup h.toNat g.toNat w ⟨0x0, 0x08⟩ (laneWrite w (int2 w iAnd))

/-- OR (R187, Table 6.5). -/
def execOr (h : BitVec 3) (g : BitVec 6) (w : W64) (s : State) : Res :=
  s.issueGroup h.toNat g.toNat w ⟨0x0, 0x09⟩ (laneWrite w (int2 w iOr))

/-- XOR (R187, Table 6.5). -/
def execXor (h : BitVec 3) (g : BitVec 6) (w : W64) (s : State) : Res :=
  s.issueGroup h.toNat g.toNat w ⟨0x0, 0x0A⟩ (laneWrite w (int2 w iXor))

/-- SHL (R187, Table 6.5). -/
def execShl (h : BitVec 3) (g : BitVec 6) (w : W64) (s : State) : Res :=
  s.issueGroup h.toNat g.toNat w ⟨0x0, 0x0B⟩ (laneWrite w (int2 w iShl))

/-- SHR (R187, Table 6.5). -/
def execShr (h : BitVec 3) (g : BitVec 6) (w : W64) (s : State) : Res :=
  s.issueGroup h.toNat g.toNat w ⟨0x0, 0x0C⟩ (laneWrite w (int2 w iShr))

/-- SRA (R187, Table 6.5). -/
def execSra (h : BitVec 3) (g : BitVec 6) (w : W64) (s : State) : Res :=
  s.issueGroup h.toNat g.toNat w ⟨0x0, 0x0D⟩ (laneWrite w (int2 w iSra))

/-- MIN (R187, Table 6.5). -/
def execMin (h : BitVec 3) (g : BitVec 6) (w : W64) (s : State) : Res :=
  s.issueGroup h.toNat g.toNat w ⟨0x0, 0x0E⟩ (laneWrite w (int2 w iMin))

/-- MAX (R187, Table 6.5). -/
def execMax (h : BitVec 3) (g : BitVec 6) (w : W64) (s : State) : Res :=
  s.issueGroup h.toNat g.toNat w ⟨0x0, 0x0F⟩ (laneWrite w (int2 w iMax))

/-- MINU (R187, Table 6.5). -/
def execMinu (h : BitVec 3) (g : BitVec 6) (w : W64) (s : State) : Res :=
  s.issueGroup h.toNat g.toNat w ⟨0x0, 0x10⟩ (laneWrite w (int2 w iMinu))

/-- MAXU (R187, Table 6.5). -/
def execMaxu (h : BitVec 3) (g : BitVec 6) (w : W64) (s : State) : Res :=
  s.issueGroup h.toNat g.toNat w ⟨0x0, 0x11⟩ (laneWrite w (int2 w iMaxu))

/-- CLZ (R187, Table 6.5). -/
def execClz (h : BitVec 3) (g : BitVec 6) (w : W64) (s : State) : Res :=
  s.issueGroup h.toNat g.toNat w ⟨0x0, 0x12⟩ (laneWrite w fun gr l => (iClz (intA w gr l), 0))

/-- POPC (R187, Table 6.5). -/
def execPopc (h : BitVec 3) (g : BitVec 6) (w : W64) (s : State) : Res :=
  s.issueGroup h.toNat g.toNat w ⟨0x0, 0x13⟩ (laneWrite w fun gr l => (iPopc (intA w gr l), 0))

/-- MOV (R187, Table 6.5). -/
def execMov (h : BitVec 3) (g : BitVec 6) (w : W64) (s : State) : Res :=
  s.issueGroup h.toNat g.toNat w ⟨0x0, 0x14⟩ (laneWrite w fun gr l => (intB w gr l, 0))

/-- SEL (R187, Table 6.5). -/
def execSel (h : BitVec 3) (g : BitVec 6) (w : W64) (s : State) : Res :=
  s.issueGroup h.toNat g.toNat w ⟨0x0, 0x15⟩ (laneWrite w fun gr l => (if (gr.rp (hwMod w % 8)).getLsbD l then intA w gr l else intB w gr l, 0))

/-- LREAD (R187, Table 6.5). -/
def execLread (h : BitVec 3) (g : BitVec 6) (w : W64) (s : State) : Res :=
  s.issueGroup h.toNat g.toNat w ⟨0x0, 0x16⟩ (laneWrite w fun gr l => ((gr.rv (hwA w) (intB w gr l % 32)).toNat, 0))

end Sys2Proof.Machine
end

