-- ==== Sys2Proof/Machine/HostelPred.lean ====
section
/-!
DEFINITION. Sys2Proof/Machine/HostelPred.lean: compares, predicates and votes of the hostel (R188).
-/

namespace Sys2Proof.Machine

/-- The condition codes of an integer compare on two's-complement or unsigned values. -/
def intCond (cc : Nat) (x y : Int) : Bool :=
  match cc with
  | 0 => decide (x = y)
  | 1 => decide (x ≠ y)
  | 2 => decide (x < y)
  | 3 => decide (x ≤ y)
  | 4 => decide (x > y)
  | _ => decide (x ≥ y)

/-- Operand b of a compare: the immediate when FUNC[7] is 1. -/
def cmpB (w : W64) (gr : Group) (l : Nat) : Nat := if hwFunc w ≥ 0x80 then hwImm w else (gr.rv (hwB w) l).toNat

/-- Predicate a, b in a lane. -/
def predA (w : W64) (gr : Group) (l : Nat) : Bool := (gr.rp (hwA w % 8)).getLsbD l
def predB (w : W64) (gr : Group) (l : Nat) : Bool := (gr.rp (hwB w % 8)).getLsbD l

/-- A 16-bit or 32-bit operand of a register, as a pattern of the format (R184, R189). -/
def fmtBits (f : Fmt) (x : W32) : Nat := x.toNat % 2 ^ fmtWidth f

/-- The format of MOD[1:0]. -/
def modFmt (w : W64) : Fmt := (fmtSel (hwMod w % 4)).getD fp32

/-- ICMP.cc (R188): signed compare. -/
def execIcmp (h : BitVec 3) (g : BitVec 6) (w : W64) (s : State) : Res :=
  s.issueGroup h.toNat g.toNat w ⟨0x2, 0x00⟩
    (predWrite w fun gr l => intCond (hwFunc w % 16) (s32 (intA w gr l)) (s32 (cmpB w gr l)))

/-- ICMPU.cc (R188): unsigned compare. -/
def execIcmpu (h : BitVec 3) (g : BitVec 6) (w : W64) (s : State) : Res :=
  s.issueGroup h.toNat g.toNat w ⟨0x2, 0x10⟩
    (predWrite w fun gr l => intCond (hwFunc w % 16) (intA w gr l) (cmpB w gr l))

/-- FCMP.cc (R188): floating compare, which raises no flag. -/
def execFcmp (h : BitVec 3) (g : BitVec 6) (w : W64) (s : State) : Res :=
  s.issueGroup h.toNat g.toNat w ⟨0x2, 0x20⟩
    (predWrite w fun gr l => fcompare (modFmt w) (hwFunc w % 16) (fmtBits (modFmt w) (gr.rv (hwA w) l)) (fmtBits (modFmt w) (gr.rv (hwB w) l)))

/-- PAND (R188). -/
def execPand (h : BitVec 3) (g : BitVec 6) (w : W64) (s : State) : Res :=
  s.issueGroup h.toNat g.toNat w ⟨0x2, 0x30⟩ (predWrite w fun gr l => predA w gr l && predB w gr l)

/-- POR (R188). -/
def execPor (h : BitVec 3) (g : BitVec 6) (w : W64) (s : State) : Res :=
  s.issueGroup h.toNat g.toNat w ⟨0x2, 0x31⟩ (predWrite w fun gr l => predA w gr l || predB w gr l)

/-- PXOR (R188). -/
def execPxor (h : BitVec 3) (g : BitVec 6) (w : W64) (s : State) : Res :=
  s.issueGroup h.toNat g.toNat w ⟨0x2, 0x32⟩ (predWrite w fun gr l => predA w gr l != predB w gr l)

/-- PNOT (R188). -/
def execPnot (h : BitVec 3) (g : BitVec 6) (w : W64) (s : State) : Res :=
  s.issueGroup h.toNat g.toNat w ⟨0x2, 0x33⟩ (predWrite w fun gr l => !predA w gr l)

/-- PANY (R188): the vote over the executing lanes. -/
def execPany (h : BitVec 3) (g : BitVec 6) (w : W64) (s : State) : Res :=
  s.issueGroup h.toNat g.toNat w ⟨0x2, 0x38⟩
    (fun gr xm => predWrite w (fun gr _ => (gr.rp (hwA w % 8) &&& xm) != 0) gr xm)

/-- PALL (R188). -/
def execPall (h : BitVec 3) (g : BitVec 6) (w : W64) (s : State) : Res :=
  s.issueGroup h.toNat g.toNat w ⟨0x2, 0x39⟩
    (fun gr xm => predWrite w (fun gr _ => (gr.rp (hwA w % 8) &&& xm) == xm) gr xm)

/-- PMASK (R188): the mask of executing lanes in which p_a is 1. -/
def execPmask (h : BitVec 3) (g : BitVec 6) (w : W64) (s : State) : Res :=
  s.issueGroup h.toNat g.toNat w ⟨0x2, 0x3A⟩
    (fun gr xm => laneWrite w (fun gr _ => ((gr.rp (hwA w % 8) &&& xm).toNat, 0)) gr xm)

end Sys2Proof.Machine
end

