-- ==== Sys2Proof/Machine/HostelFloat.lean ====
section
/-!
DEFINITION. Sys2Proof/Machine/HostelFloat.lean: floating point, special functions, integer division (R189, R165),
conversions (R190), MX quantisation (R191) and tallies (R192) of the hostel.
-/

namespace Sys2Proof.Machine

/-- Operands of a floating instruction in its format. -/
def flA (w : W64) (gr : Group) (l : Nat) : Nat := fmtBits (modFmt w) (gr.rv (hwA w) l)
def flB (w : W64) (gr : Group) (l : Nat) : Nat := fmtBits (modFmt w) (gr.rv (hwB w) l)
def flC (w : W64) (gr : Group) (l : Nat) : Nat := fmtBits (modFmt w) (gr.rv (hwC w) l)

/-- A result of v_a and v_b as FP32 patterns. -/
def fl32 (w : W64) (f : Nat → Nat → Nat × Flags) (gr : Group) (l : Nat) : Nat × Flags :=
  f (gr.rv (hwA w) l).toNat (gr.rv (hwB w) l).toNat

/-- Integer division by R165. -/
def divU (a b : Nat) : Nat × Flags := (if b = 0 then 2 ^ 32 - 1 else a / b, 0)
def remU (a b : Nat) : Nat × Flags := (if b = 0 then a else a % b, 0)
def divS (a b : Nat) : Nat × Flags := (if b = 0 then 2 ^ 32 - 1 else wrapTo 32 ((s32 a).tdiv (s32 b)), 0)
def remS (a b : Nat) : Nat × Flags := (if b = 0 then a else wrapTo 32 ((s32 a).tmod (s32 b)), 0)

/-- POS of a conversion (R190). -/
def cvtPos (w : W64) : Nat := hwMod w / 4 % 4

/-- The seed and step of the group's block (R168). -/
structure DitherCtx where
  seed : Nat
  step : Nat
  deriving DecidableEq, Repr

def State.ditherCtx (s : State) (h g : Nat) : DitherCtx :=
  let b := s.blockAt h (s.group h g).block
  ⟨b.seed.toNat, b.step.toNat⟩

/-- The rounding of a conversion in a lane: by dither with the address pair named in C (R128, R190). -/
def cvtRnd (w : W64) (dc : DitherCtx) (gr : Group) (l : Nat) : Rnd :=
  if hwMod w % 4 = 2 then .dither (ditherOf dc.seed (gr.rvN (hwC w) l 2 % 2 ^ 57) dc.step) else .rne

/-- A narrowing conversion, which replaces one half or byte of v_d (R190). -/
def cvtNarrow (w : W64) (f : Fmt) (dc : DitherCtx) (gr : Group) (xm : W32) : Group :=
  gr.perLane xm fun acc l =>
    let (x, fl) := fconvert f fp32 (cvtRnd w dc gr l) (gr.rv (hwA w) l).toNat
    let lo := cvtPos w * fmtWidth f
    (acc.wv (hwD w) l (BitVec.ofNat 32 (putBits (gr.rv (hwD w) l).toNat (lo + fmtWidth f - 1) lo x))).orFlags fl

/-- A widening conversion from the half or byte of v_a that POS names. -/
def cvtWiden (w : W64) (f : Fmt) (gr : Group) (l : Nat) : Nat × Flags :=
  let lo := cvtPos w * fmtWidth f
  fconvert fp32 f .rne (bitsOf (gr.rv (hwA w) l).toNat (lo + fmtWidth f - 1) lo)

/-- A conversion that narrows, with the block's seed and step. -/
def State.issueNarrow (s : State) (h g : Nat) (w : W64) (op : HOp) (f : Fmt) : Res :=
  s.issueGroup h g w op (cvtNarrow w f (s.ditherCtx h g))

/-- Floating point to an integer range. -/
def cvtInt (w : W64) (lo hi : Int) (gr : Group) (l : Nat) : Nat × Flags :=
  let (v, fl) := ftoInt fp32 (hwMod w % 4 == 1) lo hi (gr.rv (hwA w) l).toNat
  (wrapTo 32 v, fl)

/-- QMX (R191): the group's 32 lanes as one block; an inactive lane contributes +0.0. -/
def qmx (w : W64) (f : Fmt) (dc : DitherCtx) (gr : Group) (xm : W32) : Group :=
  let xs := (List.range 32).map fun l => if xm.getLsbD l then fdecode fp32 (gr.rv (hwA w) l).toNat else .fin false 0 0
  match mxScale f xs with
  | none => (gr.perLane xm fun acc l => acc.wv (hwD w) l 0xFF00#32).orFlags flInvalid
  | some sc => gr.perLane xm fun acc l =>
      let (x, fl) := mxElem f sc (cvtRnd w dc gr l) (fdecode fp32 (gr.rv (hwA w) l).toNat)
      (acc.wv (hwD w) l (BitVec.ofNat 32 (x + 256 * sc))).orFlags fl

def State.issueQmx (s : State) (h g : Nat) (w : W64) (op : HOp) (f : Fmt) : Res :=
  s.issueGroup h g w op (qmx w f (s.ditherCtx h g))

/-- The element format of DQMX, MOD[5:4]. -/
def mxSel : Nat → Fmt
  | 0 => e2m1
  | 1 => e2m3
  | _ => e3m2

/-- A tally per lane into the quad at v_d. -/
def quadWrite (w : W64) (f : Group → Nat → Nat × Flags) (gr : Group) (xm : W32) : Group :=
  gr.perLane xm fun acc l =>
    let (x, fl) := f gr l
    (acc.wvN (hwD w) l 4 x).orFlags fl

/-- The FP format of a tally conversion. -/
def tallyFmt (w : W64) : Fmt := (fmtSel (hwTFmt w)).getD fp32

/-- FADD (R189, Table 6.7). -/
def execFadd (h : BitVec 3) (g : BitVec 6) (w : W64) (s : State) : Res :=
  s.issueGroup h.toNat g.toNat w ⟨0x3, 0x00⟩ (laneWrite w fun gr l => fadd (modFmt w) (flA w gr l) (flB w gr l))

/-- FSUB (R189, Table 6.7). -/
def execFsub (h : BitVec 3) (g : BitVec 6) (w : W64) (s : State) : Res :=
  s.issueGroup h.toNat g.toNat w ⟨0x3, 0x01⟩ (laneWrite w fun gr l => fsub (modFmt w) (flA w gr l) (flB w gr l))

/-- FMUL (R189, Table 6.7). -/
def execFmul (h : BitVec 3) (g : BitVec 6) (w : W64) (s : State) : Res :=
  s.issueGroup h.toNat g.toNat w ⟨0x3, 0x02⟩ (laneWrite w fun gr l => fmul (modFmt w) (flA w gr l) (flB w gr l))

/-- FFMA (R189, Table 6.7). -/
def execFfma (h : BitVec 3) (g : BitVec 6) (w : W64) (s : State) : Res :=
  s.issueGroup h.toNat g.toNat w ⟨0x3, 0x03⟩ (laneWrite w fun gr l => ffma (modFmt w) (flA w gr l) (flB w gr l) (flC w gr l))

/-- FMIN (R189, Table 6.7). -/
def execFmin (h : BitVec 3) (g : BitVec 6) (w : W64) (s : State) : Res :=
  s.issueGroup h.toNat g.toNat w ⟨0x3, 0x04⟩ (laneWrite w fun gr l => fmin (modFmt w) (flA w gr l) (flB w gr l))

/-- FMAX (R189, Table 6.7). -/
def execFmax (h : BitVec 3) (g : BitVec 6) (w : W64) (s : State) : Res :=
  s.issueGroup h.toNat g.toNat w ⟨0x3, 0x05⟩ (laneWrite w fun gr l => fmax (modFmt w) (flA w gr l) (flB w gr l))

/-- FABS (R189, Table 6.7). -/
def execFabs (h : BitVec 3) (g : BitVec 6) (w : W64) (s : State) : Res :=
  s.issueGroup h.toNat g.toNat w ⟨0x3, 0x06⟩ (laneWrite w fun gr l => (fabsBits (modFmt w) (flA w gr l), 0))

/-- FNEG (R189, Table 6.7). -/
def execFneg (h : BitVec 3) (g : BitVec 6) (w : W64) (s : State) : Res :=
  s.issueGroup h.toNat g.toNat w ⟨0x3, 0x07⟩ (laneWrite w fun gr l => (fnegBits (modFmt w) (flA w gr l), 0))

/-- FCPYS (R189, Table 6.7). -/
def execFcpys (h : BitVec 3) (g : BitVec 6) (w : W64) (s : State) : Res :=
  s.issueGroup h.toNat g.toNat w ⟨0x3, 0x08⟩ (laneWrite w fun gr l => (fcpysBits (modFmt w) (flA w gr l) (flB w gr l), 0))

/-- FDIV (R189, Table 6.8). -/
def execFdiv (h : BitVec 3) (g : BitVec 6) (w : W64) (s : State) : Res :=
  s.issueGroup h.toNat g.toNat w ⟨0x4, 0x00⟩ (laneWrite w (fl32 w fun a b => fdiv fp32 a b))

/-- FSQRT (R189, Table 6.8). -/
def execFsqrt (h : BitVec 3) (g : BitVec 6) (w : W64) (s : State) : Res :=
  s.issueGroup h.toNat g.toNat w ⟨0x4, 0x01⟩ (laneWrite w (fl32 w fun a _ => fsqrt fp32 a))

/-- FRCP (R189, Table 6.8). -/
def execFrcp (h : BitVec 3) (g : BitVec 6) (w : W64) (s : State) : Res :=
  s.issueGroup h.toNat g.toNat w ⟨0x4, 0x02⟩ (laneWrite w (fl32 w fun a _ => frcp fp32 a))

/-- FRSQ (R189, Table 6.8). -/
def execFrsq (h : BitVec 3) (g : BitVec 6) (w : W64) (s : State) : Res :=
  s.issueGroup h.toNat g.toNat w ⟨0x4, 0x03⟩ (laneWrite w (fl32 w fun a _ => frsq fp32 a))

/-- FEX2 (R189, Table 6.8). -/
def execFex2 (h : BitVec 3) (g : BitVec 6) (w : W64) (s : State) : Res :=
  s.issueGroup h.toNat g.toNat w ⟨0x4, 0x04⟩ (laneWrite w (fl32 w fun a _ => fex2 a))

/-- FLG2 (R189, Table 6.8). -/
def execFlg2 (h : BitVec 3) (g : BitVec 6) (w : W64) (s : State) : Res :=
  s.issueGroup h.toNat g.toNat w ⟨0x4, 0x05⟩ (laneWrite w (fl32 w fun a _ => flg2 a))

/-- DIVU (R189, Table 6.8). -/
def execDivu (h : BitVec 3) (g : BitVec 6) (w : W64) (s : State) : Res :=
  s.issueGroup h.toNat g.toNat w ⟨0x4, 0x10⟩ (laneWrite w (fl32 w fun a b => divU a b))

/-- DIVS (R189, Table 6.8). -/
def execDivs (h : BitVec 3) (g : BitVec 6) (w : W64) (s : State) : Res :=
  s.issueGroup h.toNat g.toNat w ⟨0x4, 0x11⟩ (laneWrite w (fl32 w fun a b => divS a b))

/-- REMU (R189, Table 6.8). -/
def execRemu (h : BitVec 3) (g : BitVec 6) (w : W64) (s : State) : Res :=
  s.issueGroup h.toNat g.toNat w ⟨0x4, 0x12⟩ (laneWrite w (fl32 w fun a b => remU a b))

/-- REMS (R189, Table 6.8). -/
def execRems (h : BitVec 3) (g : BitVec 6) (w : W64) (s : State) : Res :=
  s.issueGroup h.toNat g.toNat w ⟨0x4, 0x13⟩ (laneWrite w (fl32 w fun a b => remS a b))

/-- CVT.BF16.F32 (R190). -/
def execCvtBf16F32 (h : BitVec 3) (g : BitVec 6) (w : W64) (s : State) : Res :=
  s.issueNarrow h.toNat g.toNat w ⟨0x5, 0x00⟩ bf16

/-- CVT.F16.F32 (R190). -/
def execCvtF16F32 (h : BitVec 3) (g : BitVec 6) (w : W64) (s : State) : Res :=
  s.issueNarrow h.toNat g.toNat w ⟨0x5, 0x01⟩ fp16

/-- CVT.E4M3.F32 (R190). -/
def execCvtE4m3F32 (h : BitVec 3) (g : BitVec 6) (w : W64) (s : State) : Res :=
  s.issueNarrow h.toNat g.toNat w ⟨0x5, 0x02⟩ e4m3

/-- CVT.E5M2.F32 (R190). -/
def execCvtE5m2F32 (h : BitVec 3) (g : BitVec 6) (w : W64) (s : State) : Res :=
  s.issueNarrow h.toNat g.toNat w ⟨0x5, 0x03⟩ e5m2

/-- CVT.F32.BF16 (R190). -/
def execCvtF32Bf16 (h : BitVec 3) (g : BitVec 6) (w : W64) (s : State) : Res :=
  s.issueGroup h.toNat g.toNat w ⟨0x5, 0x04⟩ (laneWrite w (cvtWiden w bf16))

/-- CVT.F32.F16 (R190). -/
def execCvtF32F16 (h : BitVec 3) (g : BitVec 6) (w : W64) (s : State) : Res :=
  s.issueGroup h.toNat g.toNat w ⟨0x5, 0x05⟩ (laneWrite w (cvtWiden w fp16))

/-- CVT.F32.E4M3 (R190). -/
def execCvtF32E4m3 (h : BitVec 3) (g : BitVec 6) (w : W64) (s : State) : Res :=
  s.issueGroup h.toNat g.toNat w ⟨0x5, 0x06⟩ (laneWrite w (cvtWiden w e4m3))

/-- CVT.F32.E5M2 (R190). -/
def execCvtF32E5m2 (h : BitVec 3) (g : BitVec 6) (w : W64) (s : State) : Res :=
  s.issueGroup h.toNat g.toNat w ⟨0x5, 0x07⟩ (laneWrite w (cvtWiden w e5m2))

/-- CVT.S32.F32 (R190, R165). -/
def execCvtS32F32 (h : BitVec 3) (g : BitVec 6) (w : W64) (s : State) : Res :=
  s.issueGroup h.toNat g.toNat w ⟨0x5, 0x08⟩ (laneWrite w (cvtInt w (-(2 ^ 31)) (2 ^ 31 - 1)))

/-- CVT.U32.F32 (R190, R165). -/
def execCvtU32F32 (h : BitVec 3) (g : BitVec 6) (w : W64) (s : State) : Res :=
  s.issueGroup h.toNat g.toNat w ⟨0x5, 0x09⟩ (laneWrite w (cvtInt w 0 (2 ^ 32 - 1)))

/-- CVT.F32.S32 (R190, R165). -/
def execCvtF32S32 (h : BitVec 3) (g : BitVec 6) (w : W64) (s : State) : Res :=
  s.issueGroup h.toNat g.toNat w ⟨0x5, 0x0A⟩ (laneWrite w fun gr l => fofInt fp32 (s32 (gr.rv (hwA w) l).toNat))

/-- CVT.F32.U32 (R190, R165). -/
def execCvtF32U32 (h : BitVec 3) (g : BitVec 6) (w : W64) (s : State) : Res :=
  s.issueGroup h.toNat g.toNat w ⟨0x5, 0x0B⟩ (laneWrite w fun gr l => fofInt fp32 (gr.rv (hwA w) l).toNat)

/-- QMX.E2M1 (R191). -/
def execQmxE2m1 (h : BitVec 3) (g : BitVec 6) (w : W64) (s : State) : Res :=
  s.issueQmx h.toNat g.toNat w ⟨0x5, 0x10⟩ e2m1

/-- QMX.E2M3 (R191). -/
def execQmxE2m3 (h : BitVec 3) (g : BitVec 6) (w : W64) (s : State) : Res :=
  s.issueQmx h.toNat g.toNat w ⟨0x5, 0x11⟩ e2m3

/-- QMX.E3M2 (R191). -/
def execQmxE3m2 (h : BitVec 3) (g : BitVec 6) (w : W64) (s : State) : Res :=
  s.issueQmx h.toNat g.toNat w ⟨0x5, 0x12⟩ e3m2

/-- DQMX (R190, R167). -/
def execDqmx (h : BitVec 3) (g : BitVec 6) (w : W64) (s : State) : Res :=
  s.issueGroup h.toNat g.toNat w ⟨0x5, 0x14⟩
    (laneWrite w fun gr l => mxValue (mxSel (hwMod w / 16 % 4)) ((gr.rv (hwB w) l).toNat % 256) (gr.rv (hwA w) l).toNat)

/-- TCVI (R192, R122). -/
def execTcvi (h : BitVec 3) (g : BitVec 6) (w : W64) (s : State) : Res :=
  s.issueGroup h.toNat g.toNat w ⟨0x6, 0x00⟩
    (quadWrite w fun gr l => toTally (hwWindow w) (fdecode (tallyFmt w) (fmtBits (tallyFmt w) (gr.rv (hwA w) l))))

/-- TADD (R192, R123). -/
def execTadd (h : BitVec 3) (g : BitVec 6) (w : W64) (s : State) : Res :=
  s.issueGroup h.toNat g.toNat w ⟨0x6, 0x01⟩ (quadWrite w fun gr l => (tallyAdd (gr.rvN (hwA w) l 4) (gr.rvN (hwB w) l 4), 0))

/-- TCVO (R192, R125). -/
def execTcvo (h : BitVec 3) (g : BitVec 6) (w : W64) (s : State) : Res :=
  s.issueGroup h.toNat g.toNat w ⟨0x6, 0x02⟩ (laneWrite w fun gr l => fromTally (tallyFmt w) (hwWindow w) (gr.rvN (hwA w) l 4))

/-- TNEG (R192). -/
def execTneg (h : BitVec 3) (g : BitVec 6) (w : W64) (s : State) : Res :=
  s.issueGroup h.toNat g.toNat w ⟨0x6, 0x03⟩ (quadWrite w fun gr l => (tallyNeg (gr.rvN (hwA w) l 4), 0))

/-- TINV (R192). -/
def execTinv (h : BitVec 3) (g : BitVec 6) (w : W64) (s : State) : Res :=
  s.issueGroup h.toNat g.toNat w ⟨0x6, 0x04⟩ (predWrite w fun gr l => gr.rvN (hwA w) l 4 == tallyInvalid)

end Sys2Proof.Machine
end

