-- ==== Sys2Proof/Machine/PorterWord.lean ====
section
/-!
DEFINITION. Sys2Proof/Machine/PorterWord.lean: the fields of a word of the porter set (R213) and the encodings that are
legal on a porter (R206, R214-R227, R230-R232) and on a steward core (R423).
The formats of the supervisor opcodes are not given: CSRR, CSRW, ERET, WFI, SYNC and IINV are read in format I, and CMO in
format I with FN in the D field (DESIGN CHOICE, assumption 12).
-/

namespace Sys2Proof.Machine

/-! ### Fields (Table 7.4) -/

def pwOp (w : W32) : Nat := bitsOf w.toNat 6 0
def pwD (w : W32) : Nat := bitsOf w.toNat 11 7
def pwA (w : W32) : Nat := bitsOf w.toNat 16 12
def pwB (w : W32) : Nat := bitsOf w.toNat 21 17
def pwC (w : W32) : Nat := bitsOf w.toNat 26 22
def pwFN (w : W32) : Nat := bitsOf w.toNat 31 27
def pwI (w : W32) : Nat := bitsOf w.toNat 31 17
def pwImm (w : W32) : Int := sextOf 15 (pwI w)
def pwS (w : W32) : Nat := bitsOf w.toNat 31 22 * 32 + bitsOf w.toNat 11 7
def pwSImm (w : W32) : Int := sextOf 15 (pwS w)
def pwU (w : W32) : Nat := bitsOf w.toNat 31 12
def pwTY (w : W32) : Nat := bitsOf w.toNat 29 27
def pwWin (w : W32) : Int := sextOf 9 (bitsOf w.toNat 30 22)
def pwH (w : W32) : Bool := bitOf w.toNat 31

/-- The rows that words of the porter set belong to: the opcode, with FN where the opcode holds a group. FP32 and BF16
words, and the two roundings of a conversion, are one row. -/
structure POp where
  op : Nat
  fn : Nat
  deriving DecidableEq, Repr

def pwRow (w : W32) : POp :=
  match pwOp w with
  | 0x01 => ⟨0x01, pwFN w⟩
  | 0x30 => ⟨0x30, pwFN w⟩
  | 0x31 => ⟨0x30, pwFN w⟩
  | 0x32 => ⟨0x32, pwFN w⟩
  | 0x33 => ⟨0x32, pwFN w⟩
  | 0x64 => ⟨0x64, pwD w⟩
  | o => ⟨o, 0⟩

def even (n : Nat) : Bool := n % 2 == 0
/-- A field that names an f register (R206). -/
def freg (n : Nat) : Bool := decide (n < 16)

/-- Special registers of Table 7.12. -/
def psregListed (n : Nat) : Bool := n ≤ 9 || n == 0x10 || n == 0x12 || n == 0x14

/-! ### Legality (R215) -/

def legalPInt (w : W32) : Bool :=
  let f := pwFN w
  pwC w == 0 && decide (f ≤ 0x19) &&
    (if f = 0x0D then even (pwD w)
     else if f = 0x18 || f = 0x19 then even (pwD w) && even (pwA w) && even (pwB w)
     else if f = 0x16 || f = 0x17 then pwB w == 0
     else true)

def legalPFloat (w : W32) : Bool :=
  let f := pwFN w
  if f ≤ 2 || f = 4 || f = 5 || f = 6 then freg (pwD w) && freg (pwA w) && freg (pwB w) && pwC w == 0
  else if f = 3 then freg (pwD w) && freg (pwA w) && freg (pwB w) && freg (pwC w)
  else if f = 7 || f = 8 || f = 9 then freg (pwD w) && freg (pwA w) && pwB w == 0 && pwC w == 0
  else if f = 0x0A || f = 0x0B || f = 0x0C then freg (pwA w) && freg (pwB w) && pwC w == 0
  else if f = 0x0D then freg (pwA w) && pwB w == 0 && pwC w == 0
  else f == 0x0E && freg (pwD w) && pwB w == 0 && pwC w == 0

/-- The FN values that have a dithered form (Table 7.9). -/
def ditherFn (f : Nat) : Bool := f == 0 || f == 2 || f == 3 || (decide (0x0C ≤ f) && decide (f ≤ 0x0E))

def legalPCvt (w : W32) : Bool :=
  let f := pwFN w
  let regs :=
    if f = 0 || f = 1 then freg (pwD w) && freg (pwA w) && pwB w == 0
    else if f = 2 || f = 3 || f = 6 || f = 7 || f = 9 || f = 0x0A || f = 0x0B then freg (pwA w) && pwB w == 0
    else if f = 4 || f = 5 || f = 8 then freg (pwD w) && pwB w == 0
    else if f = 0x0C || f = 0x0D || f = 0x0E then freg (pwA w)
    else freg (pwD w)
  decide (f ≤ 0x11) && regs && (if pwOp w = 0x33 then ditherFn f && even (pwC w) else pwC w == 0)

def legalPTally (w : W32) : Bool :=
  match pwOp w with
  | 0x34 => freg (pwA w) && pwB w == 0
  | 0x35 => freg (pwD w) && pwB w == 0
  | _ => bitsOf w.toNat 31 22 == 0

def legalPFar (w : W32) : Bool :=
  bitsOf w.toNat 31 30 == 0 &&
    (match pwOp w with
     | 0x40 => decide (pwTY w ≤ 1) && (pwTY w == 0 || even (pwD w)) && even (pwA w) && pwB w == 0
     | 0x41 => decide (pwTY w ≤ 1) && (pwTY w == 0 || even (pwB w)) && even (pwA w) && pwD w == 0
     | 0x42 => pwTY w == 0 && even (pwA w)
     | 0x43 => pwTY w == 0 && even (pwA w)
     | 0x44 => decide (pwTY w ≤ 4) && even (pwA w)
     | 0x45 => pwTY w == 0 && even (pwA w) && even (pwD w) && pwB w == 0
     | 0x46 => pwTY w == 0
     | _ => pwTY w == 0 && pwD w == 0)

/-- Opcodes that porters and steward cores share. -/
def legalShared (w : W32) : Bool :=
  match pwOp w with
  | 0x01 => legalPInt w
  | 0x02 => true
  | 0x03 => true
  | 0x04 => true
  | 0x05 => true
  | 0x06 => true
  | 0x07 => true
  | 0x08 => decide (pwI w < 32)
  | 0x09 => decide (pwI w < 32)
  | 0x0A => decide (pwI w < 32)
  | 0x0B => true
  | 0x0C => even (pwD w) && even (pwA w)
  | 0x10 => true
  | 0x11 => true
  | 0x12 => true
  | 0x13 => true
  | 0x14 => true
  | 0x15 => even (pwD w)
  | 0x16 => freg (pwD w)
  | 0x18 => true
  | 0x19 => true
  | 0x1A => true
  | 0x1B => even (pwB w)
  | 0x1C => freg (pwB w)
  | 0x20 => true
  | 0x21 => true
  | 0x22 => true
  | 0x23 => true
  | 0x24 => true
  | 0x25 => true
  | 0x26 => true
  | 0x27 => true
  | 0x30 => legalPFloat w
  | 0x31 => legalPFloat w
  | 0x32 => legalPCvt w
  | 0x33 => legalPCvt w
  | 0x34 => legalPTally w
  | 0x35 => legalPTally w
  | 0x36 => legalPTally w
  | 0x38 => pwFN w == 0 && pwC w == 0
  | 0x50 => pwD w == 0 && pwA w == 0 && decide (pwI w ≤ 7)
  | 0x51 => pwS w == 0
  | 0x54 => pwA w == 0 && psregListed (pwI w) && (decide (pwI w < 0x10) || even (pwD w))
  | 0x55 => pwD w == 0 && pwI w == 7
  | _ => false

/-- Legal on a porter. -/
def porterLegal (w : W32) : Bool :=
  if 0x40 ≤ pwOp w && pwOp w ≤ 0x47 then legalPFar w
  else if pwOp w = 0x52 then pwD w == 0 && decide (pwU w < 65536)
  else if pwOp w = 0x53 then pwD w == 0 && pwA w == 0 && pwI w == 0
  else legalShared w

/-- Legal on a steward core: the far and grid opcodes are not (R423), nor are MILE and EXIT, for a steward core runs no
leg (DESIGN CHOICE, assumption 12). -/
def stewardLegal (w : W32) : Bool :=
  match pwOp w with
  | 0x60 => pwA w == 0
  | 0x61 => pwD w == 0
  | 0x62 => pwD w == 0 && pwA w == 0 && pwI w == 0
  | 0x63 => pwD w == 0 && pwA w == 0 && pwI w == 0
  | 0x64 => decide (pwD w ≤ 3)
  | 0x65 => pwD w == 0 && pwA w == 0 && pwI w == 0
  | 0x66 => pwD w == 0 && pwA w == 0 && pwI w == 0
  | _ => legalShared w

/-- A word that uses an MX format or tally mode (R8): 1 MX, 2 tally, 0 neither. -/
def porterFeature (w : W32) : Nat :=
  if (pwOp w = 0x32 || pwOp w = 0x33) && 9 ≤ pwFN w then 1
  else if 0x34 ≤ pwOp w && pwOp w ≤ 0x36 then 2
  else if pwOp w = 0x44 && pwTY w = 4 then 2
  else 0

/-- A tally conversion whose window-top exponent is out of range (R221). -/
def porterBadWindow (w : W32) : Bool := (pwOp w == 0x34 || pwOp w == 0x35) && !windowOk (pwWin w)

/-! ### The registers that a word reads or writes (R207, R229), g registers by number and f registers from 32 -/

def pwRegs (w : W32) : List Nat :=
  let d := pwD w
  let a := pwA w
  let b := pwB w
  let c := pwC w
  let p := fun (n : Nat) => [n, n + 1]
  let o := pwOp w
  let f := pwFN w
  if o = 0x01 then
    if f = 0x18 || f = 0x19 then p d ++ p a ++ p b else if f = 0x0D then p d ++ [a, b] else [d, a, b]
  else if o ≤ 0x0A then [d, a]
  else if o = 0x0B then [d]
  else if o = 0x0C then p d ++ p a
  else if o = 0x15 then a :: p d
  else if o = 0x16 then [a, 32 + d]
  else if o ≤ 0x16 then [d, a]
  else if o = 0x1B then a :: p b
  else if o = 0x1C then [a, 32 + b]
  else if o ≤ 0x25 then [a, b]
  else if o = 0x26 then [d]
  else if o = 0x27 then [d, a]
  else if o = 0x30 || o = 0x31 then
    if f = 0x0E then [32 + d, a] else if f ≥ 0x0A then [d, 32 + a, 32 + b] else [32 + d, 32 + a, 32 + b, 32 + c]
  else if o = 0x32 || o = 0x33 then
    (if f = 0 || f = 1 then [32 + d, 32 + a] else if f = 4 || f = 5 || f = 8 then [32 + d, a]
     else if f ≥ 0x0F then [32 + d, a, b] else [d, 32 + a, b]) ++ (if o = 0x33 then p c else [])
  else if o = 0x34 then [d, 32 + a]
  else if o = 0x35 then [32 + d, a]
  else if o = 0x36 || o = 0x38 then [d, a, b]
  else if o = 0x40 then p a ++ [c] ++ (if pwTY w = 1 then p d else [d])
  else if o = 0x41 then p a ++ [c] ++ (if pwTY w = 1 then p b else [b])
  else if o = 0x45 then p a ++ p d ++ [c]
  else if o ≤ 0x45 then p a ++ [d, b, c]
  else if o ≤ 0x47 then [d, a, b, c]
  else if o = 0x51 then [a, b]
  else if o = 0x54 then (if pwI w ≥ 0x10 then p d else [d])
  else if o = 0x55 || o = 0x61 || o = 0x64 then [a]
  else if o = 0x60 then [d]
  else []

end Sys2Proof.Machine
end

