-- ==== Sys2Proof/Machine/PorterOps.lean ====
section
/-!
DEFINITION. Sys2Proof/Machine/PorterOps.lean: what every instruction of the porter set shares on a porter and on a
steward core: the registers, the check at issue (R215, R221, R8), the faults of a porter (R236) and the exceptions of a
steward core (R423, R481).
-/

namespace Sys2Proof.Machine

/-! ### Registers (R205, R206) -/

/-- g0 reads 0 and ignores writes. -/
def Core.rg (k : Core) (r : Nat) : W32 := if r = 0 then 0 else tabGet 0 k.g r
def Core.wg (k : Core) (r : Nat) (v : W32) : Core := if r = 0 then k else { k with g := tabSet 0 k.g r v }
def Core.rf (k : Core) (r : Nat) : W32 := tabGet 0 k.f r
def Core.wf (k : Core) (r : Nat) (v : W32) : Core := { k with f := tabSet 0 k.f r v }
/-- A pair, the low half in the even register. -/
def Core.rp (k : Core) (r : Nat) : Nat := (k.rg r).toNat + 2 ^ 32 * (k.rg (r + 1)).toNat
def Core.wp (k : Core) (r v : Nat) : Core := (k.wg r (BitVec.ofNat 32 v)).wg (r + 1) (BitVec.ofNat 32 (v / 2 ^ 32))
def Core.orFlags (k : Core) (f : Flags) : Core := { k with flags := k.flags ||| BitVec.ofNat 32 f }
def Core.next (k : Core) : Core := { k with pc := k.pc + 4 }

def State.score (s : State) (k : Nat) : SCore := tabGet {} s.steward.cores k
def State.setScore (s : State) (k : Nat) (v : SCore) : State :=
  { s with steward := { s.steward with cores := tabSet {} s.steward.cores k v } }

/-- The core that a command names. -/
def State.core (s : State) : CoreRef → Core
  | .porter n => (s.porter n.toNat).core
  | .steward k => (s.score k.toNat).core

def State.setCore (s : State) (c : CoreRef) (v : Core) : State :=
  match c with
  | .porter n => s.setPorter n.toNat { s.porter n.toNat with core := v }
  | .steward k => s.setScore k.toNat { s.score k.toNat with core := v }

def State.updCore (s : State) (c : CoreRef) (f : Core → Core) : State := s.setCore c (f (s.core c))

/-! ### Faults of a porter (R236, Table 7.17) -/

/-- The kill log: the first fault's fields, or OVERFLOW while VALID is 1. -/
def State.porLog (s : State) (n : Nat) (l : BitVec 16) (cause pc : Nat) : State :=
  let r := POR.KILL_LOG n
  if s.flag r POR.KILL_LOG_VALID then s.setFlag r POR.KILL_LOG_OVERFLOW true
  else
    (((s.setFld r POR.KILL_LOG_LAUNCH l.toNat).setFld r POR.KILL_LOG_CAUSE cause).setFld r POR.KILL_LOG_PC pc).setFlag
      r POR.KILL_LOG_VALID true

/-- A fault that kills the context: issue stops, the fault is recorded, and KILLED goes to the dispatcher. -/
def State.porFaultAt (s : State) (n cause bus detail : Nat) : State :=
  let p := s.porter n
  let s := s.setPorter n { p with stopped := true }
  let s := (s.porLog n p.msg.launch cause p.core.pc.toNat).startKill p.msg.launch cause (srcOf 3 n) detail bus 0 0
  s.meshSend 3 (coreEnd n) (.one stewardEnd) 1 (.killed n p.msg.launch)

/-- A fault at issue, with the pc as its detail. -/
def State.porFault (s : State) (n cause : Nat) : State := s.porFaultAt n cause 0 (s.porter n).core.pc.toNat

/-! ### Exceptions of a steward core -/

/-- A precise exception (R423, R481, R497): the instruction has no effect, the core saves its pc and the cause and goes
to its handler. The manual gives no handler address and no cause register: the address is a free value, and the saved
values stand in the core (DESIGN CHOICE, assumption 13). -/
def State.scoreTrap (s : State) (k cause addr : Nat) : State :=
  let v := s.score k
  let pc : W32 := BitVec.ofNat 32 ((Config.freeWord s.free).toNat / 4 * 4)
  let s := { s with free := s.free + 1 }
  s.setScore k { v with core := { v.core with pc := pc }, epc := v.core.pc, ecause := cause, eaddr := addr, trapped := true, waiting := false }

/-- A fault of an instruction of the porter set. -/
def State.coreFault (s : State) (c : CoreRef) (cause : Nat) : State :=
  match c with
  | .porter n => s.porFault n.toNat cause
  | .steward k => s.scoreTrap k.toNat cause (s.score k.toNat).core.pc.toNat

/-! ### Issue -/

/-- Whether a core can issue: it is up and running, unfenced, and waits for nothing. -/
def State.porCanIssue (s : State) (c : CoreRef) : Bool :=
  match c with
  | .porter n =>
    let r := POR.STATUS n.toNat
    let p := s.porter n.toNat
    s.flag r POR.STATUS_PRESENT && s.flag r POR.STATUS_POWERED && !s.flag r POR.STATUS_FENCED &&
      s.flag r POR.STATUS_RUNNING && p.wait == .none && !p.stopped
  | .steward k =>
    let v := s.score k.toNat
    bitOf (s.fld STW.STATUS STW.STATUS_CORES_UP) k.toNat && !v.wfi && !v.waiting && v.cleanWait.isNone

/-- The registers that responses still out will write (R229). -/
def PorReq.pends (r : PorReq) : List Nat :=
  if r.op = 0x40 then (if r.n = 8 then [r.dst, r.dst + 1] else [r.dst])
  else if r.op = 0x45 then [r.dst, r.dst + 1]
  else []

def State.porPending (s : State) (c : CoreRef) (w : W32) : Bool :=
  match c with
  | .porter n =>
    let busy := (s.porter n.toNat).slots.flatMap fun e => e.2.pends
    (pwRegs w).any fun r => r != 0 && busy.contains r
  | .steward _ => false

/-- Whether a word is legal on the core. -/
def coreLegal (c : CoreRef) (w : W32) : Bool :=
  match c with
  | .porter _ => porterLegal w
  | .steward _ => stewardLegal w

/-- The check at issue and then the instruction (R207, R215, R221, R8): a core that cannot issue, or whose register is
pending, stays as it is; a fetch beyond local memory and a word that is not legal are faults; a legal word of another row
is no event of this row. -/
def State.porIssue (s : State) (c : CoreRef) (w : W32) (op : POp) (body : State → Res) : Res :=
  if !s.porCanIssue c then .next s
  else if c matches .porter _ && decide (65536 ≤ (s.core c).pc.toNat) then .next (s.coreFault c cSEGMENT)
  else if !coreLegal c w then .next (s.coreFault c cILLEGAL)
  else if pwRow w ≠ op then .refused .wrongWord
  else if porterBadWindow w then .next (s.coreFault c cTALLY_WINDOW)
  else if porterFeature w = 1 && !s.flag BRG.ENABLED BRG.ENABLED_MX then .next (s.coreFault c cUNLICENSED)
  else if porterFeature w = 2 && !s.flag BRG.ENABLED BRG.ENABLED_TALLY then .next (s.coreFault c cUNLICENSED)
  else if s.porPending c w then .next s
  else body s

/-- An instruction that only changes its core: the effect, then the program counter. -/
def State.porReg (s : State) (c : CoreRef) (w : W32) (op : POp) (f : Core → Core) : Res :=
  s.porIssue c w op fun s => .next (s.updCore c fun k => (f k).next)

end Sys2Proof.Machine
end

