-- ==== Sys2Proof/Machine/PorterInt.lean ====
section
/-!
DEFINITION. Sys2Proof/Machine/PorterInt.lean: the integer, immediate and control instructions of the porter set
(R216, R217, R222).
-/

namespace Sys2Proof.Machine

/-! ### Integer register group (Table 7.6) -/

/-- A result of g_a and g_b into g_d. -/
def pInt2 (w : W32) (f : Nat → Nat → Nat) (k : Core) : Core :=
  k.wg (pwD w) (BitVec.ofNat 32 (f (k.rg (pwA w)).toNat (k.rg (pwB w)).toNat))

/-- A result of g_a and the sign-extended immediate. -/
def pImm2 (w : W32) (f : Nat → Nat → Nat) (k : Core) : Core :=
  k.wg (pwD w) (BitVec.ofNat 32 (f (k.rg (pwA w)).toNat (wrapTo 32 (pwImm w))))

def iSlt (a b : Nat) : Nat := b2n (decide (s32 a < s32 b))
def iSltu (a b : Nat) : Nat := b2n (decide (a < b))

/-- ADD (R216, Table 7.6). -/
def execPorAdd (c : CoreRef) (w : W32) (s : State) : Res :=
  s.porReg c w ⟨0x01, 0x00⟩ (pInt2 w iAdd)

/-- SUB (R216, Table 7.6). -/
def execPorSub (c : CoreRef) (w : W32) (s : State) : Res :=
  s.porReg c w ⟨0x01, 0x01⟩ (pInt2 w iSub)

/-- AND (R216, Table 7.6). -/
def execPorAnd (c : CoreRef) (w : W32) (s : State) : Res :=
  s.porReg c w ⟨0x01, 0x02⟩ (pInt2 w iAnd)

/-- OR (R216, Table 7.6). -/
def execPorOr (c : CoreRef) (w : W32) (s : State) : Res :=
  s.porReg c w ⟨0x01, 0x03⟩ (pInt2 w iOr)

/-- XOR (R216, Table 7.6). -/
def execPorXor (c : CoreRef) (w : W32) (s : State) : Res :=
  s.porReg c w ⟨0x01, 0x04⟩ (pInt2 w iXor)

/-- SHL (R216, Table 7.6). -/
def execPorShl (c : CoreRef) (w : W32) (s : State) : Res :=
  s.porReg c w ⟨0x01, 0x05⟩ (pInt2 w iShl)

/-- SHR (R216, Table 7.6). -/
def execPorShr (c : CoreRef) (w : W32) (s : State) : Res :=
  s.porReg c w ⟨0x01, 0x06⟩ (pInt2 w iShr)

/-- SRA (R216, Table 7.6). -/
def execPorSra (c : CoreRef) (w : W32) (s : State) : Res :=
  s.porReg c w ⟨0x01, 0x07⟩ (pInt2 w iSra)

/-- SLT (R216, Table 7.6). -/
def execPorSlt (c : CoreRef) (w : W32) (s : State) : Res :=
  s.porReg c w ⟨0x01, 0x08⟩ (pInt2 w iSlt)

/-- SLTU (R216, Table 7.6). -/
def execPorSltu (c : CoreRef) (w : W32) (s : State) : Res :=
  s.porReg c w ⟨0x01, 0x09⟩ (pInt2 w iSltu)

/-- MUL (R216, Table 7.6). -/
def execPorMul (c : CoreRef) (w : W32) (s : State) : Res :=
  s.porReg c w ⟨0x01, 0x0A⟩ (pInt2 w iMul)

/-- MULHU (R216, Table 7.6). -/
def execPorMulhu (c : CoreRef) (w : W32) (s : State) : Res :=
  s.porReg c w ⟨0x01, 0x0B⟩ (pInt2 w iMulhu)

/-- MULHS (R216, Table 7.6). -/
def execPorMulhs (c : CoreRef) (w : W32) (s : State) : Res :=
  s.porReg c w ⟨0x01, 0x0C⟩ (pInt2 w iMulhs)

/-- MULW (R216, Table 7.6). -/
def execPorMulw (c : CoreRef) (w : W32) (s : State) : Res :=
  s.porReg c w ⟨0x01, 0x0D⟩ (fun k => k.wp (pwD w) ((k.rg (pwA w)).toNat * (k.rg (pwB w)).toNat))

/-- MIN (R216, Table 7.6). -/
def execPorMin (c : CoreRef) (w : W32) (s : State) : Res :=
  s.porReg c w ⟨0x01, 0x0E⟩ (pInt2 w iMin)

/-- MAX (R216, Table 7.6). -/
def execPorMax (c : CoreRef) (w : W32) (s : State) : Res :=
  s.porReg c w ⟨0x01, 0x0F⟩ (pInt2 w iMax)

/-- MINU (R216, Table 7.6). -/
def execPorMinu (c : CoreRef) (w : W32) (s : State) : Res :=
  s.porReg c w ⟨0x01, 0x10⟩ (pInt2 w iMinu)

/-- MAXU (R216, Table 7.6). -/
def execPorMaxu (c : CoreRef) (w : W32) (s : State) : Res :=
  s.porReg c w ⟨0x01, 0x11⟩ (pInt2 w iMaxu)

/-- DIVU (R216, R165). -/
def execPorDivu (c : CoreRef) (w : W32) (s : State) : Res :=
  s.porReg c w ⟨0x01, 0x12⟩ (pInt2 w fun a b => (divU a b).1)

/-- DIVS (R216, R165). -/
def execPorDivs (c : CoreRef) (w : W32) (s : State) : Res :=
  s.porReg c w ⟨0x01, 0x13⟩ (pInt2 w fun a b => (divS a b).1)

/-- REMU (R216, R165). -/
def execPorRemu (c : CoreRef) (w : W32) (s : State) : Res :=
  s.porReg c w ⟨0x01, 0x14⟩ (pInt2 w fun a b => (remU a b).1)

/-- REMS (R216, R165). -/
def execPorRems (c : CoreRef) (w : W32) (s : State) : Res :=
  s.porReg c w ⟨0x01, 0x15⟩ (pInt2 w fun a b => (remS a b).1)

/-- CLZ (R216, Table 7.6). -/
def execPorClz (c : CoreRef) (w : W32) (s : State) : Res :=
  s.porReg c w ⟨0x01, 0x16⟩ (pInt2 w fun a _ => iClz a)

/-- POPC (R216, Table 7.6). -/
def execPorPopc (c : CoreRef) (w : W32) (s : State) : Res :=
  s.porReg c w ⟨0x01, 0x17⟩ (pInt2 w fun a _ => iPopc a)

/-- ADDP (R216, Table 7.6). -/
def execPorAddp (c : CoreRef) (w : W32) (s : State) : Res :=
  s.porReg c w ⟨0x01, 0x18⟩ (fun k => k.wp (pwD w) ((k.rp (pwA w) + k.rp (pwB w)) % 2 ^ 64))

/-- SUBP (R216, Table 7.6). -/
def execPorSubp (c : CoreRef) (w : W32) (s : State) : Res :=
  s.porReg c w ⟨0x01, 0x19⟩ (fun k => k.wp (pwD w) (wrapTo 64 ((k.rp (pwA w) : Int) - k.rp (pwB w))))

/-! ### Immediates (Table 7.7) -/

/-- ADDI (R216, Table 7.7). -/
def execPorAddi (c : CoreRef) (w : W32) (s : State) : Res :=
  s.porReg c w ⟨0x02, 0x00⟩ (pImm2 w iAdd)

/-- ANDI (R216, Table 7.7). -/
def execPorAndi (c : CoreRef) (w : W32) (s : State) : Res :=
  s.porReg c w ⟨0x03, 0x00⟩ (pImm2 w iAnd)

/-- ORI (R216, Table 7.7). -/
def execPorOri (c : CoreRef) (w : W32) (s : State) : Res :=
  s.porReg c w ⟨0x04, 0x00⟩ (pImm2 w iOr)

/-- XORI (R216, Table 7.7). -/
def execPorXori (c : CoreRef) (w : W32) (s : State) : Res :=
  s.porReg c w ⟨0x05, 0x00⟩ (pImm2 w iXor)

/-- SLTI (R216, Table 7.7). -/
def execPorSlti (c : CoreRef) (w : W32) (s : State) : Res :=
  s.porReg c w ⟨0x06, 0x00⟩ (pImm2 w iSlt)

/-- SLTIU (R216, Table 7.7). -/
def execPorSltiu (c : CoreRef) (w : W32) (s : State) : Res :=
  s.porReg c w ⟨0x07, 0x00⟩ (pImm2 w iSltu)

/-- SHLI (R216, Table 7.7). -/
def execPorShli (c : CoreRef) (w : W32) (s : State) : Res :=
  s.porReg c w ⟨0x08, 0x00⟩ (pImm2 w iShl)

/-- SHRI (R216, Table 7.7). -/
def execPorShri (c : CoreRef) (w : W32) (s : State) : Res :=
  s.porReg c w ⟨0x09, 0x00⟩ (pImm2 w iShr)

/-- SRAI (R216, Table 7.7). -/
def execPorSrai (c : CoreRef) (w : W32) (s : State) : Res :=
  s.porReg c w ⟨0x0A, 0x00⟩ (pImm2 w iSra)

/-- LUI (R216, Table 7.7). -/
def execPorLui (c : CoreRef) (w : W32) (s : State) : Res :=
  s.porReg c w ⟨0x0B, 0x00⟩ (fun k => k.wg (pwD w) (BitVec.ofNat 32 (pwU w * 2 ^ 12)))

/-- ADDPI (R216, Table 7.7). -/
def execPorAddpi (c : CoreRef) (w : W32) (s : State) : Res :=
  s.porReg c w ⟨0x0C, 0x00⟩ (fun k => k.wp (pwD w) (wrapTo 64 ((k.rp (pwA w) : Int) + pwImm w)))

/-- CRCW (R222). -/
def execPorCrcw (c : CoreRef) (w : W32) (s : State) : Res :=
  s.porReg c w ⟨0x38, 0x00⟩ (fun k => k.wg (pwD w) (BitVec.ofNat 32 (crcBytes (k.rg (pwA w)).toNat (leBytes 4 (k.rg (pwB w)).toNat))))

/-! ### Branches and jumps (R217) -/

/-- A jump: a target outside local memory, or one that is not a word's, is a fault; else the link and the pc. The pc of a
steward core is 32 bits wide and its targets have no such bound (DESIGN CHOICE, assumption 13). -/
def State.porJump (s : State) (c : CoreRef) (t : Nat) (f : Core → Core) : State :=
  if c matches .porter _ && decide (65536 ≤ t) then s.coreFault c cSEGMENT
  else if t % 4 != 0 then s.coreFault c cMISALIGNED
  else s.updCore c fun k => { f k with pc := BitVec.ofNat 32 t }

/-- The pc plus four times an offset, modulo 2^32. -/
def Core.target (k : Core) (off : Int) : Nat := wrapTo 32 ((k.pc.toNat : Int) + 4 * off)

/-- A conditional branch. -/
def State.porBranch (s : State) (c : CoreRef) (w : W32) (op : Nat) (cond : Nat → Nat → Bool) : Res :=
  s.porIssue c w ⟨op, 0⟩ fun s =>
    let k := s.core c
    if cond (k.rg (pwA w)).toNat (k.rg (pwB w)).toNat then .next (s.porJump c (k.target (pwSImm w)) id)
    else .next (s.updCore c Core.next)

/-- BEQ (R216, Table 7.7). -/
def execPorBeq (c : CoreRef) (w : W32) (s : State) : Res := s.porBranch c w 0x20 (fun a b => a == b)

/-- BNE (R216, Table 7.7). -/
def execPorBne (c : CoreRef) (w : W32) (s : State) : Res := s.porBranch c w 0x21 (fun a b => a != b)

/-- BLT (R216, Table 7.7). -/
def execPorBlt (c : CoreRef) (w : W32) (s : State) : Res := s.porBranch c w 0x22 (fun a b => decide (s32 a < s32 b))

/-- BGE (R216, Table 7.7). -/
def execPorBge (c : CoreRef) (w : W32) (s : State) : Res := s.porBranch c w 0x23 (fun a b => decide (s32 b ≤ s32 a))

/-- BLTU (R216, Table 7.7). -/
def execPorBltu (c : CoreRef) (w : W32) (s : State) : Res := s.porBranch c w 0x24 (fun a b => decide (a < b))

/-- BGEU (R216, Table 7.7). -/
def execPorBgeu (c : CoreRef) (w : W32) (s : State) : Res := s.porBranch c w 0x25 (fun a b => decide (b ≤ a))

/-- JAL (R216, Table 7.7). -/
def execPorJal (c : CoreRef) (w : W32) (s : State) : Res :=
  s.porIssue c w ⟨0x26, 0⟩ fun s =>
    .next (s.porJump c ((s.core c).target (sextOf 20 (pwU w))) fun k => k.wg (pwD w) (k.pc + 4))

/-- JALR (R216, R217). -/
def execPorJalr (c : CoreRef) (w : W32) (s : State) : Res :=
  s.porIssue c w ⟨0x27, 0⟩ fun s =>
    .next (s.porJump c (wrapTo 32 (((s.core c).rg (pwA w)).toNat + pwImm w)) fun k => k.wg (pwD w) (k.pc + 4))

end Sys2Proof.Machine
end

