-- ==== Sys2Proof/Machine/PorterFloat.lean ====
section
/-!
DEFINITION. Sys2Proof/Machine/PorterFloat.lean: floating point (R218), conversions (R219) and MX quantisation (R220) of
the porter set.
-/

namespace Sys2Proof.Machine

/-- FP32 under OP 0x30, BF16 in bits 15:0 under OP 0x31 (R218). -/
def pFmt (w : W32) : Fmt := if pwOp w = 0x31 then bf16 else fp32
def pBits (w : W32) (x : W32) : Nat := if pwOp w = 0x31 then x.toNat % 65536 else x.toNat
def pfA (w : W32) (k : Core) : Nat := pBits w (k.rf (pwA w))
def pfB (w : W32) (k : Core) : Nat := pBits w (k.rf (pwB w))
def pfC (w : W32) (k : Core) : Nat := pBits w (k.rf (pwC w))

/-- A result with its flags into f_d. -/
def pfRes (w : W32) (f : Core → Nat × Flags) (k : Core) : Core :=
  (k.wf (pwD w) (BitVec.ofNat 32 (f k).1)).orFlags (f k).2

/-- A result with its flags into g_d. -/
def pgRes (w : W32) (f : Core → Nat × Flags) (k : Core) : Core :=
  (k.wg (pwD w) (BitVec.ofNat 32 (f k).1)).orFlags (f k).2

/-- A comparison into g_d: 1 when it holds; a NaN operand gives 0. Conditions: 0 equal, 2 less, 3 less or equal
(R188). -/
def pCmp (w : W32) (cc : Nat) (k : Core) : Core := k.wg (pwD w) (BitVec.ofNat 32 (b2n (fcompare (pFmt w) cc (pfA w k) (pfB w k))))

/-- The seed and step of the core's leg; a steward core has none. -/
def State.coreDither (s : State) : CoreRef → Nat × Nat
  | .porter n => ((s.porter n.toNat).msg.seed.toNat, (s.porter n.toNat).msg.step.toNat)
  | .steward _ => (0, 0)

/-- The rounding of a conversion: by dither at the address in the pair named in C under OP 0x33 (R219). -/
def pRnd (w : W32) (ds : Nat × Nat) (k : Core) : Rnd :=
  if pwOp w = 0x33 then .dither (ditherOf ds.1 (k.rp (pwC w) % 2 ^ 57) ds.2) else .rne

/-- Element code of a value under a scale (R220). -/
def pMxq (f : Fmt) (w : W32) (ds : Nat × Nat) (k : Core) : Nat × Flags :=
  let sc := (k.rg (pwB w)).toNat % 256
  if sc = 255 then (0, flInvalid) else mxElem f sc (pRnd w ds k) (fdecode fp32 (k.rf (pwA w)).toNat)

/-- E8M0 scale from a block's largest magnitude (R220). -/
def pMxsc (f : Fmt) (w : W32) (k : Core) : Nat × Flags :=
  match mxScale f [fdecode fp32 (k.rf (pwA w)).toNat] with
  | none => (255, flInvalid)
  | some sc => (sc, 0)

/-- A conversion whose rounding may be by dither. -/
def State.porCvt (s : State) (c : CoreRef) (w : W32) (fn : Nat) (f : Nat × Nat → Core → Core) : Res :=
  s.porReg c w ⟨0x32, fn⟩ (f (s.coreDither c))

/-- FADD (R218, Table 7.8). -/
def execPorFadd (c : CoreRef) (w : W32) (s : State) : Res :=
  s.porReg c w ⟨0x30, 0x00⟩ (pfRes w fun k => fadd (pFmt w) (pfA w k) (pfB w k))

/-- FSUB (R218, Table 7.8). -/
def execPorFsub (c : CoreRef) (w : W32) (s : State) : Res :=
  s.porReg c w ⟨0x30, 0x01⟩ (pfRes w fun k => fsub (pFmt w) (pfA w k) (pfB w k))

/-- FMUL (R218, Table 7.8). -/
def execPorFmul (c : CoreRef) (w : W32) (s : State) : Res :=
  s.porReg c w ⟨0x30, 0x02⟩ (pfRes w fun k => fmul (pFmt w) (pfA w k) (pfB w k))

/-- FFMA (R218, Table 7.8). -/
def execPorFfma (c : CoreRef) (w : W32) (s : State) : Res :=
  s.porReg c w ⟨0x30, 0x03⟩ (pfRes w fun k => ffma (pFmt w) (pfA w k) (pfB w k) (pfC w k))

/-- FMIN (R218, Table 7.8). -/
def execPorFmin (c : CoreRef) (w : W32) (s : State) : Res :=
  s.porReg c w ⟨0x30, 0x04⟩ (pfRes w fun k => fmin (pFmt w) (pfA w k) (pfB w k))

/-- FMAX (R218, Table 7.8). -/
def execPorFmax (c : CoreRef) (w : W32) (s : State) : Res :=
  s.porReg c w ⟨0x30, 0x05⟩ (pfRes w fun k => fmax (pFmt w) (pfA w k) (pfB w k))

/-- FDIV (R218, Table 7.8). -/
def execPorFdiv (c : CoreRef) (w : W32) (s : State) : Res :=
  s.porReg c w ⟨0x30, 0x06⟩ (pfRes w fun k => fdiv (pFmt w) (pfA w k) (pfB w k))

/-- FSQRT (R218, Table 7.8). -/
def execPorFsqrt (c : CoreRef) (w : W32) (s : State) : Res :=
  s.porReg c w ⟨0x30, 0x07⟩ (pfRes w fun k => fsqrt (pFmt w) (pfA w k))

/-- FABS (R218, Table 7.8). -/
def execPorFabs (c : CoreRef) (w : W32) (s : State) : Res :=
  s.porReg c w ⟨0x30, 0x08⟩ (pfRes w fun k => (fabsBits (pFmt w) (pfA w k), 0))

/-- FNEG (R218, Table 7.8). -/
def execPorFneg (c : CoreRef) (w : W32) (s : State) : Res :=
  s.porReg c w ⟨0x30, 0x09⟩ (pfRes w fun k => (fnegBits (pFmt w) (pfA w k), 0))

/-- FEQ (R218, Table 7.8). -/
def execPorFeq (c : CoreRef) (w : W32) (s : State) : Res :=
  s.porReg c w ⟨0x30, 0x0A⟩ (pCmp w 0)

/-- FLT (R218, Table 7.8). -/
def execPorFlt (c : CoreRef) (w : W32) (s : State) : Res :=
  s.porReg c w ⟨0x30, 0x0B⟩ (pCmp w 2)

/-- FLE (R218, Table 7.8). -/
def execPorFle (c : CoreRef) (w : W32) (s : State) : Res :=
  s.porReg c w ⟨0x30, 0x0C⟩ (pCmp w 3)

/-- FMV.G (R218, Table 7.8). -/
def execPorFmvG (c : CoreRef) (w : W32) (s : State) : Res :=
  s.porReg c w ⟨0x30, 0x0D⟩ (fun k => k.wg (pwD w) (BitVec.ofNat 32 (pfA w k)))

/-- FMV.F (R218, Table 7.8). -/
def execPorFmvF (c : CoreRef) (w : W32) (s : State) : Res :=
  s.porReg c w ⟨0x30, 0x0E⟩ (fun k => k.wf (pwD w) (BitVec.ofNat 32 (pBits w (k.rg (pwA w)))))

/-! ### Conversions (Table 7.9) -/

/-- CVT.BF16.F32 (R219, Table 7.9). -/
def execPorCvtBf16F32 (c : CoreRef) (w : W32) (s : State) : Res :=
  s.porCvt c w 0x00 fun ds => pfRes w fun k => fconvert bf16 fp32 (pRnd w ds k) (k.rf (pwA w)).toNat

/-- CVT.F32.BF16 (R219, Table 7.9). -/
def execPorCvtF32Bf16 (c : CoreRef) (w : W32) (s : State) : Res :=
  s.porCvt c w 0x01 fun _ => pfRes w fun k => fconvert fp32 bf16 .rne ((k.rf (pwA w)).toNat % 65536)

/-- CVT.E4M3.F32 (R219, Table 7.9). -/
def execPorCvtE4m3F32 (c : CoreRef) (w : W32) (s : State) : Res :=
  s.porCvt c w 0x02 fun ds => pgRes w fun k => fconvert e4m3 fp32 (pRnd w ds k) (k.rf (pwA w)).toNat

/-- CVT.E5M2.F32 (R219, Table 7.9). -/
def execPorCvtE5m2F32 (c : CoreRef) (w : W32) (s : State) : Res :=
  s.porCvt c w 0x03 fun ds => pgRes w fun k => fconvert e5m2 fp32 (pRnd w ds k) (k.rf (pwA w)).toNat

/-- CVT.F32.E4M3 (R219, Table 7.9). -/
def execPorCvtF32E4m3 (c : CoreRef) (w : W32) (s : State) : Res :=
  s.porCvt c w 0x04 fun _ => pfRes w fun k => fconvert fp32 e4m3 .rne ((k.rg (pwA w)).toNat % 256)

/-- CVT.F32.E5M2 (R219, Table 7.9). -/
def execPorCvtF32E5m2 (c : CoreRef) (w : W32) (s : State) : Res :=
  s.porCvt c w 0x05 fun _ => pfRes w fun k => fconvert fp32 e5m2 .rne ((k.rg (pwA w)).toNat % 256)

/-- Floating point to INT32, clamped (R165). -/
def pToInt (w : W32) (rz : Bool) (k : Core) : Nat × Flags :=
  let (v, fl) := ftoInt fp32 rz (-(2 ^ 31)) (2 ^ 31 - 1) (k.rf (pwA w)).toNat
  (wrapTo 32 v, fl)

/-- CVT.S32.F32 (R219, Table 7.9). -/
def execPorCvtS32F32 (c : CoreRef) (w : W32) (s : State) : Res :=
  s.porCvt c w 0x06 fun _ => pgRes w (pToInt w false)

/-- CVT.S32.F32.RZ (R219, Table 7.9). -/
def execPorCvtS32F32Rz (c : CoreRef) (w : W32) (s : State) : Res :=
  s.porCvt c w 0x07 fun _ => pgRes w (pToInt w true)

/-- CVT.F32.S32 (R219, Table 7.9). -/
def execPorCvtF32S32 (c : CoreRef) (w : W32) (s : State) : Res :=
  s.porCvt c w 0x08 fun _ => pfRes w fun k => fofInt fp32 (s32 (k.rg (pwA w)).toNat)

/-- MXSC.E2M1 (R219, Table 7.9). -/
def execPorMxscE2m1 (c : CoreRef) (w : W32) (s : State) : Res :=
  s.porCvt c w 0x09 fun _ => pgRes w (pMxsc e2m1 w)

/-- MXSC.E2M3 (R219, Table 7.9). -/
def execPorMxscE2m3 (c : CoreRef) (w : W32) (s : State) : Res :=
  s.porCvt c w 0x0A fun _ => pgRes w (pMxsc e2m3 w)

/-- MXSC.E3M2 (R219, Table 7.9). -/
def execPorMxscE3m2 (c : CoreRef) (w : W32) (s : State) : Res :=
  s.porCvt c w 0x0B fun _ => pgRes w (pMxsc e3m2 w)

/-- MXQ.E2M1 (R219, Table 7.9). -/
def execPorMxqE2m1 (c : CoreRef) (w : W32) (s : State) : Res :=
  s.porCvt c w 0x0C fun ds => pgRes w (pMxq e2m1 w ds)

/-- MXQ.E2M3 (R219, Table 7.9). -/
def execPorMxqE2m3 (c : CoreRef) (w : W32) (s : State) : Res :=
  s.porCvt c w 0x0D fun ds => pgRes w (pMxq e2m3 w ds)

/-- MXQ.E3M2 (R219, Table 7.9). -/
def execPorMxqE3m2 (c : CoreRef) (w : W32) (s : State) : Res :=
  s.porCvt c w 0x0E fun ds => pgRes w (pMxq e3m2 w ds)

/-- MXD.E2M1 (R219, Table 7.9). -/
def execPorMxdE2m1 (c : CoreRef) (w : W32) (s : State) : Res :=
  s.porCvt c w 0x0F fun _ => pfRes w fun k => mxValue e2m1 ((k.rg (pwB w)).toNat % 256) (k.rg (pwA w)).toNat

/-- MXD.E2M3 (R219, Table 7.9). -/
def execPorMxdE2m3 (c : CoreRef) (w : W32) (s : State) : Res :=
  s.porCvt c w 0x10 fun _ => pfRes w fun k => mxValue e2m3 ((k.rg (pwB w)).toNat % 256) (k.rg (pwA w)).toNat

/-- MXD.E3M2 (R219, Table 7.9). -/
def execPorMxdE3m2 (c : CoreRef) (w : W32) (s : State) : Res :=
  s.porCvt c w 0x11 fun _ => pfRes w fun k => mxValue e3m2 ((k.rg (pwB w)).toNat % 256) (k.rg (pwA w)).toNat

end Sys2Proof.Machine
end

