-- ==== Sys2Proof/Machine/Steward.lean ====
section
/-!
DEFINITION. Sys2Proof/Machine/Steward.lean: memory as a steward core sees it (R423, R424): the L1 data caches, the shared
L2 (R425-R432) with its eviction buffer and prefetch, and uncached accesses; the supervisor extension (Table 14.2).
-/

namespace Sys2Proof.Machine

/-! ### Lines and ways (R425) -/

def lineOf (dpa : Nat) : Nat := dpa / 64
def lineSet (l : Nat) : Nat := l % 2048
def wayKey (l w : Nat) : Nat := 16 * lineSet l + w

/-- The ranges whose accesses are cached: the shared buffer, HBM and LPDDR. -/
def stwCached (dpa : Nat) : Bool :=
  match targetOf dpa with
  | .buffer => true
  | .site _ _ => true
  | _ => false

def State.wayOff (s : State) (w : Nat) : Bool := bitOf (s.fld STW.L2_STATUS STW.L2_STATUS_WAYS_OFF) w

/-- The enabled way that holds a line. -/
def State.l2Way (s : State) (l : Nat) : Option Nat :=
  (List.range 16).find? fun w => !s.wayOff w &&
    (match tabGet none s.steward.lines (wayKey l w) with
     | some e => e.line == l
     | none => false)

def State.l2Line (s : State) (l w : Nat) : Option L2Line := tabGet none s.steward.lines (wayKey l w)
def State.setL2 (s : State) (l w : Nat) (e : Option L2Line) : State :=
  s.updSteward fun x => { x with lines := tabSet none x.lines (wayKey l w) e }

/-- The fill in progress on a line. -/
def State.fillOf (s : State) (l : Nat) : Option Fill := s.steward.fills.find? fun f => f.line == l

/-! ### The eviction buffer (R429) -/

def State.evictFull (s : State) : Bool := decide (16 ≤ s.steward.evict.length)

/-- A whole line, or part of one, put at the end of the eviction buffer. -/
def State.evictPut (s : State) (e : EvEntry) : State := s.updSteward fun x => { x with evict := x.evict ++ [e] }

/-- A dirty line as an entry. -/
def lineEntry (e : L2Line) : EvEntry := { line := e.line, data := e.data, en := List.replicate 64 true }

/-- The unsent entry of a line, which reads and writes of it are served from or merged into. -/
def State.evictOf (s : State) (l : Nat) : Option EvEntry := s.steward.evict.find? fun e => e.line == l && !e.sent

/-- Whether any entry of a line is held. -/
def State.evictHeld (s : State) (l : Nat) : Bool := s.steward.evict.any fun e => e.line == l

/-- Replace the bytes `off` onward of a line's bytes. -/
def lineMerge (old : List Byte) (off : Nat) (data : List Byte) : List Byte :=
  old.take off ++ data ++ old.drop (off + data.length)

/-- A store merged into the unsent entry of its line. -/
def evictMerge (l off : Nat) (data : List Byte) : List EvEntry → List EvEntry
  | [] => []
  | e :: t =>
    if e.line = l && !e.sent then
      { e with data := lineMerge e.data off data, en := e.en.take off ++ data.map (fun _ => true) ++ e.en.drop (off + data.length) } :: t
    else e :: evictMerge l off data t

/-- The bytes of a line as memory gives them, with the entries of the buffer laid over them in order. -/
def State.evictOver (s : State) (l : Nat) (data : List Byte) : List Byte :=
  (s.steward.evict.filter fun e => e.line == l).foldl (fun d e => maskBytes d e.data e.en) data

/-- A core's stream ends: its entry is closed (R428). -/
def State.streamEnd (s : State) (k : Nat) : State :=
  let s := s.updSteward fun x => { x with evict := x.evict.map fun e => if e.open_ = some k then { e with open_ := none } else e }
  s.setScore k { s.score k with stream := none, storeRun := 0 }

/-! ### Allocation (R425, R426) -/

/-- One step of the LFSR of polynomial x^16 + x^14 + x^13 + x^11 + 1, in Fibonacci form (DESIGN CHOICE, assumption 14). -/
def lfsrStep (r : BitVec 16) : BitVec 16 :=
  let b := Nat.xor (Nat.xor (r.toNat % 2) (r.toNat / 4 % 2)) (Nat.xor (r.toNat / 8 % 2) (r.toNat / 32 % 2))
  BitVec.ofNat 16 (r.toNat / 2 + 32768 * b)

/-- The candidate ways of a set, ascending; a way that a fill in progress will complete into is none (DESIGN CHOICE,
assumption 14). -/
def State.l2Candidates (s : State) (l : Nat) : List Nat :=
  let c := STW.L2_CTRL
  let all :=
    if s.flag c STW.L2_CTRL_FILL_ONLY then [s.fld c STW.L2_CTRL_FILL_WAY]
    else (List.range 16).filter fun w => !bitOf (s.fld c STW.L2_CTRL_LOCK) w
  all.filter fun w => !s.wayOff w && !s.steward.fills.any fun f => lineSet f.line == lineSet l && f.way == w

/-- A way for a line that misses: none where the allocation must wait for the eviction buffer, way 16 where the set has no
candidate, else the way, with its victim taken out. -/
def State.l2Alloc (s : State) (l : Nat) : Option (State × Nat) :=
  let cs := s.l2Candidates l
  let step := fun (s : State) => s.updSteward fun x => { x with lfsr := lfsrStep x.lfsr }
  if cs.isEmpty then some (s, 16)
  else match cs.find? fun w => (s.l2Line l w).isNone with
    | some w => some (step s, w)
    | none =>
      let w := cs.getD (s.steward.lfsr.toNat % cs.length) 0
      match s.l2Line l w with
      | none => some (step s, w)
      | some v =>
        if v.dirty && v.err != 2 then
          (if s.evictFull then none else some ((step (s.evictPut (lineEntry v))).setL2 l w none, w))
        else some ((step s).setL2 l w none, w)

/-! ### Reads and writes of memory on behalf of the L2 -/

/-- Ask memory for a line: a background read of the slice, or a mesh request on VC3 to the site. Key 0: the steward
never translates. -/
def State.lineFetch (s : State) (l : Nat) : State :=
  match targetOf (64 * l) with
  | .site i _ =>
    s.meshSend 3 stewardEnd (.one (siteEnd i)) 1 (.req { op := .read, dpa := 64 * l, n := 64, who := .line l, back := stewardEnd })
  | _ =>
    let sl := (sliceOf (64 * l / 4096)).1
    let v := s.slice sl
    s.setSlice sl { v with bgR := v.bgR ++ [{ cls := .steward, dpa := 64 * l, len := 64, who := .line l }] }

/-- The runs of enabled bytes of a line: offset and bytes. -/
def enRuns : Nat → List Byte → List Bool → Option (Nat × List Byte) → List (Nat × List Byte)
  | i, d :: ds, e :: es, none => if e then enRuns (i + 1) ds es (some (i, [d])) else enRuns (i + 1) ds es none
  | i, d :: ds, e :: es, some (o, r) =>
    if e then enRuns (i + 1) ds es (some (o, r ++ [d])) else (o, r) :: enRuns (i + 1) ds es none
  | _, _, _, some r => [r]
  | _, _, _, none => []

/-- Send the writes of an eviction entry; the number sent. -/
def State.lineSend (s : State) (e : EvEntry) : State × Nat :=
  match targetOf (64 * e.line) with
  | .site i _ =>
    let rs := enRuns 0 e.data e.en none
    (rs.foldl (fun s r => s.meshSend 3 stewardEnd (.one (siteEnd i)) (1 + payFlits r.2.length)
      (.req { op := .write, dpa := 64 * e.line + r.1, n := r.2.length, data := r.2, who := .evict e.line, back := stewardEnd })) s,
      rs.length)
  | _ =>
    let sl := (sliceOf (64 * e.line / 4096)).1
    let v := s.slice sl
    (s.setSlice sl { v with bgW := v.bgW ++ [{ cls := .steward, dpa := 64 * e.line, len := 64, data := e.data, en := e.en, who := .evict e.line }] }, 1)

/-! ### L1 data caches (Table 14.1, R424) -/

/-- The lines of one set, newest first, kept to four ways (the replacement is a DESIGN CHOICE, assumption 14). -/
def l1Put (l : Nat) (d : List Byte) (c : List (Nat × List Byte)) : List (Nat × List Byte) :=
  let rest := c.filter fun e => e.1 != l
  let same := (rest.filter fun e => e.1 % 256 == l % 256).take 3
  (l, d) :: (same ++ rest.filter fun e => e.1 % 256 != l % 256)

def State.l1Fill (s : State) (k l : Nat) (d : List Byte) : State :=
  let v := s.score k
  s.setScore k { v with l1 := l1Put l d v.l1 }

/-- Remove a line from the data caches of every core that meets `p`. -/
def State.l1Drop (s : State) (l : Nat) (p : Nat → Bool) : State :=
  (List.range 4).foldl (fun s k =>
    let v := s.score k
    if p k && v.l1.any (fun e => e.1 == l) then s.setScore k { v with l1 := v.l1.filter fun e => e.1 != l } else s) s

/-- A core's write: the line leaves the other cores' caches, and the core's own copy takes the bytes. -/
def State.l1Store (s : State) (k l off : Nat) (data : List Byte) : State :=
  let s := s.l1Drop l fun j => j != k
  let v := s.score k
  s.setScore k { v with l1 := v.l1.map fun e => if e.1 = l then (l, lineMerge e.2 off data) else e }

/-! ### Errors of a way (R432) -/

/-- Disable a way: its correct dirty lines are written back, the others dropped, the way leaves use, and the guestbook has
its record. `bad` is the DPA of an unreadable dirty line, 0 for none. -/
def State.wayDisable (s : State) (w bad : Nat) : State :=
  if s.wayOff w then s else
  let mine := s.steward.lines.filter fun e => e.1 % 16 == w
  let s := mine.foldl (fun s e => match e.2 with
    | some v => if v.dirty && v.err != 2 then s.evictPut (lineEntry v) else s
    | none => s) s
  let s := s.updSteward fun x => { x with lines := x.lines.filter fun e => e.1 % 16 != w }
  let off := s.fld STW.L2_STATUS STW.L2_STATUS_WAYS_OFF + 2 ^ w
  let s := s.setFld STW.L2_STATUS STW.L2_STATUS_WAYS_OFF off
  let lk := s.fld STW.L2_CTRL STW.L2_CTRL_LOCK
  let s := s.setFld STW.L2_CTRL STW.L2_CTRL_LOCK (lk - (if bitOf lk w then 2 ^ w else 0))
  let s := s.event kL2 0 (srcOf 11 0) 0 bad [BitVec.ofNat 8 w]
  if 8 ≤ popCount 16 off && !s.flag STW.L2_STATUS STW.L2_STATUS_DEGRADED then
    (s.setFlag STW.L2_STATUS STW.L2_STATUS_DEGRADED true).degrade 9
  else s

/-- The check of a line that a core reads or a write-back reads: corrected errors count toward the way; an uncorrectable
one disables it. The Boolean says that the line could not be read. -/
def State.l2Check (s : State) (l w : Nat) : State × Bool :=
  match s.l2Line l w with
  | none => (s, false)
  | some v =>
    if v.err = 1 then
      let n := tabGet 0 s.steward.corrected w + 1
      let s := s.updSteward fun x => { x with corrected := tabSet 0 x.corrected w n }
      let s := s.setL2 l w (some { v with err := 0 })
      (if 16 ≤ n then s.wayDisable w 0 else s, false)
    else if v.err = 2 then (s.wayDisable w (if v.dirty then 64 * l else 0), v.dirty)
    else (s, false)

/-! ### Prefetch (R427) -/

/-- A core's load miss trains its trackers; the stride when the last three misses lie on one. The match of misses to
trackers is a DESIGN CHOICE (assumption 14): the first tracker that the miss extends, else the first that it lies within 16
lines of. -/
def trainTracker (l : Nat) (ts : List Tracker) : List Tracker × Option Int :=
  match ts.find? fun t => decide (t.hits ≥ 1) && decide ((l : Int) = t.last + t.stride) with
  | some t => ({ t with last := l, hits := t.hits + 1 } :: ts.erase t, some t.stride)
  | none =>
    match ts.find? fun t => t.last != l && decide (((l : Int) - t.last).natAbs ≤ 16) with
    | some t => ({ last := l, stride := (l : Int) - t.last, hits := 1 } :: ts.erase t, none)
    | none => (({ last := l, stride := 0, hits := 0 } :: ts).take 8, none)

/-- One prefetch: a fill that no core waits for, unless the line is there already or finds no way. -/
def State.prefetchLine (s : State) (l : Nat) : State :=
  if (s.l2Way l).isSome || (s.fillOf l).isSome || s.evictHeld l then s
  else match s.l2Alloc l with
    | none => s
    | some (s', w) =>
      if w = 16 then s
      else (s'.updSteward fun x => { x with fills := x.fills ++ [{ line := l, way := w, prefetch := true, waits := [], cmos := [] }] }).lineFetch l

/-- A load miss of a core, with its prefetches inside the tile of the miss. -/
def State.loadMiss (s : State) (k l : Nat) : State :=
  let v := s.score k
  let (ts, d) := trainTracker l v.trackers
  let s := s.setScore k { v with trackers := ts }
  match d with
  | none => s
  | some d =>
    let n := min 8 (s.fld STW.L2_CTRL STW.L2_CTRL_PF_DEPTH)
    (List.range n).foldl (fun s i =>
      let a : Int := l + d * (i + 1 : Nat)
      if a / 64 = (l / 64 : Nat) then s.prefetchLine a.toNat else s) s

/-! ### Cached accesses -/

/-- What a cached access comes to: done with its bytes, a core that waits for a fill, an allocation that must wait (the
instruction stays at issue), or a bus error. -/
inductive CacheRes where
  | ok (s : State) (data : List Byte)
  | wait (s : State)
  | hold
  | err (s : State) (cause : Nat)

/-- The core joins a fill. -/
def State.joinFill (s : State) (k l : Nat) (x : L2Wait) : State :=
  let s := s.updSteward fun w => { w with fills := w.fills.map fun f => if f.line = l then { f with waits := f.waits ++ [x] } else f }
  s.setScore k { s.score k with waiting := true }

/-- A new fill with one access waiting for it. -/
def State.startFill (s : State) (k l w : Nat) (x : L2Wait) : State :=
  let s := s.updSteward fun t => { t with fills := t.fills ++ [{ line := l, way := w, prefetch := false, waits := [x], cmos := [] }] }
  (s.setScore k { s.score k with waiting := true }).lineFetch l

/-- A cached read of `n` bytes, all in one line. -/
def State.cacheRead (s : State) (k dpa n : Nat) (x : L2Wait) : CacheRes :=
  let l := lineOf dpa
  let off := dpa % 64
  let take := fun (d : List Byte) => (d.drop off).take n
  let s := if (s.score k).stream = some l then s.streamEnd k else s
  match (s.score k).l1.find? fun e => e.1 == l with
  | some e => .ok s (take e.2)
  | none =>
    match s.l2Way l with
    | some w =>
      (match s.l2Line l w with
       | none => .hold
       | some v =>
         let (s', bad) := s.l2Check l w
         if bad then .err s' cUNCORRECTABLE
         else if (s'.l2Way l).isNone && v.err = 2 then .hold
         else .ok (s'.l1Fill k l v.data) (take v.data))
    | none =>
      match s.fillOf l with
      | some _ => .wait (s.joinFill k l x)
      | none =>
        match s.evictOf l with
        | some e => if ((e.en.drop off).take n).all id then .ok s (take e.data) else
          (match s.l2Alloc l with
           | none => .hold
           | some (s, w) => .wait ((s.startFill k l w x).loadMiss k l))
        | none =>
          match s.l2Alloc l with
          | none => .hold
          | some (s, w) => .wait ((s.startFill k l w x).loadMiss k l)

/-- The record of a core's store misses and of the bytes it has written in the last of their lines (R428). -/
def State.noteStore (s : State) (k l off n : Nat) (miss : Bool) : State :=
  let v := s.score k
  let m : BitVec 64 := BitVec.ofNat 64 ((2 ^ n - 1) * 2 ^ off)
  if v.storeLast = l ∧ v.storeRun ≠ 0 then s.setScore k { v with storeMask := v.storeMask ||| m }
  else if miss then
    let on := v.storeRun ≠ 0 ∧ v.storeLast + 1 = l ∧ v.storeMask = BitVec.allOnes 64
    s.setScore k { v with storeRun := if on then v.storeRun + 1 else 1, storeLast := l, storeMask := m }
  else s

/-- Whether a store miss of a core to a line streams: its last 8 store misses fell on the lines before, each wholly
written. -/
def State.streams (s : State) (k l : Nat) : Bool :=
  let v := s.score k
  s.flag STW.L2_CTRL STW.L2_CTRL_STREAM_ENABLE && decide (8 ≤ v.storeRun) && v.storeLast + 1 == l &&
    v.storeMask == BitVec.allOnes 64

/-- An entry that a core's stream gathers into. -/
def streamEntry (k l off : Nat) (data : List Byte) : EvEntry :=
  { line := l, data := lineMerge (List.replicate 64 0) off data,
    en := List.replicate off false ++ data.map (fun _ => true) ++ List.replicate (64 - off - data.length) false, open_ := some k }

/-- A store into the L2 line that holds it. -/
def State.l2Store (s : State) (l w off : Nat) (data : List Byte) : State :=
  match s.l2Line l w with
  | none => s
  | some v => s.setL2 l w (some { v with dirty := true, data := lineMerge v.data off data })

/-- A cached store, all in one line. -/
def State.cacheWrite (s : State) (k dpa : Nat) (data : List Byte) (fl : W32) : CacheRes :=
  let l := lineOf dpa
  let off := dpa % 64
  let n := data.length
  let st := (s.score k).stream
  -- A store to a line that is neither the gathered line nor the next ends the stream.
  let s := match st with
    | some g => if l = g || l = g + 1 then s else s.streamEnd k
    | none => s
  let done := fun (s : State) => CacheRes.ok (s.l1Store k l off data) []
  match s.l2Way l with
  | some w =>
    let (s', bad) := s.l2Check l w
    if bad then .err s' cUNCORRECTABLE
    else if (s'.l2Way l).isNone then .hold
    else
      let s' := if st = some l || (match st with | some g => l == g + 1 | none => false) then s'.streamEnd k else s'
      done ((s'.l2Store l w off data).noteStore k l off n false)
  | none =>
    match s.fillOf l with
    | some _ => .wait ((s.noteStore k l off n true).joinFill k l (.store k off data fl))
    | none =>
      match s.evictOf l with
      | some _ => done ((s.updSteward fun x => { x with evict := evictMerge l off data x.evict }).noteStore k l off n false)
      | none =>
        if s.streams k l then
          (if s.evictFull then .hold
           else
             let s := s.updSteward fun x => { x with evict := x.evict.map fun e => if e.open_ = some k then { e with open_ := none } else e }
             let s := (s.evictPut (streamEntry k l off data)).noteStore k l off n true
             done (s.setScore k { s.score k with stream := some l }))
        else match s.l2Alloc l with
          | none => .hold
          | some (s, w) =>
            if w = 16 then
              (if s.evictFull then .hold
               else done ((s.evictPut { streamEntry k l off data with open_ := none }).noteStore k l off n true))
            else .wait ((s.noteStore k l off n true).startFill k l w (.store k off data fl))

/-! ### Uncached accesses -/

/-- An uncached read: a control register, at once; a porter's local memory by VC3; a hostel store; other targets end in a
bus error of R32 or Table 7.3. -/
def State.plainRead (s : State) (dpa n : Nat) : Nat × List Byte :=
  match targetOf dpa with
  | .porterMem p =>
    if !s.flag (POR.STATUS p) POR.STATUS_PRESENT then (cABSENT, [])
    else if s.flag (POR.STATUS p) POR.STATUS_FENCED then (cFENCED, []) else (0, s.bytes dpa n)
  | .csr _ => (0, s.bytes dpa n)
  | .reserved => (cDECODE, [])
  | _ => (cUNREACHABLE, [])

/-- Whether a register access is one of R497: 4 B or 8 B. Alignment to the size is checked before. -/
def csrSized (n : Nat) : Bool := n == 4 || n == 8

def State.uncachedRead (s : State) (dpa n : Nat) : Nat × List Byte :=
  match targetOf dpa with
  | .csr off => if csrSized n then (0, leBytes n (s.csrRead off n)) else (cMISALIGNED, [])
  | _ => s.plainRead dpa n

def State.uncachedWrite (s : State) (dpa : Nat) (data : List Byte) : State × Nat :=
  match targetOf dpa with
  | .csr off => if csrSized data.length then (s.csrWrite off data.length (leVal data), 0) else (s, cMISALIGNED)
  | _ =>
    let r := s.plainRead dpa data.length
    if r.1 = 0 then (s.putBytes dpa data, 0) else (s, r.1)

/-! ### Loads and stores of a steward core -/

/-- The DPA of a local access (R423). -/
def State.stwAddr (s : State) (k : Nat) (a : Nat) : Nat :=
  (tabGet 0 (s.score k).csr 0x10).toNat % 65536 * 2 ^ 32 + a

/-- A read of a core, the value taken by `use`. -/
def State.stwRead (s : State) (k a n : Nat) (x : L2Wait) (use : State → List Byte → State) : State :=
  let dpa := s.stwAddr k a
  if dpa % n ≠ 0 then s.scoreTrap k cMISALIGNED dpa
  else if stwCached dpa then
    match s.cacheRead k dpa n x with
    | .ok s d => use s d
    | .wait s => s
    | .hold => s
    | .err s c => s.scoreTrap k c dpa
  else
    let (c, d) := s.uncachedRead dpa n
    if c ≠ 0 then s.scoreTrap k c dpa else use (s.etcRead (dpa - 0x40000000) n) d

/-- A write of a core, and what follows it. -/
def State.stwWrite (s : State) (k a : Nat) (data : List Byte) (fl : W32) (next : State → State) : State :=
  let dpa := s.stwAddr k a
  if dpa % data.length ≠ 0 then s.scoreTrap k cMISALIGNED dpa
  else if stwCached dpa then
    match s.cacheWrite k dpa data fl with
    | .ok s _ => next s
    | .wait s => s
    | .hold => s
    | .err s c => s.scoreTrap k c dpa
  else
    let (s, c) := s.uncachedWrite dpa data
    if c ≠ 0 then s.scoreTrap k c dpa else next s

/-- The core's pc moves past its instruction. -/
def State.stwNext (s : State) (k : Nat) : State := let v := s.score k; s.setScore k { v with core := v.core.next }

/-- The value of loaded bytes. -/
def loadVal (d : LoadDst) (l : List Byte) : Nat := if d.signed then wrapTo 32 (sextOf (8 * d.size) (leVal l)) else leVal l

/-- Put a loaded value in its register. -/
def Core.load (k : Core) (d : LoadDst) (l : List Byte) : Core :=
  if d.fl then k.wf d.reg (BitVec.ofNat 32 (loadVal d l))
  else if d.size = 8 then k.wp d.reg (leVal l)
  else k.wg d.reg (BitVec.ofNat 32 (loadVal d l))

def State.stwLoad (s : State) (k a : Nat) (d : LoadDst) : State :=
  s.stwRead k a d.size (.load k (s.stwAddr k a % 64) d) fun s l =>
    let v := s.score k
    s.setScore k { v with core := (v.core.load d l).next }

/-! ### Cache maintenance (R430, R431) -/

/-- A fill's way takes its line. -/
def State.l2Install (s : State) (l w : Nat) (data : List Byte) (dirty : Bool) : State :=
  s.setL2 l w (some { line := l, dirty := dirty, data := data })

/-- CLEAN: a dirty line is written back and kept clean; an unreadable one is not written. -/
def State.lineClean (s : State) (l : Nat) : State :=
  match s.l2Way l with
  | none => s
  | some w =>
    let (s, bad) := s.l2Check l w
    if bad then s
    else match s.l2Line l w with
      | none => s
      | some v => if v.dirty && v.line == l then (s.evictPut (lineEntry v)).setL2 l w (some { v with dirty := false }) else s

/-- INVAL: the line is dropped without write-back, and the cores' copies of it. -/
def State.lineInval (s : State) (l : Nat) : State :=
  let s := match s.l2Way l with
    | some w => s.setL2 l w none
    | none => s
  s.l1Drop l fun _ => true

/-- ZL: the line is allocated, or kept, holding zeros, dirty; none where the allocation must wait. -/
def State.lineZero (s : State) (l : Nat) : Option State :=
  let s := (List.range 4).foldl (fun s k => if (s.score k).stream = some l then s.streamEnd k else s) s
  let zero := List.replicate 64 (0 : Byte)
  let drop := fun (s : State) => s.l1Drop l fun _ => true
  match s.l2Way l with
  | some w => some (drop (s.l2Install l w zero true))
  | none =>
    match s.l2Alloc l with
    | none => none
    | some (s, w) =>
      if w = 16 then
        (if s.evictFull then none else some (drop (s.evictPut { line := l, data := zero, en := List.replicate 64 true })))
      else some (drop (s.l2Install l w zero true))

/-- Whether the write-back of a CLEAN or FLUSH finds the buffer full. -/
def State.cleanBlocked (s : State) (l : Nat) : Bool :=
  s.evictFull && (match s.l2Way l with
    | some w => (match s.l2Line l w with | some v => v.dirty | none => false)
    | none => false)

/-- An operation acts on a line: 0 CLEAN, 1 INVAL, 2 FLUSH, 3 ZL; none where it must wait. -/
def State.cmoAct (s : State) (op l : Nat) : Option State :=
  match op with
  | 0 => if s.cleanBlocked l then none else some (s.lineClean l)
  | 1 => some (s.lineInval l)
  | 2 => if s.cleanBlocked l then none else some ((s.lineClean l).lineInval l)
  | _ => s.lineZero l

/-- A CMO of a core: it waits for a fill of its line, or acts; a CLEAN or FLUSH then waits while an eviction entry holds
the line. -/
def State.cmoRun (s : State) (k op dpa : Nat) : State :=
  let l := lineOf dpa
  if !stwCached dpa then s.stwNext k
  else match s.fillOf l with
    | some _ =>
      let s := s.updSteward fun x => { x with fills := x.fills.map fun f => if f.line = l then { f with cmos := f.cmos ++ [(k, op)] } else f }
      s.setScore k { s.score k with waiting := true }
    | none =>
      match s.cmoAct op l with
      | none => s
      | some s =>
        let s := s.stwNext k
        if (op = 0 || op = 2) && s.evictHeld l then s.setScore k { s.score k with cleanWait := some l } else s

def State.cmo (s : State) (c : CoreRef) (w : W32) (op : Nat) : Res :=
  s.porIssue c w ⟨0x64, op⟩ fun s =>
    match c with
    | .porter _ => .next s
    | .steward k =>
      .next (s.cmoRun k.toNat op (s.stwAddr k.toNat (wrapTo 32 (((s.core c).rg (pwA w)).toNat + pwImm w))))

/-- CMO CLEAN (R423, R430, R431). -/
def execCmoClean (c : CoreRef) (w : W32) (s : State) : Res := s.cmo c w 0
/-- CMO INVAL (R423, R430). -/
def execCmoInval (c : CoreRef) (w : W32) (s : State) : Res := s.cmo c w 1
/-- CMO FLUSH (R423, R430, R431). -/
def execCmoFlush (c : CoreRef) (w : W32) (s : State) : Res := s.cmo c w 2
/-- CMO ZL (R423, R428, R430). -/
def execCmoZl (c : CoreRef) (w : W32) (s : State) : Res := s.cmo c w 3

/-! ### Fills, evictions and whole-cache maintenance -/

/-- An access that waited takes the filled bytes, or the bus error. -/
def State.fillWait (s : State) (l cause w : Nat) (data : List Byte) (x : L2Wait) : State :=
  let wake := fun (s : State) (k : Nat) => s.setScore k { s.score k with waiting := false }
  match x with
  | .load k off d =>
    let s := wake s k
    if cause ≠ 0 then s.scoreTrap k cause (64 * l + off)
    else
      let s := if w = 16 then s else s.l1Fill k l data
      let v := s.score k
      s.setScore k { v with core := (v.core.load d ((data.drop off).take d.size)).next }
  | .store k off b fl =>
    let s := wake s k
    if cause ≠ 0 then s.scoreTrap k cause (64 * l + off)
    else
      let s := if w = 16 then s.evictPut { streamEntry k l off b with open_ := none } else s.l2Store l w off b
      let s := s.l1Store k l off b
      let v := s.score k
      s.setScore k { v with core := { v.core.next with flags := v.core.flags ||| fl } }
  | .replay k =>
    let s := wake s k
    if cause ≠ 0 then s.scoreTrap k cause (64 * l) else s.l1Fill k l data

/-- The operations that waited for a fill act in ascending core order. -/
def State.fillCmos (s : State) (l : Nat) (ops : List (Nat × Nat)) : State :=
  (List.range 5).foldl (fun s k => (ops.filter fun o => o.1 == k).foldl (fun s o =>
    let s := if k < 4 then s.setScore k { s.score k with waiting := false } else s
    match s.cmoAct o.2 l with
    | none => s
    | some s =>
      if 4 ≤ k then s
      else
        let s := s.stwNext k
        if (o.2 = 0 || o.2 = 2) && s.evictHeld l then s.setScore k { s.score k with cleanWait := some l } else s) s) s

/-- L2_FILL_DONE (R425, R427, R431): the fill of the line completes into its way once memory has answered; what waited is
served, and then the operations that waited act. -/
def execL2FillDone (line : BitVec 48) (s : State) : Res :=
  let l := line.toNat
  match s.fillOf l with
  | none => .next s
  | some f =>
    match f.back with
    | none => .next s
    | some (cause, mem) =>
      let s := s.updSteward fun x => { x with fills := x.fills.filter fun g => g.line != l }
      let data := s.evictOver l (padTo 64 mem)
      let s := if cause = 0 && f.way < 16 then s.l2Install l f.way data false else s
      let s := if cause ≠ 0 && !f.waits.isEmpty then s.busError cause (srcOf 11 0) 0 (64 * l) else s
      let s := f.waits.foldl (fun s x => s.fillWait l cause f.way data x) s
      .next (s.fillCmos l f.cmos)

/-- EVICTION_WRITE (R428, R429, R431): the oldest entry, once closed, sends its writes, and leaves the buffer when memory
has taken them; cores whose CLEAN or FLUSH waited for the line go on. -/
def execEvictionWrite (s : State) : Res :=
  match s.steward.evict with
  | [] => .next s
  | e :: t =>
    if e.open_.isSome then .next s
    else if !e.sent then
      let (s, n) := s.lineSend e
      .next (s.updSteward fun x => { x with evict := { e with sent := true, left := n } :: t })
    else if e.left ≠ 0 then .next s
    else
      let s := s.updSteward fun x => { x with evict := t }
      .next ((List.range 4).foldl (fun s k =>
        if (s.score k).cleanWait = some e.line && !s.evictHeld e.line then s.setScore k { s.score k with cleanWait := none } else s) s)

/-- Run one operation on every line: a line that is being filled has it wait for the end of the fill. The run writes every
dirty line back, room or not (its time is bounded by R430 alone). GO clears when done. -/
def State.maintAll (s : State) (op : Nat) : State :=
  let s := s.steward.lines.foldl (fun s e => match e.2 with
    | none => s
    | some v =>
      if op = 1 then s.lineInval v.line else if op = 0 then s.lineClean v.line else (s.lineClean v.line).lineInval v.line) s
  let s := s.updSteward fun x => { x with fills := x.fills.map fun f => { f with cmos := f.cmos ++ [(4, op)] } }
  (s.setFld STW.L2_MAINT STW.L2_MAINT_OP (if op = 0 then 0 else if op = 2 then 1 else 2)).setFlag STW.L2_MAINT STW.L2_MAINT_GO false

/-- CLEAN_ALL: STW.L2_MAINT with OP 0 (R430, R455). -/
def execCleanAll (s : State) : Res := .next (s.maintAll 0)
/-- FLUSH_ALL: STW.L2_MAINT with OP 1 (R430, R455). -/
def execFlushAll (s : State) : Res := .next (s.maintAll 2)
/-- INVAL_ALL: STW.L2_MAINT with OP 2 (R430, R455). -/
def execInvalAll (s : State) : Res := .next (s.maintAll 1)

/-! ### The supervisor extension (Table 14.2) -/

/-- An instruction of the extension on a steward core; a porter never gets here (R215). -/
def State.stwIssue (s : State) (c : CoreRef) (w : W32) (op : Nat) (body : State → Nat → State) : Res :=
  s.porIssue c w ⟨op, 0⟩ fun s =>
    match c with
    | .porter _ => .next s
    | .steward k => .next (body s k.toNat)

/-- CSRR (R423): SEG_HI is register 0x10; the manual names no other, and another reads as a free value (assumption 12). -/
def execCsrr (c : CoreRef) (w : W32) (s : State) : Res :=
  s.stwIssue c w 0x60 fun s k =>
    let v := s.score k
    if pwI w = 0x10 then s.setScore k { v with core := (v.core.wg (pwD w) (tabGet 0 v.csr 0x10)).next }
    else
      let x : W32 := BitVec.ofNat 32 (Config.freeWord s.free).toNat
      { s with free := s.free + 1 }.setScore k { v with core := (v.core.wg (pwD w) x).next }

/-- CSRW (R423): SEG_HI holds DPA bits 47:32; a write of another number changes nothing (assumption 12). -/
def execCsrw (c : CoreRef) (w : W32) (s : State) : Res :=
  s.stwIssue c w 0x61 fun s k =>
    let v := s.score k
    let csr := if pwI w = 0x10 then tabSet 0 v.csr 0x10 (BitVec.ofNat 32 ((v.core.rg (pwA w)).toNat % 65536)) else v.csr
    s.setScore k { v with core := v.core.next, csr := csr }

/-- ERET (R423): the core goes on at the pc that its exception saved. -/
def execEret (c : CoreRef) (w : W32) (s : State) : Res :=
  s.stwIssue c w 0x62 fun s k =>
    let v := s.score k
    s.setScore k { v with core := { v.core with pc := v.epc }, trapped := false }

/-- WFI (R423): the core waits for an interrupt of the always-on wake logic. -/
def execWfi (c : CoreRef) (w : W32) (s : State) : Res :=
  s.stwIssue c w 0x63 fun s k =>
    let v := s.score k
    s.setScore k { v with core := v.core.next, wfi := true }

/-- WAKE_INTERRUPT (R423): ends a core's WFI. -/
def execWakeInterrupt (k : BitVec 2) (s : State) : Res :=
  .next (s.setScore k.toNat { s.score k.toNat with wfi := false })

/-- SYNC (R423): closes the core's stream, and stays at issue until the eviction buffer is empty: a core's accesses are over
before it issues, and an entry does not say whose write-back it is (DESIGN CHOICE, assumption 14). -/
def execSync (c : CoreRef) (w : W32) (s : State) : Res :=
  s.stwIssue c w 0x65 fun s k =>
    let s := if (s.score k).stream.isSome then s.streamEnd k else s
    if s.steward.evict.isEmpty then s.stwNext k else s

/-- IINV (R423): a command carries its word, so the instruction cache holds nothing in the model (assumption 1). -/
def execIinv (c : CoreRef) (w : W32) (s : State) : Res := s.stwIssue c w 0x66 fun s k => s.stwNext k

end Sys2Proof.Machine
end

