-- ==== Sys2Proof/Machine/PorterMem.lean ====
section
/-!
DEFINITION. Sys2Proof/Machine/PorterMem.lean: loads and stores of local memory (R209, R216, R217), which on a steward core
address a DPA (R423), and the tally instructions (R221).
-/

namespace Sys2Proof.Machine

/-! ### Local accesses -/

/-- The fault of a local access of `n` bytes at an address, 0 for none: a byte beyond local memory (R209), then alignment
(R217). -/
def localFault (a n align : Nat) : Nat :=
  if 65536 < a + n then cSEGMENT else if a % align ≠ 0 then cMISALIGNED else 0

/-- The address of a local access: g_a plus IMM15 modulo 2^32. -/
def Core.localAddr (k : Core) (a : Nat) (imm : Int) : Nat := wrapTo 32 ((k.rg a).toNat + imm)

/-- A read of `n` bytes of local memory, the bytes taken by `use`. -/
def State.localRead (s : State) (c : CoreRef) (a n : Nat) (x : Nat → L2Wait) (use : State → List Byte → State) : State :=
  match c with
  | .porter p =>
    let f := localFault a n n
    if f ≠ 0 then s.porFault p.toNat f else use s (s.bytes (porterBase p.toNat + a) n)
  | .steward k => s.stwRead k.toNat a n (x k.toNat) use

/-- A write of bytes to local memory, and what follows it; `fl` are the sticky flags of the instruction. -/
def State.localWrite (s : State) (c : CoreRef) (a : Nat) (data : List Byte) (fl : Flags) (next : State → State) : State :=
  match c with
  | .porter p =>
    let f := localFault a data.length data.length
    if f ≠ 0 then s.porFault p.toNat f else next (s.putBytes (porterBase p.toNat + a) data)
  | .steward k => s.stwWrite k.toNat a data (BitVec.ofNat 32 fl) next

/-- The core goes on to its next instruction. -/
def State.coreNext (s : State) (c : CoreRef) : State := s.updCore c Core.next

/-! ### Loads and stores (Table 7.7) -/

/-- A load into a register, a pair or an f register. -/
def State.porLoad (s : State) (c : CoreRef) (w : W32) (op size : Nat) (signed fl : Bool) : Res :=
  s.porIssue c w ⟨op, 0⟩ fun s =>
    let a := (s.core c).localAddr (pwA w) (pwImm w)
    let d : LoadDst := { reg := pwD w, fl := fl, size := size, signed := signed }
    .next (s.localRead c a size (fun k => .load k (s.stwAddr k a % 64) d) fun s l => s.updCore c fun k => (k.load d l).next)

/-- A store of bytes of a value. -/
def State.porStore (s : State) (c : CoreRef) (w : W32) (op size : Nat) (val : Core → Nat) : Res :=
  s.porIssue c w ⟨op, 0⟩ fun s =>
    let k := s.core c
    .next (s.localWrite c (k.localAddr (pwA w) (pwSImm w)) (leBytes size (val k)) 0 fun s => s.coreNext c)

/-- LD.B (R216, R217). -/
def execPorLdB (c : CoreRef) (w : W32) (s : State) : Res := s.porLoad c w 0x10 1 true false

/-- LD.BU (R216, R217). -/
def execPorLdBu (c : CoreRef) (w : W32) (s : State) : Res := s.porLoad c w 0x11 1 false false

/-- LD.H (R216, R217). -/
def execPorLdH (c : CoreRef) (w : W32) (s : State) : Res := s.porLoad c w 0x12 2 true false

/-- LD.HU (R216, R217). -/
def execPorLdHu (c : CoreRef) (w : W32) (s : State) : Res := s.porLoad c w 0x13 2 false false

/-- LD.W (R216, R217). -/
def execPorLdW (c : CoreRef) (w : W32) (s : State) : Res := s.porLoad c w 0x14 4 false false

/-- LD.D (R216, R217). -/
def execPorLdD (c : CoreRef) (w : W32) (s : State) : Res := s.porLoad c w 0x15 8 false false

/-- LDF (R216, R217). -/
def execPorLdf (c : CoreRef) (w : W32) (s : State) : Res := s.porLoad c w 0x16 4 false true

/-- ST.B (R216, R217). -/
def execPorStB (c : CoreRef) (w : W32) (s : State) : Res := s.porStore c w 0x18 1 fun k => (k.rg (pwB w)).toNat

/-- ST.H (R216, R217). -/
def execPorStH (c : CoreRef) (w : W32) (s : State) : Res := s.porStore c w 0x19 2 fun k => (k.rg (pwB w)).toNat

/-- ST.W (R216, R217). -/
def execPorStW (c : CoreRef) (w : W32) (s : State) : Res := s.porStore c w 0x1A 4 fun k => (k.rg (pwB w)).toNat

/-- ST.D (R216, R217). -/
def execPorStD (c : CoreRef) (w : W32) (s : State) : Res := s.porStore c w 0x1B 8 fun k => k.rp (pwB w)

/-- STF (R216, R217). -/
def execPorStf (c : CoreRef) (w : W32) (s : State) : Res := s.porStore c w 0x1C 4 fun k => (k.rf (pwB w)).toNat

/-! ### Tallies (R221) -/

/-- The floating format of a tally conversion. -/
def pTallyFmt (w : W32) : Fmt := if pwH w then bf16 else fp32

/-- TCVI (R221, R122). -/
def execPorTcvi (c : CoreRef) (w : W32) (s : State) : Res := 
  s.porIssue c w ⟨0x34, 0⟩ fun s =>
    let k := s.core c
    let f := pTallyFmt w
    let (t, fl) := toTally (pwWin w) (fdecode f ((k.rf (pwA w)).toNat % 2 ^ fmtWidth f))
    .next (s.localWrite c (k.rg (pwD w)).toNat (leBytes 16 t) fl fun s => s.updCore c fun k => (k.orFlags fl).next)

/-- TCVO (R221, R125). -/
def execPorTcvo (c : CoreRef) (w : W32) (s : State) : Res := 
  s.porIssue c w ⟨0x35, 0⟩ fun s =>
    let k := s.core c
    .next (s.localRead c (k.rg (pwA w)).toNat 16 .replay fun s l =>
      let (v, fl) := fromTally (pTallyFmt w) (pwWin w) (leVal l)
      s.updCore c fun k => ((k.wf (pwD w) (BitVec.ofNat 32 v)).orFlags fl).next)

/-- TADDM (R221, R123). -/
def execPorTaddm (c : CoreRef) (w : W32) (s : State) : Res := 
  s.porIssue c w ⟨0x36, 0⟩ fun s =>
    let k := s.core c
    .next (s.localRead c (k.rg (pwA w)).toNat 16 .replay fun s x =>
      s.localRead c (k.rg (pwB w)).toNat 16 .replay fun s y =>
        s.localWrite c (k.rg (pwD w)).toNat (leBytes 16 (tallyAdd (leVal x) (leVal y))) 0 fun s => s.coreNext c)

end Sys2Proof.Machine
end

