-- ==== Sys2Proof/Machine/PorterFar.lean ====
section
/-!
DEFINITION. Sys2Proof/Machine/PorterFar.lean: far and grid requests of a porter (R223-R231), waits and special registers
(R230, R232), and the porter's side of the mesh interface (R208, R225, R226, R233-R238).
-/

namespace Sys2Proof.Machine

/-! ### Requests (R223, R224, R228) -/

/-- The lowest free request slot. -/
def Porter.freeSlot (p : Porter) : Option Nat := (List.range 8).find? fun i => (tabFind p.slots i).isNone

/-- The fault of a request at issue, 0 for none: its length, a far range across a 4 KiB boundary, alignment to `al` of the
far address (or grid offset) and the local offset, alignment of the completion word, and local ranges. The order of the
checks is a DESIGN CHOICE (assumption 15). -/
def reqFault (n far loc locN al : Nat) (moves isFar : Bool) (compl : Option Nat) : Nat :=
  if moves && (n % 4 != 0 || n < 4 || 4096 < n) then cLENGTH
  else if isFar && 4096 < far % 4096 + n then cLENGTH
  else if far % al ≠ 0 || loc % al ≠ 0 || (compl.getD 0) % 4 ≠ 0 then cMISALIGNED
  else if 65536 < loc + locN || (match compl with | some o => decide (65536 < o + 4) | none => false) then cSEGMENT
  else 0

/-- The completion word of a request: the offset in g_c, none when C is 0. -/
def Core.compl (k : Core) (w : W32) : Option Nat := if pwC w = 0 then none else some (k.rg (pwC w)).toNat

/-- Take a slot, count the request, send its packet, and go on. -/
def State.porRequest (s : State) (n : Nat) (r : PorReq) (vc flits : Nat) (dst : MeshEnd) (body : Nat → MeshBody) : State :=
  let p := s.porter n
  match p.freeSlot with
  | none => s
  | some i =>
    let s := s.setPorter n { p with slots := tabInsert p.slots i { r with id := (s.reg (POR.REQ_COUNT n)).toNat }, core := p.core.next }
    ((s.porCount n).bump (POR.REQ_COUNT n) 1).meshSend vc (coreEnd n) (.one dst) flits (body i)

/-- A far request: its checks at issue, a wait while no slot is free, and its packet to the translation stop. -/
def State.porFarReq (s : State) (c : CoreRef) (w : W32) (op n loc locN al flits : Nat) (moves : Bool) (acc : AccOp) (data : List Byte) : Res :=
  match c with
  | .steward _ => .next s
  | .porter m =>
    let p := s.porter m.toNat
    let k := p.core
    let dva := k.rp (pwA w)
    let f := reqFault n dva loc locN al moves true (k.compl w)
    if f ≠ 0 then .next (s.porFault m.toNat f)
    else .next (s.porRequest m.toNat { op := op, dst := pwD w, n := n, compl := k.compl w } 0 flits (edgeEnd (stopOf m.toNat)) fun i =>
      .far dva { op := acc, dpa := 0, n := n, data := data, launch := p.msg.launch, who := .porter m.toNat i, back := coreEnd m.toNat })

/-- FLD (R223, R229). -/
def execPorFld (c : CoreRef) (w : W32) (s : State) : Res :=
  s.porIssue c w ⟨0x40, 0⟩ fun s => s.porFarReq c w 0x40 (if pwTY w = 1 then 8 else 4) 0 0 4 1 false .read []

/-- FST (R223). -/
def execPorFst (c : CoreRef) (w : W32) (s : State) : Res :=
  s.porIssue c w ⟨0x41, 0⟩ fun s =>
    let k := s.core c
    let n := if pwTY w = 1 then 8 else 4
    s.porFarReq c w 0x41 n 0 0 4 1 false .write (leBytes n (if pwTY w = 1 then k.rp (pwB w) else (k.rg (pwB w)).toNat))

/-- A request that moves `n` bytes of local memory at g_d. The local bytes of a store or an add leave at issue
(DESIGN CHOICE, assumption 15). -/
def State.porMove (s : State) (c : CoreRef) (w : W32) (op al : Nat) (acc : AccOp) (out : Bool) : Res :=
  match c with
  | .steward _ => .next s
  | .porter m =>
    let k := s.core c
    let n := (k.rg (pwB w)).toNat
    let loc := (k.rg (pwD w)).toNat
    let f := reqFault n (k.rp (pwA w)) loc n al true true (k.compl w)
    if f ≠ 0 then .next (s.porFault m.toNat f)
    else match (s.porter m.toNat).freeSlot with
      | none => .next s
      | some i =>
        let p := s.porter m.toNat
        let data := if out then s.bytes (porterBase m.toNat + loc) n else []
        .next (((s.setPorter m.toNat { p with
            slots := tabInsert p.slots i { op := op, dst := loc, n := n, compl := k.compl w, id := (s.reg (POR.REQ_COUNT m.toNat)).toNat }, core := p.core.next }).porCount m.toNat
          |>.bump (POR.REQ_COUNT m.toNat) 1).meshSend 0 (coreEnd m.toNat) (.one (edgeEnd (stopOf m.toNat)))
            (1 + payFlits data.length) (.far (k.rp (pwA w)) { op := acc, dpa := 0, n := n, data := data, launch := p.msg.launch,
                                                              who := .porter m.toNat i, back := coreEnd m.toNat }))

/-- FGET (R223, R224). -/
def execPorFget (c : CoreRef) (w : W32) (s : State) : Res := s.porIssue c w ⟨0x42, 0⟩ fun s => s.porMove c w 0x42 4 .read false

/-- FPUT (R223, R224). -/
def execPorFput (c : CoreRef) (w : W32) (s : State) : Res := s.porIssue c w ⟨0x43, 0⟩ fun s => s.porMove c w 0x43 4 .write true

/-- The alignment of FRED's addresses: the element size, at least 4 B (R224). -/
def fredAlign (ty : Nat) : Nat := if ty = 3 then 8 else if ty = 4 then 16 else 4

/-- FRED (R223-R225). -/
def execPorFred (c : CoreRef) (w : W32) (s : State) : Res :=
  s.porIssue c w ⟨0x44, 0⟩ fun s => s.porMove c w 0x44 (fredAlign (pwTY w)) (.add (pwTY w)) true

/-- TAUD (R227): the tile that holds the far address. -/
def execPorTaud (c : CoreRef) (w : W32) (s : State) : Res :=
  s.porIssue c w ⟨0x45, 0⟩ fun s => s.porFarReq c w 0x45 0 0 0 4 1 false .audit []

/-- The porter and offset of a grid address; none where bits 31:28 are not 0 (R209). -/
def gridOf (a : Nat) : Option (Nat × Nat) :=
  if a / 2 ^ 28 ≠ 0 then none else some (64 * bitsOf a 27 22 + bitsOf a 21 16, a % 65536)

/-- GPUT (R223, R224, R226). -/
def execPorGput (c : CoreRef) (w : W32) (s : State) : Res :=
  s.porIssue c w ⟨0x46, 0⟩ fun s =>
    match c with
    | .steward _ => .next s
    | .porter m =>
      let p := s.porter m.toNat
      let k := p.core
      let n := (k.rg (pwB w)).toNat
      let loc := (k.rg (pwD w)).toNat
      match gridOf (k.rg (pwA w)).toNat with
      | none => .next (s.porFault m.toNat cSEGMENT)
      | some (t, off) =>
        let f := reqFault n off loc n 4 true false (k.compl w)
        if f ≠ 0 then .next (s.porFault m.toNat f)
        else if 65536 < off + n then .next (s.porFault m.toNat cSEGMENT)
        else
          let data := s.bytes (porterBase m.toNat + loc) n
          .next (s.porRequest m.toNat { op := 0x46, dst := 0, n := n, compl := k.compl w } 2 (1 + payFlits n) (coreEnd t) fun i =>
            .gput p.msg.launch off data (.porter m.toNat i) (coreEnd m.toNat))

/-- GADD (R223, R225, R226). -/
def execPorGadd (c : CoreRef) (w : W32) (s : State) : Res :=
  s.porIssue c w ⟨0x47, 0⟩ fun s =>
    match c with
    | .steward _ => .next s
    | .porter m =>
      let p := s.porter m.toNat
      let k := p.core
      match gridOf (k.rg (pwA w)).toNat with
      | none => .next (s.porFault m.toNat cSEGMENT)
      | some (t, off) =>
        let f := reqFault 4 off 0 0 4 false false (k.compl w)
        if f ≠ 0 then .next (s.porFault m.toNat f)
        else .next (s.porRequest m.toNat { op := 0x47, dst := 0, n := 4, compl := k.compl w } 2 1 (coreEnd t) fun i =>
          .gadd p.msg.launch off (k.rg (pwB w)) (.porter m.toNat i) (coreEnd m.toNat))

/-! ### Waits, milestones and the end of a leg (R230, R232) -/

/-- A packet of a porter to the dispatcher. -/
def State.porNotify (s : State) (n : Nat) (b : MeshBody) : State := s.meshSend 3 (coreEnd n) (.one stewardEnd) 1 b

/-- The wait ends, and its instruction has its effect. -/
def State.porGo (s : State) (n : Nat) (x : PorWait) : State :=
  let p := s.porter n
  let s := s.setPorter n { p with wait := .none, core := p.core.next }
  match x with
  | .mile id => s.porNotify n (.mile p.msg id)
  | .exit => (s.setFlag (POR.STATUS n) POR.STATUS_RUNNING false).porNotify n (.done p.msg p.core.flags)
  | _ => s

/-- Whether what a porter waits for has come. -/
def State.porReady (s : State) (n : Nat) : PorWait → Bool
  | .none => false
  | .waitq k => decide ((s.porter n).slots.length ≤ k)
  | .waitw off b => decide (0 ≤ sextOf 32 (wrapTo 32 ((s.word (porterBase n + off) 4 : Int) - b.toNat)))
  | .mile _ => (s.porter n).slots.isEmpty
  | .exit => (s.porter n).slots.isEmpty

/-- Wait, or go on at once. -/
def State.porWait (s : State) (n : Nat) (x : PorWait) : State :=
  if s.porReady n x then s.porGo n x else s.setPorter n { s.porter n with wait := x }

/-- WAITQ (R230); a steward core has no request slots. -/
def execPorWaitq (c : CoreRef) (w : W32) (s : State) : Res :=
  s.porIssue c w ⟨0x50, 0⟩ fun s =>
    match c with
    | .steward k => .next (s.stwNext k.toNat)
    | .porter n => .next (s.porWait n.toNat (.waitq (pwI w)))

/-- WAITW (Table 7.11). A steward core stays at issue until the word has come. -/
def execPorWaitw (c : CoreRef) (w : W32) (s : State) : Res :=
  s.porIssue c w ⟨0x51, 0⟩ fun s =>
    let k := s.core c
    let a := (k.rg (pwA w)).toNat
    let b := k.rg (pwB w)
    match c with
    | .steward j =>
      .next (s.stwRead j.toNat a 4 (.replay j.toNat) fun s l =>
        if 0 ≤ sextOf 32 (wrapTo 32 ((leVal l : Int) - b.toNat)) then s.stwNext j.toNat else s)
    | .porter n =>
      let f := localFault a 4 4
      if f ≠ 0 then .next (s.porFault n.toNat f) else .next (s.porWait n.toNat (.waitw a b))

/-- MILE (Table 7.11). -/
def execPorMile (c : CoreRef) (w : W32) (s : State) : Res :=
  s.porIssue c w ⟨0x52, 0⟩ fun s =>
    match c with
    | .steward _ => .next s
    | .porter n => .next (s.porWait n.toNat (.mile (pwU w)))

/-- EXIT (Table 7.11, R232): the porter's s_flags go with its DONE into the leg's flags. -/
def execPorExit (c : CoreRef) (w : W32) (s : State) : Res :=
  s.porIssue c w ⟨0x53, 0⟩ fun s =>
    match c with
    | .steward _ => .next s
    | .porter n => .next (s.porWait n.toNat .exit)

/-- WAITQ_RESUME (R230): a porter held by WAITQ, or by the WAITQ 0 of MILE or EXIT, goes on. -/
def execWaitqResume (c : CoreRef) (s : State) : Res :=
  match c with
  | .steward _ => .next s
  | .porter n =>
    let x := (s.porter n.toNat).wait
    match x with
    | .none => .next s
    | .waitw _ _ => .next s
    | _ => if s.porReady n.toNat x then .next (s.porGo n.toNat x) else .next s

/-- WAITW_RESUME (Table 7.11). -/
def execWaitwResume (c : CoreRef) (s : State) : Res :=
  match c with
  | .steward _ => .next s
  | .porter n =>
    let x := (s.porter n.toNat).wait
    match x with
    | .waitw _ _ => if s.porReady n.toNat x then .next (s.porGo n.toNat x) else .next s
    | _ => .next s

/-! ### Special registers (Table 7.12) -/

/-- A special register of a porter; s_cycle is a free value (assumption 9). -/
def State.porSreg (s : State) (n i : Nat) : Nat × State :=
  let p := s.porter n
  let m := p.msg
  if i = 0x14 then ((Config.freeCycle s.free).toNat, { s with free := s.free + 1 })
  else
    (match i with
     | 0x00 => n / 64
     | 0x01 => n % 64
     | 0x02 => m.pidx
     | 0x03 => m.nporters
     | 0x04 => m.launch.toNat
     | 0x05 => m.chip
     | 0x06 => m.nchips
     | 0x07 => p.core.flags.toNat
     | 0x08 => m.args
     | 0x09 => p.slots.length
     | 0x10 => m.seed.toNat
     | _ => m.step.toNat, s)

/-- The same on a steward core, which runs no leg: s_flags and s_slots, and a free value for the others (assumption 12). -/
def State.stwSreg (s : State) (k i : Nat) : Nat × State :=
  if i = 0x07 then ((s.score k).core.flags.toNat, s)
  else if i = 0x09 then (0, s)
  else ((Config.freeWord s.free).toNat, { s with free := s.free + 1 })

/-- MOVS (Table 7.11). -/
def execPorMovs (c : CoreRef) (w : W32) (s : State) : Res :=
  s.porIssue c w ⟨0x54, 0⟩ fun s =>
    let (v, s) := match c with
      | .porter n => s.porSreg n.toNat (pwI w)
      | .steward k => s.stwSreg k.toNat (pwI w)
    .next (s.updCore c fun k => (if 0x10 ≤ pwI w then k.wp (pwD w) v else k.wg (pwD w) (BitVec.ofNat 32 v)).next)

/-- WSR (Table 7.11): s_flags. -/
def execPorWsr (c : CoreRef) (w : W32) (s : State) : Res :=
  s.porReg c w ⟨0x55, 0⟩ fun k => { k with flags := k.rg (pwA w) }

/-! ### Responses (R223, R227, R231) -/

/-- Take the first delivered packet of a core that `p` meets. -/
def State.takeInbox (s : State) (e : MeshEnd) (p : MeshBody → Bool) : Option (MeshBody × State) :=
  (inboxTake p (s.inbox e)).map fun r => (r.1, s.setInbox e r.2)

/-- Add one to a completion word. -/
def State.complAdd (s : State) (n : Nat) : Option Nat → State
  | none => s
  | some off =>
    let a := porterBase n + off
    s.putBytes a (leBytes 4 (s.word a 4 + 1))

/-- A request completes with its data. -/
def State.porComplete (s : State) (n slot : Nat) (r : PorReq) (data : List Byte) : State :=
  let s :=
    if r.op = 0x40 then
      (let p := s.porter n
       let k := if r.n = 8 then p.core.wp r.dst (leVal data) else p.core.wg r.dst (BitVec.ofNat 32 (leVal data))
       s.setPorter n { p with core := k })
    else if r.op = 0x45 then
      (let p := s.porter n
       s.setPorter n { p with core := p.core.wp r.dst (leVal data) })
    else if r.op = 0x42 then s.putBytes (porterBase n + r.dst) data
    else s
  (s.complAdd n r.compl).porFree n slot

/-- FAR_RESPONSE: the next response or acknowledgement at a porter. -/
def execFarResponse (n : BitVec 12) (s : State) : Res :=
  let m := n.toNat
  match s.takeInbox (coreEnd m) (fun b => match b with | .resp (.porter _ _) _ _ => true | _ => false) with
  | some (.resp (.porter _ slot) cause data, s) =>
    (match tabFind (s.porter m).slots slot with
     | none => .next s
     | some r =>
       if cause ≠ 0 && r.op ≠ 0x45 then
         -- A porter that a kill has stopped takes no second fault (R236).
         .next (if (s.porter m).stopped then s.porFree m slot
           else (s.porFree m slot).porFaultAt m cBUS_ERROR cause (s.porter m).core.pc.toNat)
       else .next (s.porComplete m slot r data))
  | _ => .next s

/-! ### The interface port (R208, R225, R226) -/

/-- Whether a porter runs the leg of a launch. -/
def State.porRuns (s : State) (n : Nat) (l : BitVec 16) : Bool :=
  s.flag (POR.STATUS n) POR.STATUS_RUNNING && (s.porter n).msg.launch == l

/-- GRID_WRITE: a GPUT at its target. -/
def execGridWrite (n : BitVec 12) (s : State) : Res :=
  let m := n.toNat
  match s.takeInbox (coreEnd m) (fun b => match b with | .gput _ _ _ _ _ => true | _ => false) with
  | some (.gput l off data who back, s) =>
    if !s.porRuns m l then
      .next ((s.busError cFOREIGN (srcOf 3 m) l (porterBase m + off)).meshRespond (coreEnd m) back who cFOREIGN [])
    else .next ((s.putBytes (porterBase m + off) data).meshRespond (coreEnd m) back who 0 [])
  | _ => .next s

/-- Add INT32 elements into local memory (R225). -/
def State.porAddAt (s : State) (a : Nat) (data : List Byte) : State :=
  s.putBytes a (addElems 2 (data.length / 4) (s.bytes a data.length) data)

/-- GRID_ADD: a GADD, or an add by DPA, at a porter: INT32 alone. -/
def execGridAdd (n : BitVec 12) (s : State) : Res :=
  let m := n.toNat
  match s.takeInbox (coreEnd m) (fun b => match b with
      | .gadd _ _ _ _ _ => true
      | .req { op := .add _, .. } => true
      | _ => false) with
  | some (.gadd l off v who back, s) =>
    if !s.porRuns m l then
      .next ((s.busError cFOREIGN (srcOf 3 m) l (porterBase m + off)).meshRespond (coreEnd m) back who cFOREIGN [])
    else .next ((s.porAddAt (porterBase m + off) (leBytes 4 v.toNat)).meshRespond (coreEnd m) back who 0 [])
  | some (.req r, s) =>
    if r.op ≠ .add 2 then .next ((s.busError cNO_ADDER (srcOf 3 m) r.launch r.dpa).meshRespond (coreEnd m) r.back r.who cNO_ADDER [])
    else .next ((s.porAddAt r.dpa r.data).meshRespond (coreEnd m) r.back r.who 0 [])
  | _ => .next s

/-- INTERFACE_PORT_ACCESS: a far, inbound or BAR2 read or write by DPA at a porter (R208). -/
def execInterfacePortAccess (n : BitVec 12) (s : State) : Res :=
  let m := n.toNat
  match s.takeInbox (coreEnd m) (fun b => match b with
      | .req { op := .read, .. } => true
      | .req { op := .write, .. } => true
      | _ => false) with
  | some (.req r, s) =>
    if r.op = .read then .next (s.meshRespond (coreEnd m) r.back r.who 0 (s.bytes r.dpa r.n))
    else .next ((s.putBytes r.dpa r.data).meshRespond (coreEnd m) r.back r.who 0 [])
  | _ => .next s

/-! ### Legs and kills at a porter (R235, R236) -/

/-- START: the porter begins a leg, or refuses it while it runs or its image is not good. -/
def execStart (n : BitVec 12) (s : State) : Res :=
  let m := n.toNat
  match s.takeInbox (coreEnd m) (fun b => match b with | .start _ => true | _ => false) with
  | some (.start x, s) =>
    if s.flag (POR.STATUS m) POR.STATUS_RUNNING || !s.flag (POR.STATUS m) POR.STATUS_IMAGE_OK then
      .next (s.porNotify m (.startRefused m x))
    else
      let p := s.porter m
      let s := s.setPorter m { p with core := { pc := BitVec.ofNat 32 x.entry }, msg := x, wait := .none, stopped := false }
      .next (s.setFlag (POR.STATUS m) POR.STATUS_RUNNING true)
  | _ => .next s

/-- A porter of a context stops issue. -/
def State.porStop (s : State) (n : Nat) : State :=
  (s.setPorter n { s.porter n with stopped := true, wait := .none }).setFlag (POR.STATUS n) POR.STATUS_RUNNING false

/-- KILL: stops the porter when it runs the context. -/
def execKill (n : BitVec 12) (s : State) : Res :=
  let m := n.toNat
  match s.takeInbox (coreEnd m) (fun b => match b with | .kill _ => true | _ => false) with
  | some (.kill l, s) => if s.porRuns m l then .next (s.porStop m) else .next s
  | _ => .next s

/-! ### Load transactions (R238) -/

/-- LOAD_BEGIN. -/
def execLoadBegin (n : BitVec 12) (s : State) : Res :=
  let m := n.toNat
  match s.takeInbox (coreEnd m) (fun b => match b with | .loadBegin => true | _ => false) with
  | some (_, s) =>
    let s := (s.setFld (POR.IMAGE_CRC m) POR.IMAGE_CRC_VALUE 0).setFlag (POR.STATUS m) POR.STATUS_IMAGE_OK false
    .next (s.setPorter m { s.porter m with loadCount := 0, loadDropped := false })
  | none => .next s

/-- LOAD: 64 B at a local offset, folded into the running CRC; a running porter discards it. -/
def execLoad (n : BitVec 12) (s : State) : Res :=
  let m := n.toNat
  match s.takeInbox (coreEnd m) (fun b => match b with | .load _ _ => true | _ => false) with
  | some (.load off data, s) =>
    let p := s.porter m
    if s.flag (POR.STATUS m) POR.STATUS_RUNNING || 65536 < off + data.length then .next (s.setPorter m { p with loadDropped := true })
    else
      let crc := crcBytes (s.fld (POR.IMAGE_CRC m) POR.IMAGE_CRC_VALUE) data
      let s := (s.putBytes (porterBase m + off) data).setFld (POR.IMAGE_CRC m) POR.IMAGE_CRC_VALUE crc
      .next (s.setPorter m { p with loadCount := p.loadCount + data.length })
  | _ => .next s

/-- LOAD_CHECK: IMAGE_OK on a good check, IMAGE_BAD to the steward otherwise. -/
def execLoadCheck (n : BitVec 12) (s : State) : Res :=
  let m := n.toNat
  match s.takeInbox (coreEnd m) (fun b => match b with | .loadCheck _ _ => true | _ => false) with
  | some (.loadCheck count crc, s) =>
    let p := s.porter m
    if !p.loadDropped && p.loadCount == count && s.fld (POR.IMAGE_CRC m) POR.IMAGE_CRC_VALUE == crc.toNat then
      .next (s.setFlag (POR.STATUS m) POR.STATUS_IMAGE_OK true)
    else .next (s.porNotify m (.imageBad m))
  | _ => .next s

/-! ### Fence and power (Table 7.14) -/

/-- A message of the steward to one porter. -/
def State.toPorter (s : State) (n flits : Nat) (b : MeshBody) : State := s.meshSend 3 stewardEnd (.one (coreEnd n)) flits b

/-- Bytes as LOADs of 64 B from a local offset (R238). -/
def loadPieces (off : Nat) : Nat → List Byte → List (Nat × List Byte)
  | 0, _ => []
  | n + 1, l => if l.isEmpty then [] else (off, padTo 64 (l.take 64)) :: loadPieces (off + 64) n (l.drop 64)

/-- A load transaction to one porter. -/
def State.loadPorter (s : State) (n : Nat) (ps : List (Nat × List Byte)) : State :=
  let all := ps.flatMap (·.2)
  let s := s.toPorter n 1 .loadBegin
  let s := ps.foldl (fun s p => s.toPorter n 2 (.load p.1 p.2)) s
  s.toPorter n 1 (.loadCheck all.length (BitVec.ofNat 32 (crcBytes 0 all)))

/-- A UNIT entry (Table 16.5) with a unit's register value: 1 fenced, 2 unfenced, 3 reset. -/
def State.unitEvent (s : State) (source value what : Nat) : State :=
  s.event kUNIT 0 source 0 value [BitVec.ofNat 8 what]

/-- Packets that stand at a core when it is fenced are answered or dropped as its router does (R103). -/
def State.fenceInbox (s : State) (n : Nat) : State :=
  let all := s.inbox (coreEnd n)
  let s := s.setInbox (coreEnd n) (all.filter fun e => isLoad e.2)
  all.foldl (fun s e => if isLoad e.2 then s else if isRequest e.2 then s.coreAnswer n cFENCED e.2 else s.discardResponse n e.2) s

/-- PORTER_FENCE: the core stops, and a leg that it runs is killed with UNIT_FENCED. -/
def execPorterFence (n : BitVec 12) (s : State) : Res :=
  let m := n.toNat
  if !s.flag (POR.STATUS m) POR.STATUS_PRESENT || s.flag BRG.STATUS BRG.STATUS_PART_RESET_BUSY then .next s
  else
    let runs := s.flag (POR.STATUS m) POR.STATUS_RUNNING && !(s.porter m).stopped
    let s := (s.setFlag (POR.CTRL m) POR.CTRL_FENCE true)
    let s := if runs then s.porFault m cUNIT_FENCED else s
    let s := (s.porStop m).setFlag (POR.STATUS m) POR.STATUS_FENCED true
    .next ((s.fenceInbox m).unitEvent (srcOf 3 m) (s.reg (POR.STATUS m)).toNat 1)

/-- PORTER_UNFENCE: the porter is idle and takes a START. -/
def execPorterUnfence (n : BitVec 12) (s : State) : Res :=
  let m := n.toNat
  if !s.flag (POR.STATUS m) POR.STATUS_PRESENT || s.flag BRG.STATUS BRG.STATUS_PART_RESET_BUSY then .next s
  else
    let s := (s.setFlag (POR.CTRL m) POR.CTRL_FENCE false).setFlag (POR.STATUS m) POR.STATUS_FENCED false
    .next (s.unitEvent (srcOf 3 m) (s.reg (POR.STATUS m)).toNat 2)

/-- PORTER_POWER_OFF: acts when the porter is fenced and drained; core and local memory lose power. -/
def execPorterPowerOff (n : BitVec 12) (s : State) : Res :=
  let m := n.toNat
  let r := POR.STATUS m
  if !s.flag r POR.STATUS_PRESENT || !s.flag r POR.STATUS_FENCED || !s.flag r POR.STATUS_DRAINED then .next s
  else
    let s := (s.setFlag (POR.CTRL m) POR.CTRL_POWER_OFF true).setFlag r POR.STATUS_POWERED false
    .next ((s.clearBytes (porterBase m) 65536).setPorter m {})

/-- PORTER_POWER_ON: the island of a porter without power starts. -/
def execPorterPowerOn (n : BitVec 12) (s : State) : Res :=
  let m := n.toNat
  let s' := s.setFlag (POR.CTRL m) POR.CTRL_POWER_OFF false
  if !s.flag (POR.STATUS m) POR.STATUS_PRESENT then .next s
  else if s.flag (POR.STATUS m) POR.STATUS_POWERED then .next s'
  else .next (s'.setPorter m { s'.porter m with powering := true })

/-- PORTER_ISLAND_READY: registers and local memory are clear, POWERED is 1 and IMAGE_OK 0. In SERVICE the steward reloads the
porter service firmware, where it holds one, before the fence is released (Table 15.11). -/
def execPorterIslandReady (n : BitVec 12) (s : State) : Res :=
  let m := n.toNat
  if !(s.porter m).powering then .next s
  else
    let s := ((s.clearBytes (porterBase m) 65536).setPorter m {}).setFlag (POR.STATUS m) POR.STATUS_POWERED true
    let s := s.setFlag (POR.STATUS m) POR.STATUS_IMAGE_OK false
    let s := s.unitEvent (srcOf 3 m) (s.reg (POR.STATUS m)).toNat 3
    .next (match s.sbx.porterFw with
      | some l => if s.fld BRG.STATUS BRG.STATUS_STAGE = 3 then s.loadPorter m (loadPieces 0xC000 257 l) else s
      | none => s)

end Sys2Proof.Machine
end

