-- ==== Sys2Proof/Machine/XBase.lean ====
section
/-!
DEFINITION. Sys2Proof/Machine/XBase.lean: engine ports of the crossroads (Table 3.1) and the transfers that wait at them.
-/

namespace Sys2Proof.Machine

/-- Half and number of an engine port. -/
structure XPort where
  half : Nat
  port : Nat
  deriving DecidableEq, Repr

def edgeX (k : Nat) : XPort := ⟨k / 32, 88 + k % 32⟩
def oxX (x : Nat) : XPort := ⟨x / 8, 176 + x % 8⟩
def upX (u p : Nat) : XPort := ⟨u / 2, 20 * (u % 2) + p⟩
def courX (c k : Nat) : XPort := ⟨c / 16, 56 + 2 * (c % 16) + k⟩

/-- A 128 B port (Table 3.1). -/
def edgePort (p : Nat) : Bool := decide (88 ≤ p) && decide (p < 120)
def seamPort (p : Nat) : Bool := decide (184 ≤ p) && decide (p < 216)

def State.xops (s : State) (q : XPort) : List XOp := tabGet [] (s.half q.half).ops q.port
def State.setXops (s : State) (q : XPort) (l : List XOp) : State :=
  let h := s.half q.half
  s.setHalf q.half { h with ops := tabSet [] h.ops q.port l }

/-- A transfer waits at its port. -/
def State.xPush (s : State) (q : XPort) (o : XOp) : State := s.setXops q (s.xops q ++ [o])

end Sys2Proof.Machine
end

