-- ==== Sys2Proof/Machine/Ctu.lean ====
section
/-!
DEFINITION. Sys2Proof/Machine/Ctu.lean: the central translation unit (R265-R294): look-aside arrays, lookups, walks, the
pending-fault table and the fault queue, invalidation; the translation stops (R210, R211); and the inbound checks of a
translated remote access (R291, R353).
-/

namespace Sys2Proof.Machine

def State.updCtu (s : State) (f : Ctu → Ctu) : State := { s with ctu := f s.ctu }

/-! ### Look-aside arrays (R272, R273) -/

/-- The XOR of the `n`-bit pieces of a number, `k` pieces. -/
def foldN (n : Nat) : Nat → Nat → Nat
  | 0, _ => 0
  | k + 1, x => Nat.xor (x % 2 ^ n) (foldN n k (x / 2 ^ n))

/-- The set of an array that an address falls in: 0 small, 1 medium, 2 huge. -/
def tlbSet (a ast dva : Nat) : Nat :=
  if a = 0 then Nat.xor (foldN 10 5 (bitsOf dva 56 16)) (foldN 10 2 ast)
  else if a = 1 then Nat.xor (foldN 8 4 (bitsOf dva 56 25)) (foldN 8 2 ast)
  else Nat.xor (foldN 6 4 (bitsOf dva 56 34)) (foldN 6 2 ast)

def tlbWays (a : Nat) : Nat := if a = 2 then 16 else 12

def Ctu.array (c : Ctu) (a : Nat) : Tab (List TlbEntry) := if a = 0 then c.small else if a = 1 then c.medium else c.huge
def Ctu.setArray (c : Ctu) (a : Nat) (t : Tab (List TlbEntry)) : Ctu :=
  if a = 0 then { c with small := t } else if a = 1 then { c with medium := t } else { c with huge := t }

/-- Whether an entry translates an address. -/
def TlbEntry.hits (e : TlbEntry) (ast dva : Nat) : Bool :=
  e.ast == ast && decide (e.t.va ≤ dva) && decide (dva < e.t.va + 2 ^ e.t.log2)

/-- A hit in one array: the entry, moved to the front of its set. -/
def Ctu.probe (c : Ctu) (a ast dva : Nat) : Option (Trans × Ctu) :=
  let k := tlbSet a ast dva
  let l := tabGet [] (c.array a) k
  match l.find? fun e => e.hits ast dva with
  | none => none
  | some e => some (e.t, c.setArray a (tabSet [] (c.array a) k (e :: l.erase e)))

/-- A lookup in the three arrays: the smaller page where two hit. -/
def Ctu.lookup (c : Ctu) (ast dva : Nat) : Option (Trans × Ctu) := ([0, 1, 2] : List Nat).findSome? fun a => c.probe a ast dva

/-- Enter a translation of a page of level `a`. -/
def Ctu.enter (c : Ctu) (a ast : Nat) (t : Trans) : Ctu :=
  let k := tlbSet a ast t.va
  let l := (tabGet [] (c.array a) k).filter fun e => !(e.ast == ast && e.t.va == t.va && e.t.log2 == t.log2)
  c.setArray a (tabSet [] (c.array a) k ((⟨ast, t⟩ :: l).take (tlbWays a)))

/-! ### Page-table entries (R267-R269, R274) -/

/-- Log2 of the page size of a leaf at a level. -/
def levelLog2 (l : Nat) : Nat := 12 + 9 * l
/-- The index of an address in a table of a level. -/
def levelIndex (l dva : Nat) : Nat := dva / 2 ^ levelLog2 l % 512

/-- Where page tables may lie. -/
def tableOk (dpa : Nat) : Bool :=
  match targetOf dpa with
  | .buffer => true
  | .site _ _ => true
  | _ => false

def pteAddr (e : Nat) : Nat := bitsOf e 47 12 * 4096
def pteRun (e : Nat) : Nat := bitsOf e 50 48
def pteLeaf (e : Nat) : Bool := bitOf e 1

/-- Whether an entry with V = 1 is malformed at its level. -/
def pteBad (l e : Nat) : Bool :=
  bitOf e 11 || bitsOf e 63 51 != 0 ||
  (if pteLeaf e then
    decide (3 ≤ l) || decide (5 ≤ pteRun e) || pteAddr e % 2 ^ levelLog2 l != 0 ||
      (decide (pteAddr e < 0x44000000) && decide (0x40000000 < pteAddr e + 2 ^ levelLog2 l))
   else l == 0 || pteRun e != 0 || !tableOk (pteAddr e))

/-- Bits that a merged run must share: LEAF, V, P, R, W, KEY and RUN. -/
def pteShared (e : Nat) : Nat := bitsOf e 10 0 + 2048 * pteRun e

/-- The translation that a leaf gives at a level: the whole aligned group where it merges, else its page (R274). `beat` are
the 32 entries of the beat that was read, `i` the leaf's place in it. -/
def leafTrans (l dva : Nat) (beat : List Nat) (i : Nat) : Trans :=
  let e := beat.getD i 0
  let p := levelLog2 l
  let k := pteRun e
  let g := i / 2 ^ k * 2 ^ k
  let first := beat.getD g 0
  let ok := k ≠ 0 && (List.range (2 ^ k)).all fun j =>
    let x := beat.getD (g + j) 0
    pteShared x == pteShared e && pteAddr x == pteAddr first + j * 2 ^ p
  let ok := ok && pteAddr first % 2 ^ (p + k) == 0
  let page := dva / 2 ^ p * 2 ^ p
  if ok then { va := page - (i - g) * 2 ^ p, pa := pteAddr first, log2 := p + k, r := bitOf e 3, w := bitOf e 4, key := bitsOf e 10 5 }
  else { va := page, pa := pteAddr e, log2 := p, r := bitOf e 3, w := bitOf e 4, key := bitsOf e 10 5 }

/-- What an entry comes to: a table to descend to, a translation with its level, or a fault (Table 9.4). -/
inductive WalkRes where
  | down (table : Nat)
  | page (t : Trans)
  | fault (kind level : Nat)

/-- The step of a walk at a level on the 256 B that hold its entry. -/
def walkStep (l dva entry : Nat) (beat : List Byte) : WalkRes :=
  let es := (List.range 32).map fun i => leAt beat (8 * i) 8
  let i := entry % 256 / 8
  let e := es.getD i 0
  if !bitOf e 0 then .fault 0 l
  else if pteBad l e then .fault 2 l
  else if !pteLeaf e then .down (pteAddr e)
  else if !bitOf e 2 then .fault 1 l
  else .page (leafTrans l dva es i)

/-- The root of a tag: the first entry of a walk, or the fault of R281's LEVEL 5. -/
def State.walkRoot (s : State) (ast dva : Nat) : WalkRes :=
  let r := CTU.ROOT ast
  if dva / 2 ^ 57 ≠ 0 then .fault 0 4
  else if !s.flag r CTU.ROOT_VALID then .fault 0 5
  else
    let a := s.fld r CTU.ROOT_ADDR * 4096
    if !tableOk a then .fault 2 5 else .down a

/-- A walk made at once (RESOLVE with ACTION 0, R282): the levels left are the fuel. -/
def State.walkFrom (s : State) (dva : Nat) : Nat → Nat → State × WalkRes
  | 0, _ => (s, .fault 2 0)
  | l + 1, table =>
    let entry := table + 8 * levelIndex l dva
    let (s, c, beat) := s.readNow (entry / 256 * 256) 256
    if c ≠ 0 then (s, .fault 3 l)
    else match walkStep l dva entry beat with
      | .down t => s.walkFrom dva l t
      | r => (s, r)

/-- The array of a translation, by its page size. -/
def transArray (t : Trans) : Nat := if 30 ≤ t.log2 then 2 else if 21 ≤ t.log2 then 1 else 0

/-! ### Inbound remote accesses (R291, R353) -/

/-- An inbound access fails: the sender has the cause. -/
def State.oxFail (s : State) (x k cause : Nat) (dpa : Nat) : State :=
  (s.busError cause (srcOf 9 x) 0 dpa).oxReply x k cause []

/-- Whether an opcode writes. -/
def oxWrites (opc : Nat) : Bool := opc != 0x01

/-- The contributions of a REDUCE packet, one transfer per beat of its mask. -/
def State.oxContribs (s : State) (x k dpa cause : Nat) (h : OxHdr) (data : List Byte) : State :=
  ((ones 16 h.beats).zipIdx).foldl (fun s b =>
    s.xPush (oxX x) { port := (oxX x).port, write := true, addr := dpa / 4096 * 4096 + 256 * b.1, n := 256,
                      data := (data.drop (256 * b.2)).take 256, red := some (h.red, h.contrib), cause := cause, who := .oxlux x k }) s

/-- A translated inbound access goes on by the path of Table 11.9. -/
def State.oxServe (s : State) (x : Nat) (i : OxIn) (t : Trans) (dpa : Nat) : State :=
  let h := hdrOf i.hdr
  let op : AccOp := if h.opc = 0x01 then .read else if h.opc = 0x02 then .write else .add h.ty
  let r : MemReq := { op := op, dpa := dpa, n := h.len, key := t.key, data := i.data, who := .oxlux x i.k, back := oxEnd x }
  match targetOf dpa with
  | .buffer =>
    if h.opc = 0x03 then s.oxFail x i.k cNO_ADDER dpa
    else if h.opc = 0x04 then
      (if h.beats = 0 then s.oxReply x i.k 0 []
       else (s.updOxl x fun o => { o with ins := o.ins.map fun j => if j.k = i.k then { j with left := popCount 16 h.beats } else j }).oxContribs
         x i.k dpa i.cause h i.data)
    else if h.cls then
      s.xPush (oxX x) { port := (oxX x).port, write := h.opc == 0x02, addr := dpa, n := h.len, data := i.data,
                        whole := h.len == 4096 && dpa % 4096 == 0, expect := h.code, who := .oxlux x i.k }
    else s.meshRequest (oxEnd x) (edgeEnd (stopOf (oxEnd x).router)) r
  | .site j _ => if h.opc = 0x04 then s.oxFail x i.k cUNREACHABLE dpa else s.meshRequest (oxEnd x) (siteEnd j) r
  | .porterMem p => if h.opc = 0x04 then s.oxFail x i.k cUNREACHABLE dpa else s.meshRequest (oxEnd x) (coreEnd p) r
  | .reserved => s.oxFail x i.k cDECODE dpa
  | _ => s.oxFail x i.k cUNREACHABLE dpa

/-- The answer to the lookup of an inbound access: checks 4 to 7 of Table 9.6. -/
def State.oxTranslated (s : State) (x k dva : Nat) (a : Answer) : State :=
  match (s.oxl x).ins.find? fun i => i.k == k with
  | none => s
  | some i =>
    let h := hdrOf i.hdr
    match a with
    | .page t =>
      let dpa := t.pa + (dva - t.va)
      if !(if oxWrites h.opc then t.w else t.r) then s.oxFail x k cPERMISSION dpa
      else if t.key ≠ s.fld (CTU.INWIN_CTRL h.inwin) CTU.INWIN_CTRL_KEY then s.oxFail x k cKEY_MISMATCH dpa
      else (s.updOxl x fun o => { o with ins := o.ins.map fun j => if j.k = k then { j with dpa := dpa } else j }).oxServe x i t dpa
    | _ => s.oxFail x k cNOT_PINNED 0

/-! ### Answers -/

def State.stop (s : State) (k : Nat) : Stop := tabGet {} s.stops k
def State.setStop (s : State) (k : Nat) (v : Stop) : State := { s with stops := tabSet {} s.stops k v }

/-- A page of a channel is answered: it waits in the look-ahead (R249), keyed by its descriptor and 4 KiB frame, twice and
one more for the word at ARR_DVA. -/
def aheadKey (d dva : Nat) (arr : Bool) : Nat := (d * 2 ^ 45 + dva / 4096) * 2 + b2n arr

def State.ctuAnswer (s : State) (q : Lookup) (a : Answer) : State :=
  match q.who with
  | .courier c ch d arr =>
    let v := s.chan c ch
    let k := aheadKey d q.dva arr
    s.setChan c ch { v with ahead := (v.ahead.filter fun e => e.1 != k) ++ [(k, a)], asked := v.asked.filter fun e => e != k }
  | .stop k id =>
    let v := s.stop k
    s.setStop k { v with reqs := v.reqs.map fun r => if r.id = id then { r with ans := some a } else r }
  | .oxlux x k => s.oxTranslated x k q.dva a

/-! ### The pending-fault table (R279-R284) -/

def State.pend (s : State) (i : Nat) : Option PendFault := tabGet none s.ctu.pending i

/-- Log2 of the ring's records. -/
def State.fqLog2 (s : State) : Nat :=
  let l := s.fld CTU.FQ_SIZE CTU.FQ_SIZE_LOG2
  if 8 ≤ l && l ≤ 16 then l else 8

def State.fqFull (s : State) : Bool :=
  (s.fld CTU.FQ_PROD CTU.FQ_PROD_INDEX + 2 ^ 32 - s.fld CTU.FQ_CONS CTU.FQ_CONS_INDEX) % 2 ^ 32 == 2 ^ s.fqLog2

/-- The oldest record that waits to be written. -/
def State.oldestRecord (s : State) : Option Nat :=
  (s.ctu.pending.foldl (fun (b : Option (Nat × Nat)) e => match e.2 with
    | some p => if p.record = 1 then (match b with
        | some (_, o) => if p.order < o then some (e.1, p.order) else b
        | none => some (e.1, p.order)) else b
    | none => b) none).map (·.1)

/-- FQ_FULL: a record waits for ring space. -/
def State.fqView (s : State) : State := s.setFlag CTU.STATUS CTU.STATUS_FQ_FULL (s.oldestRecord.isSome && s.fqFull)

/-- PENDING_OPEN, PENDING_FULL and FQ_FULL. -/
def State.ctuCount (s : State) : State :=
  let s := s.setFld CTU.STATUS CTU.STATUS_PENDING_OPEN s.ctu.pending.length
  (s.setFlag CTU.STATUS CTU.STATUS_PENDING_FULL (!s.ctu.waiting.isEmpty)).fqView

/-- Word 0 of a record (Table 9.4). -/
def PendFault.word0 (p : PendFault) : Nat :=
  p.ast % 4096 + bitsOf p.dva 56 12 * 4096 + p.kind % 4 * 2 ^ 57 + b2n p.write * 2 ^ 60 + p.level % 8 * 2 ^ 61

/-- The register view of an entry (Table 9.9). -/
def State.pendView (s : State) (i : Nat) : State :=
  match s.pend i with
  | none => (s.setReg (CTU.PENDING_LO i) 0).setReg (CTU.PENDING_HI i) 0
  | some p =>
    (s.setReg (CTU.PENDING_LO i) (BitVec.ofNat 64 p.word0)).setReg (CTU.PENDING_HI i)
      (BitVec.ofNat 64 (p.waiters.length % 65536 + p.seq % 65536 * 65536 + 2 ^ 63))

def State.setPend (s : State) (i : Nat) (p : Option PendFault) : State :=
  ((s.updCtu fun c => { c with pending := tabSet none c.pending i p }).pendView i).ctuCount

/-- A waiter of a courier parks its channel's tile; a porter's request waits at its stop. Whether a requester waits: an
inbound access never does (R292), nor a porter in normal service (R278). -/
def State.faultWaits (s : State) : TransFor → Bool
  | .courier _ _ _ _ => true
  | .stop _ _ => s.flag CTU.CTRL CTU.CTRL_STALL_REPLAY
  | .oxlux _ _ => false

/-- Open a free entry, or join the open one of the frame, or wait for an entry. -/
def State.faultOpen (s : State) (q : Lookup) (kind level : Nat) : State :=
  match (List.range 64).find? fun i => match s.pend i with
    | some p => p.ast == q.ast && p.dva / 4096 % 2 ^ 45 == q.dva / 4096 % 2 ^ 45
    | none => false with
  | some i =>
    (match s.pend i with
     | none => s
     | some p => (s.setPend i (some { p with waiters := p.waiters ++ [q] })).bump CTU.FAULTS 1)
  | none =>
    match (List.range 64).find? fun i => (s.pend i).isNone with
    | none => (s.updCtu fun c => { c with waiting := c.waiting ++ [(q, kind, level)] }).ctuCount
    | some i =>
      let p : PendFault := { ast := q.ast, dva := q.dva, kind := kind, level := level, write := q.write, waiters := [q], order := s.ctu.order }
      let s := s.updCtu fun c => { c with order := c.order + 1 }
      (s.setPend i (some p)).bump CTU.FAULTS 1

/-- A lookup ends in a fault. The requester learns of it; where it waits for service, it joins the table. -/
def State.ctuFault (s : State) (q : Lookup) (kind level : Nat) : State :=
  let s := s.ctuAnswer q (.fault kind level)
  let s := if s.faultWaits q.who then s.inexactOf q.launch else s
  if s.faultWaits q.who then s.faultOpen q kind level else s

/-- Accesses that wait for an entry take the free ones, in the order they faulted. -/
def State.faultDrain (s : State) : State :=
  s.ctu.waiting.foldl (fun s e => ((s.updCtu fun c => { c with waiting := c.waiting.drop 1 }).faultOpen e.1 e.2.1 e.2.2))
    s |>.ctuCount

/-- Close an entry. -/
def State.pendClose (s : State) (i : Nat) : State := (s.setPend i none).faultDrain

/-! ### The fault queue (R280, R281) -/

/-- The waiters of a record by kind: couriers, West stops, East stops. -/
def waiterMask (l : List Lookup) (f : TransFor → Option Nat) : Nat :=
  (l.filterMap fun q => f q.who).foldl (fun m b => Nat.lor m (2 ^ b)) 0

/-- The 32 B of a record (Table 9.4). -/
def State.record (s : State) (i : Nat) (p : PendFault) : List Byte :=
  let n := s.fld CTU.FQ_PROD CTU.FQ_PROD_INDEX
  let ph := 1 - n / 2 ^ s.fqLog2 % 2
  let cs := waiterMask p.waiters fun w => match w with | .courier c _ _ _ => some c | _ => none
  let ws := waiterMask p.waiters fun w => match w with | .stop k _ => (if k < 32 then some k else none) | _ => none
  let es := waiterMask p.waiters fun w => match w with | .stop k _ => (if k < 32 then none else some (k - 32)) | _ => none
  leBytes 8 p.word0 ++ leBytes 8 (p.waiters.length % 65536 + n % 65536 * 65536 + i * 2 ^ 32 + ph * 2 ^ 63) ++
    leBytes 8 (cs + ws * 2 ^ 32) ++ leBytes 8 es

/-- Write one record and raise its message; a bus error stops the writing of records. -/
def State.writeRecord (s : State) (i : Nat) (p : PendFault) : State :=
  let n := s.fld CTU.FQ_PROD CTU.FQ_PROD_INDEX
  let a := s.fld CTU.FQ_BASE CTU.FQ_BASE_BASE / 4096 * 4096 + 32 * (n % 2 ^ s.fqLog2)
  let (s, c) := s.writeNow a (s.record i p)
  let vec := s.fld CTU.FQ_CTRL CTU.FQ_CTRL_VECTOR
  if c ≠ 0 then
    ((s.setFlag CTU.STATUS CTU.STATUS_FQ_WRITE_ERROR true).busError c (srcOf 6 0) 0 a).msix vec
  else
    ((s.setFld CTU.FQ_PROD CTU.FQ_PROD_INDEX (n + 1)).setPend i (some { p with record := 2, seq := n })).msix vec

/-- Write the records that wait, oldest first, while the ring has room (R280, R281). The fuel is the table's size. -/
def State.fqDrain (s : State) : Nat → State
  | 0 => s
  | k + 1 =>
    match s.oldestRecord with
    | none => s.setFlag CTU.STATUS CTU.STATUS_FQ_FULL false
    | some i =>
      if !s.flag CTU.FQ_CTRL CTU.FQ_CTRL_ENABLE || s.flag CTU.STATUS CTU.STATUS_FQ_WRITE_ERROR || s.fqFull then s.fqView
      else match s.pend i with
        | none => s
        | some p => (s.writeRecord i p).fqDrain k

/-- FAULT_MERGE_END (R280): the merge interval of an entry ends, and its record is written or waits. -/
def execFaultMergeEnd (i : BitVec 6) (s : State) : Res :=
  match s.pend i.toNat with
  | none => .next s
  | some p => if p.record ≠ 0 then .next s else .next ((s.setPend i.toNat (some { p with record := 1 })).fqDrain 65)

/-- FAULT_QUEUE_CONSUME (R281): a write of CTU.FQ_CONS. -/
def execFaultQueueConsume (v : BitVec 32) (s : State) : Res :=
  .next ((s.setFld CTU.FQ_CONS CTU.FQ_CONS_INDEX v.toNat).fqDrain 65)

/-- FQ_WRITE_ERROR_CLEAR (R281). -/
def execFqWriteErrorClear (s : State) : Res :=
  .next ((s.setFlag CTU.STATUS CTU.STATUS_FQ_WRITE_ERROR false).fqDrain 65)

/-! ### Lookups and walks (R275, R276, R270, R271) -/

/-- The ports of the CTU: 0–31 couriers, 32–95 translation stops, 96–111 Oxlux ports. -/
def State.ctuQueue (s : State) (p : Nat) : List Lookup := tabGet [] s.ctu.queues p
def State.setCtuQueue (s : State) (p : Nat) (l : List Lookup) : State := s.updCtu fun c => { c with queues := tabSet [] c.queues p l }

/-- A lookup waits at its port. -/
def State.lookupSend (s : State) (p : Nat) (q : Lookup) : State := s.setCtuQueue p (s.ctuQueue p ++ [q])

def State.walk (s : State) (i : Nat) : Option Walk := tabGet none s.ctu.walks i
def State.setWalk (s : State) (i : Nat) (w : Option Walk) : State :=
  let s := s.updCtu fun c => { c with walks := tabSet none c.walks i w }
  s.setFld CTU.STATUS CTU.STATUS_WALKERS_BUSY s.ctu.walks.length

/-- A walk in progress on a lookup's frame. -/
def State.walkOn (s : State) (q : Lookup) : Option Nat :=
  (List.range 16).find? fun i => match s.walk i with
    | some w => w.ast == q.ast && w.dva / 4096 % 2 ^ 45 == q.dva / 4096 % 2 ^ 45
    | none => false

/-- A lookup joins a walk. -/
def State.walkJoin (s : State) (i : Nat) (q : Lookup) : State :=
  match s.walk i with
  | none => s
  | some w => s.setWalk i (some { w with waiters := w.waiters ++ [q] })

/-- CTU_LOOKUP (R275, R276): the port's next lookup hits, or misses and joins a walk or waits for a walker. -/
def execCtuLookup (port : BitVec 7) (s : State) : Res :=
  match s.ctuQueue port.toNat with
  | [] => .next s
  | q :: rest =>
    let s := (s.setCtuQueue port.toNat rest).bump CTU.LOOKUPS 1
    if q.dva / 2 ^ 57 ≠ 0 then .next ((s.bump CTU.MISSES 1).ctuFault q 0 4)
    else match s.ctu.lookup q.ast q.dva with
      | some (t, c) => .next ({ s with ctu := c }.ctuAnswer q (.page t))
      | none =>
        let s := s.bump CTU.MISSES 1
        match s.walkOn q with
        | some i => .next (s.walkJoin i q)
        | none => .next (s.updCtu fun c => { c with missed := c.missed ++ [q] })

/-- The read of a walk's entry: a background read of walker class, or a mesh read from the walker attachment. -/
def State.walkRead (s : State) (i entry : Nat) : State :=
  let a := entry / 256 * 256
  match targetOf a with
  | .site j _ => s.meshRequest walkerEnd (siteEnd j) { op := .read, dpa := a, n := 256, who := .walker i, back := walkerEnd }
  | _ =>
    let sl := (sliceOf (a / 4096)).1
    let v := s.slice sl
    s.setSlice sl { v with bgR := v.bgR ++ [{ cls := .walker, dpa := a, len := 256, who := .walker i }] }

/-- WALK_START (R276): the first waiting miss joins a matching walk, or takes a free walker. -/
def execWalkStart (s : State) : Res :=
  match s.ctu.missed with
  | [] => .next s
  | q :: rest =>
    match s.walkOn q with
    | some i => .next ((s.updCtu fun c => { c with missed := rest }).walkJoin i q)
    | none =>
      match (List.range 16).find? fun i => (s.walk i).isNone with
      | none => .next s
      | some i =>
        let s := s.updCtu fun c => { c with missed := rest }
        match s.walkRoot q.ast q.dva with
        | .fault kind level => .next (s.ctuFault q kind level)
        | .page _ => .next s
        | .down a =>
          let e := a + 8 * levelIndex 4 q.dva
          .next ((s.setWalk i (some { ast := q.ast, dva := q.dva, level := 4, entry := e, back := none, waiters := [q] })).walkRead i e)

/-- A walk ends with a translation: it is cached, and every joined miss has it. -/
def State.walkPage (s : State) (ast : Nat) (t : Trans) (qs : List Lookup) : State :=
  let s := s.updCtu fun c => c.enter (transArray t) ast t
  qs.foldl (fun s q => s.ctuAnswer q (.page t)) s

/-- WALK_STEP_DONE (R270, R271): a walk's read is back, and the walk descends or ends. The result of a walk that an
invalidation overtook is discarded, and its misses walk again (R285). -/
def execWalkStepDone (wk : BitVec 4) (s : State) : Res :=
  let i := wk.toNat
  match s.walk i with
  | none => .next s
  | some w =>
    match w.back with
    | none => .next s
    | some (cause, beat) =>
      if w.discard then .next ((s.setWalk i none).updCtu fun c => { c with missed := w.waiters ++ c.missed })
      else
        let endF := fun (kind level : Nat) => Host.Outcome.next (w.waiters.foldl (fun s q => s.ctuFault q kind level) (s.setWalk i none))
        if cause ≠ 0 then endF 3 w.level
        else match walkStep w.level w.dva w.entry beat with
          | .fault kind level => endF kind level
          | .page t => .next ((s.setWalk i none).walkPage w.ast t w.waiters)
          | .down t =>
            let e := t + 8 * levelIndex (w.level - 1) w.dva
            .next ((s.setWalk i (some { w with level := w.level - 1, entry := e, back := none })).walkRead i e)

/-! ### Service of a fault (R282-R284) -/

/-- A stalled request of a porter is no longer so (R211). -/
def State.stallClear (s : State) (q : Lookup) : State :=
  match q.who with
  | .stop k id =>
    match (s.stop k).reqs.find? fun r => r.id == id with
    | some r => (match r.req.who with
      | .porter n _ => s.setFlag (POR.STATUS n) POR.STATUS_STALLED false
      | _ => s)
    | none => s
  | _ => s

/-- RESOLVE_RETRY (R282, R284): the frame is walked again; every waiter has the translation, or a new record is due. -/
def execResolveRetry (i : BitVec 6) (s : State) : Res :=
  match s.pend i.toNat with
  | none => .next (s.setFlag CTU.STATUS CTU.STATUS_RESOLVE_STALE true)
  | some p =>
    let (s, r) := match s.walkRoot p.ast p.dva with
      | .down a => s.walkFrom p.dva 5 a
      | r => (s, r)
    match r with
    | .page t => .next (((p.waiters.foldl State.stallClear s).walkPage p.ast t p.waiters).pendClose i.toNat)
    | .fault kind level =>
      .next ((s.updCtu fun c => { c with order := c.order + 1 }).setPend i.toNat
        (some { p with kind := kind, level := level, record := 1, order := s.ctu.order }) |>.fqDrain 65)
    | .down _ => .next s

/-- RESOLVE_ABORT (R283, R284): every waiter has FAULT_ABORTED, and the entry closes. -/
def execResolveAbort (i : BitVec 6) (s : State) : Res :=
  match s.pend i.toNat with
  | none => .next (s.setFlag CTU.STATUS CTU.STATUS_RESOLVE_STALE true)
  | some p => .next ((p.waiters.foldl (fun s q => (s.stallClear q).ctuAnswer q .abort) s).pendClose i.toNat)

/-- The waiters of a killed launch leave; an entry without waiters closes (R284). -/
def State.ctuWithdraw (s : State) (p : Lookup → Bool) : State :=
  let s := s.updCtu fun c => { c with
    waiting := c.waiting.filter fun e => !p e.1, missed := c.missed.filter fun q => !p q }
  let s := (List.range 64).foldl (fun s i => match s.pend i with
    | none => s
    | some f =>
      let ws := f.waiters.filter fun q => !p q
      if ws.isEmpty then s.setPend i none
      else if ws.length = f.waiters.length then s else s.setPend i (some { f with waiters := ws })) s
  s.faultDrain

/-- STALL_REPLAY_WRITE (R278): a write that changes the mode is ignored while a launch runs. -/
def execStallReplayWrite (on : Bool) (s : State) : Res :=
  if (List.range 16).any (fun k => s.slotState k == 2) then .next s
  else .next (s.setFlag CTU.CTRL CTU.CTRL_STALL_REPLAY on)

/-! ### Invalidation (R285) -/

/-- The tag of a launch. -/
def State.astOf (s : State) (l : BitVec 16) : Nat :=
  if l = 0 then s.fld CTU.DRIVER_AST CTU.DRIVER_AST_AST
  else match s.slotOf l with
    | some k => s.fld (LNCH.ASPACE k) LNCH.ASPACE_AST
    | none => 0

/-- The launch of a channel's running descriptor. -/
def Desc.launch (d : Desc) : BitVec 16 := BitVec.ofNat 16 (bitsOf (d.words.getD 0 0).toNat 63 48)
def Chan.launch (v : Chan) : BitVec 16 := (v.queue.head?.map Desc.launch).getD 0

/-- Every access of a tag that is out: porters' requests, courier units, inbound transactions. -/
def State.invalOut (s : State) (ast : Nat) : List InvalWait :=
  (s.porters.flatMap fun e => if s.astOf e.2.msg.launch = ast then e.2.slots.map fun r => InvalWait.porter e.1 r.1 r.2.id else []) ++
  (s.couriers.chans.flatMap fun e => if s.astOf e.2.launch = ast then e.2.jobs.map fun j => InvalWait.courier e.1 j.id else []) ++
  (s.ox.flatMap fun e => (e.2.ins.filter fun i => s.fld (CTU.INWIN_CTRL (hdrOf i.hdr).inwin) CTU.INWIN_CTRL_AST == ast).map fun i =>
    InvalWait.oxlux e.1 i.k)

/-- Whether such an access is still out. -/
def State.stillOut (s : State) : InvalWait → Bool
  | .porter n slot id => match tabFind (s.porter n).slots slot with
    | some r => r.id == id
    | none => false
  | .courier ch id => (tabGet {} s.couriers.chans ch).jobs.any fun j => j.id == id
  | .oxlux x k => (s.oxl x).ins.any fun i => i.k == k

def dropAst (ast : Nat) (t : Tab (List TlbEntry)) : Tab (List TlbEntry) := tabMap [] (fun _ l => l.filter fun e => e.ast != ast) t

/-- INVALIDATE (R285): a write of CTU.INVAL starts the removal of a tag, unless one is in progress. -/
def execInvalidate (ast : BitVec 12) (s : State) : Res :=
  if !s.flag CTU.INVAL CTU.INVAL_DONE then .next s
  else
    let a := ast.toNat
    let out := s.invalOut a
    let s := (s.setFld CTU.INVAL CTU.INVAL_AST a).setFlag CTU.INVAL CTU.INVAL_DONE false
    let s := s.updCtu fun c => { c with
      small := dropAst a c.small, medium := dropAst a c.medium, huge := dropAst a c.huge,
      walks := tabMap none (fun _ w => w.map fun w => if w.ast = a then { w with discard := true } else w) c.walks,
      inval := some (a, out) }
    let chans := tabMap {} (fun _ v => if s.astOf v.launch = a then { v with ahead := v.ahead.filter fun e => match e.2 with
      | .page _ => false
      | _ => true } else v) s.couriers.chans
    .next { s with couriers := { s.couriers with chans := chans } }

/-- INVALIDATION_DONE (R285): every condition holds, and DONE is 1 again. -/
def execInvalidationDone (s : State) : Res :=
  match s.ctu.inval with
  | none => .next s
  | some (a, out) =>
    if s.ctu.walks.any (fun e => match e.2 with | some w => w.ast == a && w.discard | none => false) || out.any s.stillOut then .next s
    else .next ((s.updCtu fun c => { c with inval := none }).setFlag CTU.INVAL CTU.INVAL_DONE true)

/-! ### Translation stops (R210-R212, R227) -/

/-- The answer of a request that ends at its stop. An audit never returns a bus error: the address is no buffer tile. -/
def State.stopFail (s : State) (k : Nat) (r : MemReq) (cause : Nat) : State :=
  if r.op = .audit then s.meshRespond (edgeEnd k) r.back r.who 0 (leBytes 4 5 ++ leBytes 4 0)
  else (s.busError cause (srcOf 6 0) r.launch r.dpa).meshRespond (edgeEnd k) r.back r.who cause []

/-- The opcode of an access at a remote window (R352). -/
def oxOpc : AccOp → Nat
  | .read => 0x01
  | .write => 0x02
  | _ => 0x03

/-- A translated request goes on to its target (Table 7.3). -/
def State.stopForward (s : State) (k : Nat) (r : MemReq) : State :=
  if r.op = .audit then
    (match targetOf r.dpa, r.who with
     | .buffer, .porter n slot =>
       let t := r.dpa / 4096
       let sl := (sliceOf t).1
       let v := s.slice sl
       if s.sliceHere sl then s.setSlice sl { v with audits := v.audits ++ [{ tile := t, porter := n, slot := slot }] }
       else s.meshRespond (edgeEnd k) r.back r.who 0 (leBytes 4 4 ++ leBytes 4 0)
     | _, _ => s.stopFail k r 0)
  else match targetOf r.dpa with
    | .buffer => match r.op with
      | .add _ => s.stopFail k r cNO_ADDER
      | _ => s.xPush (edgeX k) { port := (edgeX k).port, write := r.op == .write, addr := r.dpa, n := r.n, data := r.data,
                                 cause := 0, who := r.who, req := some r }
    | .site i _ =>
      if s.flag (MEM.STATUS i) MEM.STATUS_PRESENT && s.siteEnabled i then
        s.meshSend 0 (edgeEnd k) (.one (siteEnd i)) (1 + payFlits r.data.length) (.req r)
      else s.stopFail k r cDECODE
    | .porterMem n => s.meshSend 0 (edgeEnd k) (.one (coreEnd n)) (1 + payFlits r.data.length) (.req r)
    | .remote w off =>
      let (x, c) := s.oxRoute w
      if c ≠ 0 then s.stopFail k r c
      else s.meshSend 0 (edgeEnd k) (.one (oxEnd x)) (1 + payFlits r.data.length) (.req { r with dpa := 0x100000000000 + w * 0x10000000000 + off })
    | .csr _ => s.stopFail k r cUNREACHABLE
    | .hostelStore _ => s.stopFail k r cUNREACHABLE
    | .hostWindow _ => s.stopFail k r cUNREACHABLE
    | .reserved => s.stopFail k r cDECODE

/-- A request that its context's kill, or a fault in normal service, ends: it has no effect, and its slot is free. -/
def State.stopKill (s : State) (r : MemReq) : State :=
  match r.who with
  | .porter n slot => (s.porFree n slot).porFaultAt n cNOT_PINNED 0 (s.porter n).core.pc.toNat
  | _ => s

/-- The first request of a stop that has its answer. -/
def stopTake : List StopReq → Option (StopReq × List StopReq)
  | [] => none
  | r :: t =>
    if r.ans.isSome && !(r.stalled && (match r.ans with | some (.fault _ _) => true | _ => false)) then some (r, t)
    else (stopTake t).map fun x => (x.1, r :: x.2)

/-- A request with its answer: forwarded, refused by its page's permission, aborted, killed or stalled. -/
def State.stopAnswer (s : State) (k : Nat) (q : StopReq) (rest : List StopReq) : State :=
  let v := s.stop k
  match q.ans with
  | some (.page t) =>
    let s := s.setStop k { v with reqs := rest }
    let r := { q.req with dpa := t.pa + (q.dva - t.va), key := t.key }
    let ok := match r.op with
      | .read => t.r
      | .audit => t.r
      | _ => t.w
    if ok then s.stopForward k r else s.stopFail k r cPERMISSION
  | some .abort => (s.setStop k { v with reqs := rest }).stopFail k q.req cFAULT_ABORTED
  | some (.fault _ _) =>
    if s.flag CTU.CTRL CTU.CTRL_STALL_REPLAY then
      (match q.req.who with
       | .porter n _ =>
         (s.setStop k { v with reqs := v.reqs.map fun r => if r.id = q.id then { r with stalled := true } else r }).setFlag
           (POR.STATUS n) POR.STATUS_STALLED true
       | _ => s)
    else (s.setStop k { v with reqs := rest }).stopKill q.req
  | none => s

/-- TRANSLATION_STOP_REQUEST (R210, R211): a request with its answer goes on; else the next request that has reached the
stop is sent to the CTU, or goes on at once when it carries a DPA. -/
def execTranslationStopRequest (east : Bool) (k : BitVec 5) (s : State) : Res :=
  let i := k.toNat + (if east then 32 else 0)
  match stopTake (s.stop i).reqs with
  | some (q, rest) => .next (s.stopAnswer i q rest)
  | none =>
    match s.takeInbox (edgeEnd i) (fun b => match b with
        | .far _ _ => true
        | .req _ => true
        | _ => false) with
    | some (.far dva r, s) =>
      let v := s.stop i
      let q : Lookup := { ast := s.astOf r.launch, dva := dva, write := (r.op != .read && r.op != .audit), who := .stop i v.next, launch := r.launch }
      .next ((s.setStop i { next := v.next + 1, reqs := v.reqs ++ [{ id := v.next, dva := dva, req := r }] }).lookupSend (32 + i) q)
    | some (.req r, s) => .next (s.stopForward i r)
    | _ => .next s

end Sys2Proof.Machine
end

