-- ==== Sys2Proof/Machine/Sites.lean ====
section
/-!
DEFINITION. Sys2Proof/Machine/Sites.lean: the commands of a memory site (R295-R325): scheduled commands, mesh requests and
memory-side adds in the order of their entry, refresh windows, scrubbing, repair, fencing, retraining and margining.
-/

namespace Sys2Proof.Machine

def State.updSite (s : State) (i : Nat) (f : Site → Site) : State := s.setSite i (f (s.site i))

def State.siteFenced (s : State) (i : Nat) : Bool := s.flag (MEM.STATUS i) MEM.STATUS_FENCED
def State.siteHere (s : State) (i : Nat) : Bool := s.flag (MEM.STATUS i) MEM.STATUS_PRESENT

/-- Whether two ranges meet in a granule (R304). -/
def granulesMeet (a n b m : Nat) : Bool :=
  decide (0 < n) && decide (0 < m) && decide (a / 64 ≤ (b + m - 1) / 64) && decide (b / 64 ≤ (a + n - 1) / 64)

/-- The outcome of an access at a site: to the courier whose command it is, or over the mesh. -/
def State.siteReply (s : State) (i : Nat) (r : MemReq) (cause : Nat) (data : List Byte) (code : Option Nat) : State :=
  match r.who with
  | .courier c ch k j src => s.answerCourier c ch k j src cause data code
  | .arrival c ch => s.answerArrival c ch cause
  | _ => s.meshRespond (siteEnd i) r.back r.who cause data

/-! ### Memory-side adds (R312-R314) -/

/-- Why an add is refused whole; 0 when it is not. -/
def State.addRefuses (s : State) (i : Nat) (r : MemReq) (ty : Nat) : Nat :=
  let why := s.siteRefuses i r.dpa r.data.length r.key
  if why ≠ 0 then why
  else if r.dpa % addSize ty ≠ 0 || r.data.length % addSize ty ≠ 0 then cADD_ALIGN
  else 0

/-- The first add of a site does its next granule, and answers with the last. -/
def State.addStep (s : State) (i : Nat) : State :=
  match (s.site i).adds with
  | [] => s
  | q :: rest =>
    let ty := match q.req.op with
      | .add ty => ty
      | _ => 0
    let why := if q.done = 0 then s.addRefuses i q.req ty else 0
    if why ≠ 0 then ((s.updSite i fun v => { v with adds := rest }).siteRefuse i q.req.dpa why).siteReply i q.req why [] none
    else
      let gs := granulesOf q.req.dpa q.req.data.length
      let (s, bad) := match gs[q.done]? with
        | none => (s, false)
        | some g => s.siteAddGranule i q.req.key ty g q.req.dpa q.req.data
      let cause := if bad then cUNCORRECTABLE else q.cause
      if q.done + 1 < gs.length then s.updSite i fun v => { v with adds := { q with done := q.done + 1, cause := cause } :: rest }
      else (s.updSite i fun v => { v with adds := rest }).siteReply i q.req cause [] none

/-- The granules that the adds of a site have still to do. -/
def Site.addWork (v : Site) : Nat := (v.adds.map fun q => (granulesOf q.req.dpa q.req.data.length).length + 1).foldl (· + ·) 0

/-- Adds that entered before an access, up to the last that meets its granules, are done before it (R304). The fuel is the
work that the adds have left. -/
def State.addsBefore (s : State) (i dpa n : Nat) : Nat → State
  | 0 => s
  | k + 1 =>
    if (s.site i).adds.any fun q => granulesMeet q.req.dpa q.req.data.length dpa n then (s.addStep i).addsBefore i dpa n k
    else s

def State.finishAdds (s : State) (i dpa n : Nat) : State := s.addsBefore i dpa n (s.site i).addWork

/-! ### Mesh requests (R299, R300, R304) -/

/-- Whether a scheduled command that entered before still has to access a granule of the range. -/
def Site.planBlocks (v : Site) (seq dpa n : Nat) : Bool :=
  v.planned.any fun c => !c.done && decide (c.seq < seq) && granulesMeet c.dpa c.n dpa n

/-- The first tracked request is issued, unless the plan has its granules first. -/
def State.meshIssue (s : State) (i : Nat) : Option State :=
  match (s.site i).mesh with
  | [] => none
  | (seq, r) :: rest =>
    if (s.site i).planBlocks seq r.dpa r.n then none
    else
      let s := s.updSite i fun v => { v with mesh := rest }
      match r.op with
      | .add _ => some (s.updSite i fun v => { v with adds := v.adds ++ [{ req := r }] })
      | .write =>
        let (s, c) := (s.finishAdds i r.dpa r.n).siteWrite i r.dpa r.key r.data
        some (s.siteReply i r c [] none)
      | _ =>
        let (s, c, d) := (s.finishAdds i r.dpa r.n).siteRead i r.dpa r.n r.key
        some (s.siteReply i r c d none)

/-- Requests that entered before a scheduled command and meet its granules are issued first. The fuel is their number. -/
def State.meshBefore (s : State) (i seq dpa n : Nat) : Nat → State
  | 0 => s
  | k + 1 =>
    if (s.site i).mesh.any fun e => decide (e.1 < seq) && granulesMeet e.2.dpa e.2.n dpa n then
      (match s.meshIssue i with
       | some s => s.meshBefore i seq dpa n k
       | none => s)
    else s

/-- Everything that entered before a scheduled command and meets its granules is done; whether it is. -/
def State.siteClear (s : State) (i : Nat) (c : SchedCmd) : State × Bool :=
  if (s.site i).planBlocks c.seq c.dpa c.n then (s, false)
  else
    let s := s.meshBefore i c.seq c.dpa c.n (s.site i).mesh.length
    if (s.site i).mesh.any fun e => decide (e.1 < c.seq) && granulesMeet e.2.dpa e.2.n c.dpa c.n then (s, false)
    else (s.finishAdds i c.dpa c.n, true)

/-! ### Scheduled commands (R300-R302, R309) -/

/-- A planned read whose granules are free of earlier accesses is made. A whole aligned tile carries its code (R309). -/
def State.planRead (s : State) (i : Nat) (c : SchedCmd) : State :=
  if c.done || c.op ≠ .read then s
  else
    let (s, ok) := s.siteClear i c
    if !ok then s
    else
      let (s, cause, data) := s.siteRead i c.dpa c.n c.key
      let code := if cause = 0 && c.n = 4096 && c.dpa % 4096 = 0 then some (crcBytes 0 data) else none
      let s := s.updSite i fun v => { v with planned := v.planned.map fun x => if x.seq = c.seq then { x with done := true } else x }
      s.siteReply i { op := .read, dpa := c.dpa, n := c.n, who := c.who, back := siteEnd i } cause data code

/-- The planned reads, in their order. -/
def State.planRun (s : State) (i : Nat) : State := (s.site i).planned.foldl (fun s c => s.planRead i c) s

/-- The share of the tracker that holds scheduled commands of a site. -/
def schedShare (i : Nat) : Nat := if i < 16 then 640 else 128

/-- The cost that the slots from `e` on carry. -/
def costFrom (l : List (Nat × Nat)) (e : Nat) : Nat :=
  (l.map fun x => if e ≤ x.1 && x.1 < e + 4096 then x.2 else 0).foldl (· + ·) 0

/-- Whether a command breaks R301 or comes later than READ_BOUND (R302). -/
def State.siteLateCmd (s : State) (i : Nat) (c : SchedCmd) : Bool :=
  let v := s.site i
  let l := (c.due, c.cost) :: v.costs
  decide (c.lead < s.fld (MEM.READ_BOUND i) MEM.READ_BOUND_SLOTS) || decide (schedShare i ≤ v.planned.length) ||
    l.any fun e => decide (e.1 ≤ c.due) && decide (c.due < e.1 + 4096) &&
      decide (s.fld (MEM.BUDGET i) MEM.BUDGET_UNITS < costFrom l e.1)

/-- A scheduled tile that its site cannot serve (R302). -/
def State.siteLate (s : State) (i dpa : Nat) : State :=
  ((s.bump (MEM.LATE_COUNT i) 1).siteLog i (dpa - siteBase i) 3).busError cSITE_LATE (srcSite i) 0 dpa

/-- SCHEDULED_COMMAND (R300): the site's next command is planned, refused while fenced, or late. -/
def execScheduledCommand (site : BitVec 5) (s : State) : Res :=
  let i := site.toNat
  match (s.site i).cmds with
  | [] => .next s
  | c :: rest =>
    let s := s.updSite i fun v => { v with cmds := rest, seq := v.seq + 1 }
    let c := { c with seq := (s.site i).seq }
    let r : MemReq := { op := c.op, dpa := c.dpa, n := c.n, who := c.who, back := siteEnd i }
    if s.siteFenced i then .next ((s.busError cFENCED (srcSite i) 0 c.dpa).siteReply i r cFENCED [] none)
    else if c.cost ≠ 0 && s.siteLateCmd i c then .next ((s.siteLate i c.dpa).siteReply i r cSITE_LATE [] none)
    else
      let s := s.updSite i fun v => { v with
        planned := v.planned ++ [c],
        costs := (v.costs.filter fun e => decide (c.due < e.1 + 8192)) ++ (if c.cost = 0 then [] else [(c.due, c.cost)]) }
      let n := (s.site i).planned.length
      let s := if s.fld (MEM.TRACKER i) MEM.TRACKER_SCHED_HIGH < n then s.setFld (MEM.TRACKER i) MEM.TRACKER_SCHED_HIGH n else s
      .next (s.planRun i)

/-- The data of a planned write or add reach the site at their meeting. Whether the site had planned it. -/
def State.sitePut (s : State) (i : Nat) (who : Asker) (data : List Byte) : State × Bool :=
  match (s.site i).planned.find? fun c => c.who == who && !c.done with
  | none => (s, false)
  | some c =>
    let s := s.meshBefore i c.seq c.dpa c.n (s.site i).mesh.length
    let s := s.finishAdds i c.dpa c.n
    let s := s.updSite i fun v => { v with planned := v.planned.filter fun x => x.seq != c.seq }
    let r : MemReq := { op := c.op, dpa := c.dpa, n := c.n, key := c.key, data := data, who := who, back := siteEnd i }
    match c.op with
    | .add _ => ((s.updSite i fun v => { v with adds := v.adds ++ [{ req := r }] }).planRun i, true)
    | _ =>
      let (s, cause) := s.siteWrite i c.dpa c.key data
      ((s.siteReply i r cause [] none).planRun i, true)

/-- The commands of a courier's unit leave the site: met, or ended. -/
def State.siteDrop (s : State) (i : Nat) (p : Asker → Bool) : State :=
  (s.updSite i fun v => { v with cmds := v.cmds.filter fun c => !p c.who, planned := v.planned.filter fun c => !p c.who }).planRun i

/-- An access outside the plan that takes effect at once: a background tile's. -/
def State.siteNow (s : State) (i : Nat) (r : MemReq) : State :=
  if s.siteFenced i then (s.busError cFENCED (srcSite i) r.launch r.dpa).siteReply i r cFENCED [] none
  else
    let s := s.updSite i fun v => { v with seq := v.seq + 1 }
    let s := s.meshBefore i (s.site i).seq r.dpa r.n (s.site i).mesh.length
    match r.op with
    | .add _ => s.updSite i fun v => { v with adds := v.adds ++ [{ req := r }] }
    | .write =>
      let (s, c) := (s.finishAdds i r.dpa r.n).siteWrite i r.dpa r.key r.data
      s.siteReply i r c [] none
    | _ =>
      let (s, c, d) := (s.finishAdds i r.dpa r.n).siteRead i r.dpa r.n r.key
      let code := if c = 0 && r.n = 4096 && r.dpa % 4096 = 0 then some (crcBytes 0 d) else none
      s.siteReply i r c d code

/-! ### The mesh share -/

/-- Mesh requests in the tracker of Hn and Ln. -/
def State.meshShare (s : State) (i : Nat) : Nat :=
  let a := s.site (i % 16)
  let b := s.site (16 + i % 16)
  a.mesh.length + a.adds.length + b.mesh.length + b.adds.length

/-- MESH_REQUEST (R299): the next request at the site's router is tracked, refused while the site is fenced, or waits while
the share is full. -/
def execMeshRequest (site : BitVec 5) (s : State) : Res :=
  let i := site.toNat
  match s.takeInbox (siteEnd i) (fun b => match b with
      | .req _ => true
      | _ => false) with
  | some (.req r, s') =>
    if s.siteFenced i then .next ((s'.busError cFENCED (srcSite i) r.launch r.dpa).meshRespond (siteEnd i) r.back r.who cFENCED [])
    else if 1280 ≤ s.meshShare i then .next s
    else
      let s := s'.updSite i fun v => { v with mesh := v.mesh ++ [(v.seq + 1, r)], seq := v.seq + 1 }
      let n := (s.site i).mesh.length + (s.site i).adds.length
      .next (if s.fld (MEM.TRACKER i) MEM.TRACKER_MESH_HIGH < n then s.setFld (MEM.TRACKER i) MEM.TRACKER_MESH_HIGH n else s)
  | _ => .next s

/-- MESH_REQUEST_ISSUE (R300): the oldest tracked request goes to memory when the plan leaves its granules free. -/
def execMeshRequestIssue (site : BitVec 5) (s : State) : Res :=
  match s.meshIssue site.toNat with
  | some s => .next s
  | none => .next s

/-- MEMORY_SIDE_ADD (R312): one granule of the oldest add. -/
def execMemorySideAdd (site : BitVec 5) (s : State) : Res := .next (s.addStep site.toNat)

/-- REFRESH_WINDOW (R305): a unit's window opens and its refreshes run. -/
def execRefreshWindow (site : BitVec 5) (unit : BitVec 6) (s : State) : Res :=
  let i := site.toNat
  if !s.siteHere i || (s.site i).selfRefresh || s.siteUnits i ≤ unit.toNat then .next s
  else .next (s.updSite i fun v => { v with windows := tabSet 0 v.windows unit.toNat (tabGet 0 v.windows unit.toNat + 1) })

/-! ### Fencing, retraining, margining (R322, R323, R476) -/

/-- The engine port of a site in its half (Table 3.1): half and number. -/
def sitePort (i k : Nat) : XPort := if i < 16 then ⟨i / 8, 120 + 6 * (i % 8) + k⟩ else ⟨(i - 16) / 8, 168 + (i - 16) % 8⟩

/-- The launches with a courier descriptor in a running leg whose PORT meets `p`, given the courier's half. -/
def State.portUsers (s : State) (p : XPort → Bool) : List (BitVec 16) :=
  (s.couriers.chans.flatMap fun e => (e.2.queue ++ e.2.waiting).filterMap fun d =>
    let q : XPort := ⟨e.1 / 16 / 16, bitsOf (d.words.getD 0 0).toNat 25 18⟩
    match d.by_ with
    | .leg k i => if p q && (s.run k i).phase == .running then some d.launch else none
    | _ => none).eraseDups

/-- The contexts of the running legs that use a unit are killed with UNIT_FENCED, but in a compute-part reset. -/
def State.killUsers (s : State) (p : XPort → Bool) (source : Nat) : State :=
  if s.flag BRG.STATUS BRG.STATUS_PART_RESET_BUSY then s
  else (s.portUsers p).foldl (fun s l => s.startKill l cUNIT_FENCED source 0 0 0 0) s

/-- Whether a port is one of a site. -/
def atSite (i : Nat) (q : XPort) : Bool := (List.range (if i < 16 then 6 else 1)).any fun k => q == sitePort i k

/-- SITE_FENCE (R322): new work is refused, accepted work completes, and the memory enters self-refresh. -/
def State.fenceSite (s : State) (i : Nat) : State :=
  if !s.siteHere i || s.siteFenced i then s.setFlag (MEM.CTRL i) MEM.CTRL_FENCE true
  else
    let s := (s.setFlag (MEM.CTRL i) MEM.CTRL_FENCE true).killUsers (atSite i) (srcSite i)
    let s := (s.setFlag (MEM.STATUS i) MEM.STATUS_FENCED true).updSite i fun v => { v with selfRefresh := true }
    s.unitEvent (srcSite i) (s.reg (MEM.STATUS i)).toNat 1

def execSiteFence (site : BitVec 5) (s : State) : Res :=
  if !s.siteHere site.toNat then .next s else .next (s.fenceSite site.toNat)

/-- SITE_UNFENCE (R322): the site returns to service. -/
def execSiteUnfence (site : BitVec 5) (s : State) : Res :=
  let i := site.toNat
  if !s.siteHere i || !s.siteEnabled i then .next s
  else
    let s' := s.setFlag (MEM.CTRL i) MEM.CTRL_FENCE false
    if !s.siteFenced i || (s.site i).retraining || (s.site i).margining then .next s'
    else
      let s := (s'.setFlag (MEM.STATUS i) MEM.STATUS_FENCED false).updSite i fun v => { v with selfRefresh := false }
      .next (s.unitEvent (srcSite i) (s.reg (MEM.STATUS i)).toNat 2)

/-- SITE_RETRAIN (R322): ignored unless the site is fenced. -/
def execSiteRetrain (site : BitVec 5) (s : State) : Res :=
  let i := site.toNat
  if !s.siteHere i || !s.siteFenced i || (s.site i).retraining then .next s
  else .next ((s.setFlag (MEM.CTRL i) MEM.CTRL_RETRAIN true).updSite i fun v => { v with retraining := true })

/-- SITE_RETRAIN_DONE (R322): the new latency and bound are reported. -/
def execSiteRetrainDone (site : BitVec 5) (lat bound : BitVec 12) (s : State) : Res :=
  let i := site.toNat
  if !(s.site i).retraining then .next s
  else
    let s := (s.setFld (MEM.PHY_LATENCY i) MEM.PHY_LATENCY_CYCLES lat.toNat).setFld (MEM.READ_BOUND i) MEM.READ_BOUND_SLOTS bound.toNat
    .next ((s.setFlag (MEM.CTRL i) MEM.CTRL_RETRAIN false).updSite i fun v => { v with retraining := false })

/-- MARGIN_SWEEP (R323): ignored unless the site is fenced. -/
def execMarginSweep (site : BitVec 5) (s : State) : Res :=
  let i := site.toNat
  if !s.siteHere i || !s.siteFenced i || (s.site i).margining then .next s
  else
    let s := (s.setFlag (MEM.MARGIN_CTRL i) MEM.MARGIN_CTRL_START true).setFlag (MEM.MARGIN_RESULT i) MEM.MARGIN_RESULT_VALID false
    .next (s.updSite i fun v => { v with margining := true })

/-- MARGIN_SWEEP_DONE (R323): the result is reported; what the margin area holds is free, and its words read correctly. -/
def execMarginSweepDone (site : BitVec 5) (low high : BitVec 8) (s : State) : Res :=
  let i := site.toNat
  if !(s.site i).margining then .next s
  else
    let r := MEM.MARGIN_RESULT i
    let s := ((s.setFld r MEM.MARGIN_RESULT_LOW low.toNat).setFld r MEM.MARGIN_RESULT_HIGH high.toNat).setFlag r MEM.MARGIN_RESULT_VALID true
    let s := (s.setFlag (MEM.MARGIN_CTRL i) MEM.MARGIN_CTRL_START false).updSite i fun v => { v with margining := false }
    let n := min 65536 (s.siteBytes i)
    let a := siteBase i + (s.siteBytes i - n)
    let (k, s) := s.takeFree
    let s := { s with wordErr := s.wordErr.filter fun e => !(decide (a / 8 ≤ e.1) && decide (e.1 < (a + n) / 8)) }
    .next ((s.clearBytes a n).putBytes a (padTo n (Config.freeBytes k n)))

/-! ### Temperature (R321, R416) -/

/-- MR4_READ (R321): the code is kept; beyond the refresh coverage the port is fenced at once, logged and signalled. -/
def execMr4Read (port : BitVec 4) (code : BitVec 8) (beyond : Bool) (s : State) : Res :=
  let i := 16 + port.toNat
  if !s.siteHere i then .next s
  else
    let fresh := beyond && (!s.flag (MEM.STATUS i) MEM.STATUS_HOT || !s.siteFenced i)
    let s := (s.setFld (MEM.TEMP i) MEM.TEMP_MR4 code.toNat).setFlag (MEM.TEMP i) MEM.TEMP_VALID true
    let s := (s.setFlag (MEM.STATUS i) MEM.STATUS_HOT beyond).updSite i fun v => { v with mr4At := s.etc }
    if fresh then .next (((s.event kTHERMAL 0 (srcSite i) 0 code.toNat []).fenceSite i).raise iLPDDR_HOT) else .next s

/-! ### Scrubbing and repair (R311, R316-R320) -/

/-- CE_THRESHOLD (0 acts as 1). -/
def State.ceThreshold (s : State) (i : Nat) : Nat := max 1 (s.fld (MEM.REPAIR_CFG i) MEM.REPAIR_CFG_CE_THRESHOLD)

/-- Words of a granule that the scrubber corrects are written back, and a row with enough of them becomes a candidate. -/
def State.scrubFix (s : State) (i g : Nat) : State :=
  (granuleWords g).foldl (fun s wd =>
    if s.siteWordErr i wd = 1 then
      let row := s.siteRow i (8 * wd - siteBase i)
      let s := { s with wordErr := tabSet 0 s.wordErr wd 0 }
      let s := s.updSite i fun v => { v with scrubFixed := wd :: v.scrubFixed.filter fun x => x != wd }
      let n := ((s.site i).scrubFixed.filter fun x => s.siteRow i (8 * x - siteBase i) == row).length
      if s.ceThreshold i ≤ n then s.repairCandidate i row else s
    else s) s

/-- MEM_SCRUB (R311, R310): the scrubber reads the next populated granule, alone. -/
def execMemScrub (site : BitVec 5) (s : State) : Res :=
  let i := site.toNat
  if !s.siteHere i || s.siteFenced i || !s.siteEcc i || !s.flag (MEM.CTRL i) MEM.CTRL_SCRUB_ENABLE || s.siteBytes i = 0 then .next s
  else
    let p := (s.site i).scrubPos
    let g := siteBase i / 64 + p
    let s := (s.finishAdds i (64 * g) 64).granuleCes i g
    let s := s.scrubFix i g
    let s := (granuleWords g).foldl (fun s wd => if s.siteWordErr i wd = 2 then s.siteUe i wd true else s) s
    if p + 1 < s.siteBytes i / 64 then .next (s.updSite i fun v => { v with scrubPos := p + 1 })
    else .next (s.updSite i fun v => { v with scrubPos := 0, scrubFixed := [] })

/-- REPAIR_REQ (R316): the row that holds the offset becomes a candidate; GO clears. -/
def execRepairReq (site : BitVec 5) (off : BitVec 37) (s : State) : Res :=
  let i := site.toNat
  if !s.siteHere i then .next s
  else
    let s := s.setFld (MEM.REPAIR_REQ i) MEM.REPAIR_REQ_OFFSET off.toNat
    if s.siteBytes i ≤ off.toNat then .next s else .next (s.repairCandidate i (s.siteRow i off.toNat))

/-- The bank group of a row, one per bank of a unit (PRESUMED, assumption 17). -/
def State.rowGroup (s : State) (i row : Nat) : Nat := row % s.siteUnits i * 16 + row / s.siteUnits i % 16

/-- Spares left in a bank group: SPARES_LEFT_MIN at training, less the repairs made in it since. -/
def State.sparesLeft (s : State) (i row : Nat) (start : Nat) : Nat := start - tabGet 0 (s.site i).repaired (s.rowGroup i row)

/-- The granules of a row. -/
def State.rowGranules (s : State) (i row : Nat) : List Nat :=
  let n := s.siteUnits i
  (List.range (s.siteCols i)).map fun c => siteBase i / 64 + (row / n * s.siteCols i + c) * n + row % n

/-- A row moves to a spare: corrected words are corrected, and a granule that held an uncorrectable word keeps returning
UNCORRECTABLE until it is rewritten whole. -/
def State.rowMoved (s : State) (i row : Nat) : State :=
  (s.rowGranules i row).foldl (fun s g =>
    let bad := (granuleWords g).any fun wd => s.siteWordErr i wd == 2
    (granuleWords g).foldl (fun s wd => { s with wordErr := tabSet 0 s.wordErr wd (if bad then 2 else 0) }) s) s

/-- One queued row in a repair interval: a spare of its bank group, or retirement. `start` is the spares that each bank group
had at training. -/
def State.repairRow (s : State) (i : Nat) (ok : Bool) (start row : Nat) : State :=
  let off := s.rowFirst i row
  let left := s.sparesLeft i row start
  if ok && left ≠ 0 then
    let s := s.updSite i fun v => { v with repaired := tabSet 0 v.repaired (s.rowGroup i row) (tabGet 0 v.repaired (s.rowGroup i row) + 1) }
    let s := (s.rowMoved i row).satFld (MEM.REPAIR i) MEM.REPAIR_SOFT_REPAIRS 1
    let s := if left - 1 < s.fld (MEM.REPAIR i) MEM.REPAIR_SPARES_LEFT_MIN then s.setFld (MEM.REPAIR i) MEM.REPAIR_SPARES_LEFT_MIN (left - 1) else s
    s.event kREPAIR 0 (srcSite i) 0 off [BitVec.ofNat 8 i, 1]
  else
    let s := (s.siteLog i off 6).event kREPAIR 0 (srcSite i) 0 off [BitVec.ofNat 8 i, 3]
    s.retireRow i row

/-- REPAIR_INTERVAL (R317, R318): granted while no scheduled command is out, it repairs every queued row. -/
def execRepairInterval (site : BitVec 5) (ok : Bool) (s : State) : Res :=
  let i := site.toNat
  let v := s.site i
  if v.queue.isEmpty || !v.cmds.isEmpty || !v.planned.isEmpty then .next s
  else
    let used := v.repaired.foldl (fun m e => max m e.2) 0
    let start := s.fld (MEM.REPAIR i) MEM.REPAIR_SPARES_LEFT_MIN + used
    let s := s.updSite i fun v => { v with queue := [] }
    let s := v.queue.foldl (fun s row => s.repairRow i ok start row) s
    .next ((s.setFld (MEM.STATUS i) MEM.STATUS_REPAIR_QUEUED 0).setFlag (MEM.STATUS i) MEM.STATUS_REPAIR_WAIT false)

end Sys2Proof.Machine
end

