-- ==== Sys2Proof/Machine/CourDesc.lean ====
section
/-!
DEFINITION. Sys2Proof/Machine/CourDesc.lean: courier descriptors: their fields (R244), the walk (R245) and its units and
pieces (R246), the schedule (R247), conversion (R256), digests (R131, R134), and the push check (R246, R507, R261, R262).
-/

namespace Sys2Proof.Machine

/-! ### Fields (Table 8.3) -/

def Desc.w (d : Desc) (i : Nat) : Nat := (d.words.getD i 0).toNat
def Desc.op (d : Desc) : Nat := bitsOf (d.w 0) 3 0
def Desc.cls (d : Desc) : Nat := bitsOf (d.w 0) 5 4
def Desc.es (d : Desc) : Nat := bitsOf (d.w 0) 8 6
def Desc.ty (d : Desc) : Nat := bitsOf (d.w 0) 15 12
def Desc.dither (d : Desc) : Bool := bitOf (d.w 0) 16
def Desc.dir (d : Desc) : Bool := bitOf (d.w 0) 17
def Desc.port (d : Desc) : Nat := bitsOf (d.w 0) 25 18
def Desc.redDesc (d : Desc) : Nat := bitsOf (d.w 0) 31 26
def Desc.contrib (d : Desc) : Nat := bitsOf (d.w 0) 37 32
def Desc.hctx (d : Desc) : Nat := bitsOf (d.w 0) 41 38
def Desc.hash (d : Desc) : Bool := bitOf (d.w 0) 42
def Desc.prov (d : Desc) : Bool := bitOf (d.w 0) 43
def Desc.src (d : Desc) : Nat := bitsOf (d.w 1) 56 0
def Desc.dst (d : Desc) : Nat := bitsOf (d.w 2) 56 0
def Desc.count (d : Desc) (i : Nat) : Nat := (if i < 4 then bitsOf (d.w 3) (16 * i + 15) (16 * i) else bitsOf (d.w 4) 15 0) + 1
def Desc.counts (d : Desc) : List Nat := (List.range 5).map d.count
def Desc.lead (d : Desc) : Nat := bitsOf (d.w 4) 27 16
def Desc.arrMode (d : Desc) : Nat := bitsOf (d.w 4) 29 28
def Desc.arrPerDesc (d : Desc) : Bool := bitOf (d.w 4) 30
def Desc.arrIndex (d : Desc) : Nat := bitsOf (d.w 4) 42 32
def Desc.srcStrides (d : Desc) : List Int := [sextOf 64 (d.w 5), sextOf 64 (d.w 6), sextOf 64 (d.w 7), sextOf 64 (d.w 8)]
def Desc.dstStrides (d : Desc) : List Int := [sextOf 64 (d.w 9), sextOf 64 (d.w 10), sextOf 64 (d.w 11), sextOf 64 (d.w 12)]
def Desc.inStart (d : Desc) : Nat := bitsOf (d.w 13) 11 0
def Desc.inSpacing (d : Desc) : Nat := bitsOf (d.w 13) 31 16
def Desc.outStart (d : Desc) : Nat := bitsOf (d.w 13) 43 32
def Desc.outSpacing (d : Desc) : Nat := bitsOf (d.w 13) 63 48
def Desc.leafBase (d : Desc) : Nat := bitsOf (d.w 14) 31 0
def Desc.watchFirst (d : Desc) : Nat := bitsOf (d.w 14) 38 32
def Desc.watchLast (d : Desc) : Nat := bitsOf (d.w 14) 46 40
def Desc.arrDva (d : Desc) : Nat := bitsOf (d.w 15) 56 0

def oCOPY : Nat := 0
def oCONVERT : Nat := 1
def oREDUCE : Nat := 2
def oADD : Nat := 3
def oDISCARD : Nat := 4
def oHASH : Nat := 5
def oWATCH : Nat := 6

/-! ### Endpoints (R243, Table 8.2) -/

/-- Port 0 of a courier. -/
def courPort0 (c : Nat) : Nat := 56 + 2 * (c % 16)

/-- A COPY whose PORT names a courier port has two slice sides. -/
def Desc.sliceCopy (d : Desc) : Bool := d.op == oCOPY && decide (56 ≤ d.port) && decide (d.port < 88)
/-- A REDUCE that crosses an Oxlux link. -/
def Desc.redLink (d : Desc) : Bool := d.op == oREDUCE && decide (176 ≤ d.port) && decide (d.port < 184)
def Desc.srcSlice (d : Desc) : Bool :=
  if d.op = oCOPY then d.sliceCopy || d.dir else d.op == oCONVERT || d.op == oREDUCE || d.op == oADD || d.op == oHASH
def Desc.dstSlice (d : Desc) : Bool :=
  if d.op = oCOPY then d.sliceCopy || !d.dir
  else d.op == oCONVERT || d.op == oDISCARD || (d.op == oREDUCE && !d.redLink)
def Desc.srcEngine (d : Desc) : Bool := d.op == oCOPY && !d.sliceCopy && !d.dir
def Desc.dstEngine (d : Desc) : Bool := (d.op == oCOPY && !d.sliceCopy && d.dir) || d.op == oADD || d.redLink
def Desc.hasSrc (d : Desc) : Bool := d.srcSlice || d.srcEngine
def Desc.hasDst (d : Desc) : Bool := d.dstSlice || d.dstEngine

/-! ### The walk (R245) -/

/-- Bytes of a source element and of a destination element (Table 8.4). -/
def Desc.srcSize (d : Desc) : Nat := 2 ^ d.es
def Desc.dstSize (d : Desc) : Nat :=
  if d.op ≠ oCONVERT then d.srcSize
  else if d.ty = 0 then 2
  else if d.ty = 1 || d.ty = 2 then 1
  else 4

def Desc.total (d : Desc) : Nat := d.counts.foldl (· * ·) 1

/-- The indices of a walk element. -/
def walkIndices : List Nat → Nat → List Nat
  | [], _ => []
  | c :: cs, n => n % c :: walkIndices cs (n / c)

/-- The byte address of a walk element, in the 57 bits of a DVA. -/
def walkAddr (base size : Nat) (strides : List Int) (counts : List Nat) (n : Nat) : Nat :=
  let l := walkIndices counts n
  let off : Int := (List.zipWith (fun (i : Nat) (s : Int) => (i : Int) * s) l ((size : Int) :: strides)).foldl (· + ·) 0
  wrapTo 57 ((base : Int) + off)

/-- Runs of dimension 0 that hold elements `n` to `n + left - 1`: address and bytes. The fuel is the number of elements. -/
def walkRuns (base size : Nat) (strides : List Int) (counts : List Nat) : Nat → Nat → Nat → List (Nat × Nat)
  | 0, _, _ => []
  | f + 1, n, left =>
    if left = 0 then []
    else
      let m := min left (counts.headD 1 - n % counts.headD 1)
      (walkAddr base size strides counts n, m * size) :: walkRuns base size strides counts f (n + m) (left - m)

/-- Adjacent runs as one. -/
def joinRuns : List (Nat × Nat) → List (Nat × Nat)
  | [] => []
  | (a, n) :: t => match joinRuns t with
    | [] => [(a, n)]
    | (b, m) :: u => if a + n = b then (a, n + m) :: u else (a, n) :: (b, m) :: u

/-- One run cut at 4 KiB frames, or at the `g` bytes that one access moves. -/
def cutRun (g : Nat) : Nat → Nat → Nat → Nat → List Piece
  | 0, _, _, _ => []
  | f + 1, off, a, n =>
    if n = 0 then []
    else
      let m := min n (g - a % g)
      { off := off, n := m, dva := a } :: cutRun g f (off + m) (a + m) (n - m)

/-- The pieces of runs, placed one after another. -/
def cutRuns (g : Nat) : Nat → List (Nat × Nat) → List Piece
  | _, [] => []
  | off, (a, n) :: t => cutRun g (n / g + 2) off a n ++ cutRuns g (off + n) t

/-- The pieces of elements `n` to `n + k - 1` of one side. -/
def sidePieces (g base size : Nat) (strides : List Int) (counts : List Nat) (n k : Nat) : List Piece :=
  cutRuns g 0 (joinRuns (walkRuns base size strides counts k n k))

/-! ### Units -/

/-- The elements that one unit takes: those of one destination tile, or of the group that one source tile supplies. -/
def Desc.unitElems (d : Desc) : Nat := 4096 / d.dstSize
/-- Bytes of a unit's source side. -/
def Desc.srcBytes (d : Desc) : Nat := d.unitElems * d.srcSize
/-- Units that share a source tile: more than 1 where a conversion widens its elements (Table 8.4). -/
def Desc.perTile (d : Desc) : Nat := max 1 (d.dstSize / d.srcSize)
/-- The first source tile of a unit. -/
def Desc.srcTile (d : Desc) (k : Nat) : Nat := k * d.srcBytes / 4096
/-- Units of the descriptor. -/
def Desc.units (d : Desc) : Nat := d.total / d.unitElems
/-- Tiles that the descriptor delivers: for WATCH, counts. -/
def Desc.tiles (d : Desc) : Nat := if d.op = oWATCH then d.watchLast + 1 - d.watchFirst else d.units

/-- The bytes that one access of a slice side moves: a tile in a meeting, a beat in the background. -/
def Desc.grain (d : Desc) : Nat := if d.cls = 0 then 4096 else 256

/-- What a unit reads: of the units that share a source tile, the first reads it for all. -/
def Desc.srcPieces (d : Desc) (k : Nat) : List Piece :=
  if d.hasSrc && k % d.perTile == 0 then
    sidePieces (if d.srcSlice then d.grain else 4096) d.src d.srcSize d.srcStrides d.counts (k * d.unitElems) (d.unitElems * d.perTile)
  else []
def Desc.dstPieces (d : Desc) (k : Nat) : List Piece :=
  if d.hasDst then sidePieces (if d.dstSlice && d.op ≠ oDISCARD then d.grain else 4096) d.dst d.dstSize d.dstStrides d.counts
    (k * d.unitElems) d.unitElems
  else []

/-! ### The schedule (R247) -/

def Desc.outSlot (d : Desc) (start shift tile : Nat) : Nat := start + d.outStart + tile * d.outSpacing + 4096 * shift
def Desc.inSlot (d : Desc) (start shift tile : Nat) : Nat := start + d.inStart + tile * d.inSpacing + 4096 * shift
/-- Whether the descriptor has meetings of its own on each schedule. -/
def Desc.usesOut (d : Desc) : Bool := d.srcSlice || (d.srcEngine && d.hash)
def Desc.usesIn (d : Desc) : Bool := d.dstSlice && d.op ≠ oDISCARD

/-- The first slot of a unit's meetings; a read-back follows the write. -/
def Desc.firstSlot (d : Desc) (start shift k : Nat) : Nat :=
  let o := d.outSlot start shift (d.srcTile k)
  let i := d.inSlot start shift k
  if d.srcSlice && k % d.perTile == 0 then (if d.usesIn then min o i else o) else i

/-- Slots of a meeting through a port (R70). -/
def portSlots (p : Nat) : Nat := if edgePort p then 32 else 16

/-! ### Conversion (R256, Table 8.4) -/

def convDst (ty : Nat) : Fmt := if ty = 0 then bf16 else if ty = 1 then e4m3 else if ty = 2 then e5m2 else fp32
def convSrc (ty : Nat) : Fmt := if ty = 3 then bf16 else if ty = 4 then e4m3 else if ty = 5 then e5m2 else fp32

/-- One element after another; `addr` gives the dither address of element `n`. -/
def convElems (ty sz dz : Nat) (dither : Option (Nat × Nat)) (addr : Nat → Nat) : Nat → Nat → List Byte → List Byte
  | 0, _, _ => []
  | k + 1, n, l =>
    let r := match dither with
      | none => Rnd.rne
      | some (seed, step) => Rnd.dither (ditherOf seed (addr n) step)
    leBytes dz (fconvert (convDst ty) (convSrc ty) r (leVal (l.take sz))).1 ++ convElems ty sz dz dither addr k (n + 1) (l.drop sz)

/-- A unit of a CONVERT. -/
def Desc.convert (d : Desc) (dither : Option (Nat × Nat)) (k : Nat) (l : List Byte) : List Byte :=
  convElems d.ty d.srcSize d.dstSize dither (fun n => walkAddr d.dst d.dstSize d.dstStrides d.counts n) d.unitElems (k * d.unitElems) l

/-! ### Digests (R131-R135) -/

/-- A digest as a number. -/
def digNum (l : List Byte) : BitVec 384 := BitVec.ofNat 384 (beVal l)
def digBytes (v : BitVec 384) : List Byte := beBytes 48 v.toNat

def leafDigest (l : List Byte) : BitVec 384 := digNum (sha384 (0 :: l))

/-- The largest power of two below `n`. -/
def powBelow (n : Nat) : Nat := 2 ^ Nat.log2 (n - 1)

/-- The tree over leaf digests; the fuel is the number of leaves. -/
def digTree : Nat → List (BitVec 384) → BitVec 384
  | 0, _ => 0
  | f + 1, l =>
    if l.length ≤ 1 then l.headD 0
    else
      let k := powBelow l.length
      digNum (sha384 (1 :: (digBytes (digTree f (l.take k)) ++ digBytes (digTree f (l.drop k)))))

/-- The digest of a stream of `n` bytes from its leaf digests. -/
def digStream (n : Nat) (leaves : List (BitVec 384)) : BitVec 384 :=
  digNum (sha384 (2 :: (leBytes 8 n ++ digBytes (if n = 0 then 0 else digTree leaves.length leaves))))

/-- The leaves of bytes. -/
def leavesOf : Nat → List Byte → List (BitVec 384)
  | 0, _ => []
  | f + 1, l => if l.isEmpty then [] else leafDigest (l.take 4096) :: leavesOf f (l.drop 4096)

/-- The digest of bytes. -/
def digOf (l : List Byte) : BitVec 384 := digStream l.length (leavesOf (l.length / 4096 + 1) l)

/-- The digest of a context's stream. -/
def HashCtx.digest (h : HashCtx) (n : Nat) : BitVec 384 := digStream n (tabRange 0 h.leaves 0 ((n + 4095) / 4096))

/-- The bytes that leaf `i` of a stream of `n` bytes covers. -/
def leafCut (n i : Nat) (l : List Byte) : List Byte := l.take (n - 4096 * i)

/-! ### The push check (R246) -/

/-- The reserved bits of each word. -/
def descReserved : List Nat :=
  [0xF00000000E00, 0xFE00000000000000, 0xFE00000000000000, 0, 0xFFFFF80080000000, 0, 0, 0, 0, 0, 0, 0, 0,
   0xF0000000F000, 0xFFFF808000000000, 0xFE00000000000000]

def Desc.reservedOk (d : Desc) : Bool := (List.zipWith (fun (w : W64) (m : Nat) => Nat.land w.toNat m == 0) d.words descReserved).all fun b => b

/-- Whether a side is aligned tiles in ascending order: some leading dimensions dense and whole tiles, the rest on tile
strides. -/
def tiledFrom : Nat → List Nat → List Int → Bool
  | size, [], _ => size % 4096 == 0
  | size, c :: cs, ss =>
    (size % 4096 == 0 && ss.all fun s => s % 4096 == 0) ||
      (match ss with
       | [] => false
       | s :: rest => s == (size : Int) && tiledFrom (size * c) cs rest)

def tiled (base size : Nat) (counts : List Nat) (strides : List Int) : Bool :=
  base % 4096 == 0 && tiledFrom (size * counts.headD 1) (counts.drop 1) strides

/-- Whether every address of an engine side is aligned to its element. -/
def sideAligned (base size : Nat) (strides : List Int) : Bool := base % size == 0 && strides.all fun s => s % (size : Int) == 0

/-- A port that a COPY may name: a memory site, a hostel, a porter edge port, an Oxlux port, the PCIe port, or port 0 of the
courier itself. -/
def copyPort (c : Nat) (dir : Bool) (p : Nat) : Bool :=
  (p == courPort0 c && !dir) || (decide (40 ≤ p) && decide (p < 56)) || (decide (88 ≤ p) && decide (p < 184)) || (p == 217 && decide (c < 16))

/-- A port that an ADD may name. -/
def addPort (p : Nat) : Bool := decide (88 ≤ p) && decide (p < 184)

/-- The rules of an operation. -/
def Desc.opOk (d : Desc) (c : Nat) : Bool :=
  match d.op with
  | 0 => copyPort c d.dir d.port
  | 1 => decide (d.ty < 6) && d.srcSize == (if d.ty < 3 then 4 else if d.ty = 3 then 2 else 1) && (!d.dither || decide (d.ty < 3))
  | 2 => true
  | 3 => addPort d.port && decide (d.ty < 5) && d.srcSize == addSize d.ty
  | 4 => true
  | 5 => d.dst == 0
  | 6 => decide (d.watchFirst ≤ d.watchLast) && decide (d.watchLast < 96)
  | _ => false

/-- A schedule of `n` tiles through meetings of `len` slots. -/
def spacingOk (n spacing len : Nat) : Bool := decide (n < 2) || (spacing % 16 == 0 && decide (len ≤ spacing))

/-- Both schedules of a scheduled descriptor (R247, R248, R507). -/
def Desc.schedOk (d : Desc) : Bool :=
  let ns := d.units * d.srcBytes / 4096
  let nd := d.units
  let out := if d.srcSlice then ns else nd
  let own := d.sliceCopy || d.op == oCONVERT || (d.op == oREDUCE && !d.redLink)
  let meets := fun (k : Nat) =>
    let last := ((k + 1) * 4096 * d.srcSize / d.dstSize - 1) / 4096
    decide (d.outStart + last * d.outSpacing + 15 + 24 ≤ d.inStart + k * d.inSpacing)
  decide (64 ≤ d.lead) && d.port != 217 &&
    (!d.usesOut || spacingOk out d.outSpacing (if d.dstEngine then portSlots d.port else 16)) &&
    (!d.usesIn || spacingOk nd d.inSpacing (if d.srcEngine then portSlots d.port else 16)) &&
    (!own || (meets 0 && meets (nd - 1)))

/-- The rules of a descriptor that need no state beyond itself. -/
def Desc.ok (d : Desc) (c : Nat) : Bool :=
  d.reservedOk && decide (d.cls < 2) && decide (d.es < 5) && d.opOk c && (d.op == oCONVERT || !d.dither) &&
    (d.op == oCOPY || !d.dir) && (d.op == oHASH || !d.prov) &&
    (!d.hash || d.op == oCONVERT || (d.op == oCOPY && d.dstSlice)) &&
    decide (d.total * max d.srcSize d.dstSize ≤ 2 ^ 40) &&
    (!d.srcSlice || tiled d.src d.srcSize d.counts d.srcStrides) && (!d.dstSlice || tiled d.dst d.dstSize d.counts d.dstStrides) &&
    (!d.srcEngine || sideAligned d.src d.srcSize d.srcStrides) && (!d.dstEngine || sideAligned d.dst d.dstSize d.dstStrides) &&
    (d.op == oWATCH || d.total % d.unitElems == 0) &&
    (if d.cls = 1 || d.op = oDISCARD || d.op = oWATCH then d.w 13 == 0 else d.schedOk)

end Sys2Proof.Machine
end

