-- ==== Sys2Proof/Machine/Courier.lean ====
section
/-!
DEFINITION. Sys2Proof/Machine/Courier.lean: courier channels (R241-R264): the queue and the push check, the look-ahead, the
commanding, moving and landing of tiles, parking and resume, errors, conversion, adds, reductions, discards, watches,
hashing and provenance records.
-/

namespace Sys2Proof.Machine

def srcCour (c : Nat) : Nat := srcOf 5 c
def courHalf (c : Nat) : Nat := c / 16

/-- The slot that a half is in, counted since RUN was first set. -/
def State.nowSlot (s : State) (e : Nat) : Nat := (s.reg (XR.TT_PERIOD e)).toNat * 4096 + s.fld (XR.TT_SLOT e) XR.TT_SLOT_SLOT

/-! ### The register view (Table 8.6) -/

/-- CH_STATUS.STATE. -/
def Chan.state (v : Chan) : Nat :=
  if v.queue.isEmpty then (if v.failed then 4 else 0) else if v.parkKind ≠ 0 then 3 else if v.moving then 2 else 1

def State.chanView (s : State) (c ch : Nat) : State :=
  let v := s.chan c ch
  let r := CH.STATUS c ch
  let s := ((s.setFld r CH.STATUS_STATE v.state).setFld r CH.STATUS_QUEUED v.queue.length).setFld r CH.STATUS_PARK_KIND v.parkKind
  let s := (s.setReg (CH.TILES c ch) (BitVec.ofNat 64 v.landed)).setFld (CH.SHIFT c ch) CH.SHIFT_SHIFT v.shift
  let st := (s.reg (COUR.STATUS c)).toNat
  let st := putBits (putBits st ch ch (b2n (!v.queue.isEmpty))) (16 + ch) (16 + ch) (b2n (v.parkKind != 0))
  s.setReg (COUR.STATUS c) (BitVec.ofNat 64 st)

def State.putChan (s : State) (c ch : Nat) (v : Chan) : State := (s.setChan c ch v).chanView c ch
def State.updChan (s : State) (c ch : Nat) (f : Chan → Chan) : State := s.putChan c ch (f (s.chan c ch))

/-! ### Digest contexts (R131-R133, R261) -/

def State.hashCtx (s : State) (k h : Nat) : HashCtx := tabGet {} s.hashes (16 * k + h)
def State.setHashCtx (s : State) (k h : Nat) (v : HashCtx) : State := { s with hashes := tabSet {} s.hashes (16 * k + h) v }

/-- The streams that a launch declares for a context: whether the checkpoint, a batch (0) or a block (1), and the length of
the stream that its leaves form. -/
def Launch.streamsOf (la : Launch) (h : Nat) : List (Bool × Nat × Nat) :=
  (if la.ckptLen ≠ 0 && la.ckptCtx = h then [(true, 0, la.ckptLen)] else []) ++
    (la.streams.filter fun e => e.ctx == h).map fun e => (false, e.kind, if e.kind = 1 then e.len - 48 else e.len)

/-- Whether every batch stream is closed. -/
def State.batchesClosed (s : State) (k : Nat) : Bool :=
  ((s.launch k).streams.filter fun e => e.kind == 0).all fun e => e.len == 0 || (s.hashCtx k e.ctx).closed

/-- D_batch once its last stream has closed (R133). -/
def State.batchDigest (s : State) (k : Nat) : State :=
  let la := s.launch k
  if s.batchesClosed k then
    let ds := (la.streams.filter fun e => e.kind == 0).flatMap fun e => digBytes ((s.hashCtx k e.ctx).digest e.len)
    s.setLaunch k { la with dbatch := digNum (sha384 (4 :: ds)) }
  else s

/-- A stream closes when its last leaf is in. -/
def State.streamClose (s : State) (k h : Nat) (st : Bool × Nat × Nat) : State :=
  let v := s.hashCtx k h
  let n := (st.2.2 + 4095) / 4096
  if v.closed || ((List.range n).any fun i => (tabFind v.leaves i).isNone) then s
  else
    let s := s.setHashCtx k h { v with closed := true }
    if st.1 then { s.setLaunch k { s.launch k with dckpt := v.digest st.2.2 } with lastCkpt := v.digest st.2.2 }
    else if st.2.1 = 0 then s.batchDigest k
    else s

/-- Leaf `i` of a context: hashed once over its bytes inside the stream. A leaf of a checkpoint that is complete begins the
next load of it (R133). -/
def State.hashLeaf (s : State) (l : BitVec 16) (h i : Nat) (data : List Byte) : State :=
  match s.slotOf l with
  | none => s
  | some k =>
    match (s.launch k).streamsOf h with
    | [] => s
    | st :: _ =>
      let v := s.hashCtx k h
      let v := if v.closed && st.1 then { leaves := [], failed := v.failed, closed := false } else v
      let cut := leafCut st.2.2 i data
      if cut.isEmpty || (tabFind v.leaves i).isSome then s
      else (s.setHashCtx k h { v with leaves := tabInsert v.leaves i (leafDigest cut) }).streamClose k h st

/-- The context of a hashing descriptor fails (R132, R254). -/
def State.hashFail (s : State) (c ch : Nat) (d : Desc) : State :=
  if d.hash || d.op = oHASH then
    let s := s.setFlag (CH.STATUS c ch) CH.STATUS_HASH_FAILED true
    match s.slotOf d.launch with
    | none => s
    | some k => s.setHashCtx k d.hctx { s.hashCtx k d.hctx with failed := true }
  else s

/-! ### Look-ahead (R249) -/

/-- The pages of one side of a descriptor from unit `k` on, twice each. The fuel is the units looked at. -/
def unitFrames (f : Nat → List Piece) (units : Nat) : Nat → Nat → List Nat
  | 0, _ => []
  | n + 1, k => if units ≤ k then [] else (f k).map (·.dva) ++ unitFrames f units n (k + 1)

/-- The first 64 pages of a side over the queued descriptors: each with its descriptor. -/
def sideAhead (f : Desc → Nat → List Piece) (next : Nat) : List Desc → List (Desc × Nat)
  | [] => []
  | d :: t =>
    let own := ((unitFrames (f d) d.units (64 * d.perTile) next).map fun a => a / 4096 * 4096).eraseDups
    (own.map fun a => (d, a)) ++ (if own.length < 64 then sideAhead f 0 t else [])

/-- The pages that a channel translates ahead: descriptor, page, whether for a write, whether the word at ARR_DVA. -/
def Chan.wanted (v : Chan) : List (Desc × Nat × Bool × Bool) :=
  let s := ((sideAhead Desc.srcPieces v.next v.queue).take 64).map fun e => (e.1, e.2, false, false)
  let d := ((sideAhead Desc.dstPieces v.next v.queue).take 64).map fun e => (e.1, e.2, true, false)
  let a := match v.queue.head? with
    | some d => if d.arrMode = 2 then [(d, d.arrDva / 4096 * 4096, true, true)] else []
    | none => []
  s ++ d ++ a

/-- Send the lookups of wanted pages that are neither answered nor asked for, and forget pages that are past. -/
def State.chanLook (s : State) (c ch : Nat) : State :=
  let v := s.chan c ch
  let ws := v.wanted
  let keys := ws.map fun w => aheadKey w.1.id w.2.1 w.2.2.2
  let s := s.setChan c ch { v with ahead := v.ahead.filter fun e => keys.contains e.1 }
  ws.foldl (fun s w =>
    let v := s.chan c ch
    let k := aheadKey w.1.id w.2.1 w.2.2.2
    if v.asked.contains k || v.ahead.any (fun e => e.1 == k) then s
    else
      let q : Lookup := { ast := s.astOf w.1.launch, dva := w.2.1, write := w.2.2.1, who := .courier c ch w.1.id w.2.2.2, launch := w.1.launch }
      (s.setChan c ch { v with asked := v.asked ++ [k] }).lookupSend c q) s

/-- The answer that a channel has for an address. -/
def Chan.page (v : Chan) (d : Desc) (dva : Nat) (arr : Bool) : Option Answer :=
  (v.ahead.find? fun e => e.1 == aheadKey d.id dva arr).map (·.2)

/-! ### Ends of descriptors (R254, R255) -/

/-- Whether a requester is a unit or a read-back of a channel. -/
def ofChan (c ch : Nat) : Asker → Bool
  | .courier c' ch' _ _ _ => c' == c && ch' == ch
  | .hashRead c' ch' _ => c' == c && ch' == ch
  | _ => false

/-- The transfers, commands and requests of a channel that have not begun leave the ports, the sites and the slices. -/
def State.chanRecall (s : State) (c ch : Nat) : State :=
  let e := courHalf c
  let h := s.half e
  let s := s.setHalf e { h with ops := tabMap [] (fun _ l => l.filter fun o => !ofChan c ch o.who) h.ops }
  let s := (s.sites.map (·.1)).foldl (fun s i => s.siteDrop i (ofChan c ch)) s
  { s with slices := tabMap {} (fun _ v => { v with bgR := v.bgR.filter fun b => !ofChan c ch b.who,
                                                    bgW := v.bgW.filter fun b => !ofChan c ch b.who }) s.slices }

/-- The head descriptor leaves the channel; what is running is reset. -/
def State.chanPop (s : State) (c ch : Nat) : State :=
  let s := s.chanRecall c ch
  let v := s.chan c ch
  let by_ := v.queue.head?.map Desc.by_
  let s := s.putChan c ch { v with
    queue := v.queue.drop 1, moving := false, next := 0, jobs := [], reads := [], counts := [], stopping := false,
    arrOut := false, arrCause := 0, parkKind := 0, record := false, perDone := false, kept := none }
  let s := if tabGet 0 s.couriers.lanes c = ch + 1 then { s with couriers := { s.couriers with lanes := tabSet 0 s.couriers.lanes c 0 } } else s
  match by_ with
  | some (.leg slot leg) => (s.setRun slot leg fun r => { r with descsLeft := r.descsLeft - 1 }).legCheck slot leg
  | _ => s

/-- The courier's error log: the first fault's fields, or OVERFLOW while VALID is 1. -/
def State.courLog (s : State) (c ch cause tile : Nat) : State :=
  let r := COUR.ERR_LOG c
  if s.flag r COUR.ERR_LOG_VALID then s.setFlag r COUR.ERR_LOG_OVERFLOW true
  else (((s.setFld r COUR.ERR_LOG_CHANNEL ch).setFld r COUR.ERR_LOG_CAUSE cause).setFld r COUR.ERR_LOG_TILE tile).setFlag
    r COUR.ERR_LOG_VALID true

/-- ERROR and ERR_SEEN of a channel. -/
def State.chanFailed (s : State) (c ch : Nat) : State :=
  (s.updChan c ch fun v => { v with failed := true }).setFlag (CH.STATUS c ch) CH.STATUS_ERR_SEEN true

/-- A tile ends in a bus error, and its descriptor with it (R254). -/
def State.chanError (s : State) (c ch tile cause : Nat) : State :=
  match (s.chan c ch).queue.head? with
  | none => s
  | some d =>
    let s := (s.courLog c ch cause tile).hashFail c ch d
    let s := if d.launch = 0 then s else s.startKill d.launch cBUS_ERROR (srcCour c) tile cause 0 0
    (s.chanPop c ch).chanFailed c ch

/-! ### The push (R242, R246, R261, R262) -/

/-- Whether a hashing descriptor names a context that its launch declares. -/
def State.hashOk (s : State) (d : Desc) : Bool :=
  if !(d.hash || d.op == oHASH) then true
  else match d.by_, s.slotOf d.launch with
    | .leg _ _, some k =>
      let l := (s.launch k).streamsOf d.hctx
      if d.prov then
        match (s.launch k).streams.find? fun e => e.kind == 1 && e.ctx == d.hctx with
        | some e => e.len % 8 == 0 && decide (48 ≤ e.len) && d.units == (e.len + 4095) / 4096
        | none => false
      else !l.isEmpty
    | _, _ => false

/-- The push check. A descriptor that no leg queues carries LAUNCH = 0 and CLASS = 1. -/
def State.pushOk (s : State) (c : Nat) (d : Desc) : Bool :=
  d.ok c && s.hashOk d && (match d.by_ with
    | .leg _ _ => true
    | _ => d.launch == 0 && d.cls == 1)

/-- A descriptor enters the queue, or is discarded with ERR_SEEN, its launch killed. -/
def State.chanEnter (s : State) (c ch : Nat) (d : Desc) : State :=
  let v := s.chan c ch
  if s.pushOk c d then
    (s.putChan c ch { v with queue := v.queue ++ [{ d with id := v.nextDesc }], nextDesc := v.nextDesc + 1, failed := false }).chanLook c ch
  else
    let s := s.chanFailed c ch
    let s := if d.launch = 0 then s else s.startKill d.launch cCOURIER_DESC (srcCour c) 0 0 0 0
    match d.by_ with
    | .leg slot leg => (s.setRun slot leg fun r => { r with descsLeft := r.descsLeft - 1 }).legCheck slot leg
    | _ => s

/-- Waiting pushes take free entries, in the order they began to wait. The fuel is their number. -/
def State.chanRefill (s : State) (c ch : Nat) : Nat → State
  | 0 => s
  | k + 1 =>
    let v := s.chan c ch
    match v.waiting with
    | [] => s
    | d :: rest =>
      if 4 ≤ v.queue.length then s
      else
        let s := (s.setChan c ch { v with waiting := rest }).chanEnter c ch d
        let s := match d.by_ with
          | .leg _ _ => s
          | _ => s.setFlag (CH.CTRL c ch) CH.CTRL_PUSH false
        s.chanRefill c ch k

def State.chanFill (s : State) (c ch : Nat) : State := s.chanRefill c ch (s.chan c ch).waiting.length

/-- A push: entered at once, or waiting behind a full queue. -/
def State.chanPush (s : State) (c ch : Nat) (d : Desc) : State :=
  (s.setChan c ch { s.chan c ch with waiting := (s.chan c ch).waiting ++ [d] }).chanFill c ch

/-- PUSH (R242): a write of CH_CTRL.PUSH, ignored while one is pending. -/
def execPush (c : BitVec 5) (ch : BitVec 4) (who : Writer) (s : State) : Res :=
  let c := c.toNat
  let ch := ch.toNat
  if s.flag (CH.CTRL c ch) CH.CTRL_PUSH then .next s
  else
    let d : Desc := { words := (List.range 16).map fun i => s.reg (CH.DESC c ch i),
                      by_ := match who with
                        | .steward => .steward
                        | .host => .driver }
    .next ((s.setFlag (CH.CTRL c ch) CH.CTRL_PUSH true).chanPush c ch d)

/-! ### Commanding a unit (R247, R248, R249, R252) -/

/-- Whether an engine-side piece lies in the unit of PORT (R248). -/
def State.inUnit (s : State) (c : Nat) (port dpa : Nat) : Bool :=
  let e := courHalf c
  match targetOf dpa with
  | .site i _ => atSite i ⟨e, port⟩
  | .hostelStore h => h / 4 == e && decide (40 + 4 * (h % 4) ≤ port) && decide (port < 44 + 4 * (h % 4))
  | .porterMem n => edgePort port && (n % 64 / 32 == e)
  | .remote w _ => decide (176 ≤ port) && decide (port < 184) &&
      (!s.flag (CTU.OUTWIN w) CTU.OUTWIN_VALID || s.fld (CTU.OUTWIN w) CTU.OUTWIN_PORT == 8 * e + (port - 176))
  | .hostWindow _ => port == 217 && e == 0
  | _ => false

/-- The port that a unit uses on each side. -/
def Desc.readPort (d : Desc) (c : Nat) : XPort := ⟨courHalf c, if d.dstEngine then d.port else courPort0 c⟩
def Desc.writePort (d : Desc) (c : Nat) : XPort := ⟨courHalf c, if d.srcEngine then d.port else courPort0 c + 1⟩

/-- A piece with its translation. -/
def Piece.at_ (p : Piece) (t : Trans) : Piece := { p with dpa := t.pa + (p.dva - t.va), key := t.key }

/-- What a unit's pages come to: a page is still out, a page faults, the unit ends in a cause, or its pieces are placed. -/
inductive Placed where
  | out
  | fault
  | bad (cause : Nat)
  | ok (src dst : List Piece)

/-- One side's pieces: placed, with the first cause. -/
def placeSide (v : Chan) (d : Desc) (write : Bool) : List Piece → Nat × Nat × List Piece
  | [] => (0, 0, [])
  | p :: t =>
    let (st, cause, l) := placeSide v d write t
    match v.page d p.dva false with
    | none => (max st 1, cause, l)
    | some (.fault _ _) => (2, cause, l)
    | some .abort => (st, cFAULT_ABORTED, l)
    | some (.page x) => if (if write then x.w else x.r) then (st, cause, p.at_ x :: l) else (st, cPERMISSION, l)

/-- The pieces of a unit; an engine side lies in PORT's unit and a slice side in the buffer, and a slice has no adder. -/
def State.placeUnit (s : State) (c : Nat) (v : Chan) (d : Desc) (k : Nat) : Placed :=
  let (a, ca, src) := placeSide v d false (d.srcPieces k)
  let (b, cb, dst) := placeSide v d true (d.dstPieces k)
  if a = 2 || b = 2 then .fault
  else if a = 1 || b = 1 then .out
  else if ca ≠ 0 then .bad ca
  else if cb ≠ 0 then .bad cb
  else
    let inBuf := fun (p : Piece) => decide (p.dpa < 0x30000000)
    if (d.srcSlice && !src.all inBuf) || (d.dstSlice && !dst.all inBuf) then .bad cUNREACHABLE
    else if d.op = oADD && dst.any inBuf then .bad cNO_ADDER
    else if d.srcEngine && !src.all (fun p => s.inUnit c d.port p.dpa) then .bad cPORT_MISMATCH
    else if d.dstEngine && !dst.all (fun p => s.inUnit c d.port p.dpa) then .bad cPORT_MISMATCH
    else .ok src dst

/-- Pieces by place in their side. -/
def eachPiece (l : List Piece) : List (Nat × Piece) := l.zipIdx.map fun x => (x.2, x.1)

/-- The mesh end of a porter edge port of a half. -/
def edgeOf (c port : Nat) : MeshEnd := edgeEnd (32 * courHalf c + (port - 88) % 32)

/-- The window and port of a remote access, and why it fails. -/
def State.remoteOf (s : State) (dpa : Nat) : Nat × Nat × Nat × Nat :=
  match targetOf dpa with
  | .remote w off =>
    let (x, c) := s.oxRoute w
    (w, off, x, c)
  | _ => (0, 0, 0, cDECODE)

/-- A request for a remote window: submitted, or failed at once. -/
def State.remoteReq (s : State) (c : Nat) (dpa : Nat) (r : OxReq) : State :=
  let (w, off, x, cause) := s.remoteOf dpa
  if cause ≠ 0 then (s.busError cause (srcCour c) 0 dpa).answer r.who cause []
  else s.oxSubmit x { r with w := w, off := off }

/-- The first tag from the next one on that no access holds. -/
def hostTag (l : List HostAcc) : Nat → Nat → Nat
  | 0, t => t
  | n + 1, t => if l.any fun h => h.tag == some t then hostTag l n ((t + 1) % 1024) else t

/-- The first unsent read takes a tag and is sent. -/
def hostSendOne (tag : Nat) : List HostAcc → List HostAcc × Option HostAcc
  | [] => ([], none)
  | h :: t =>
    if h.tag.isNone then ({ h with tag := some tag } :: t, some h)
    else
      let r := hostSendOne tag t
      (h :: r.1, r.2)

/-- Waiting reads of the host window are sent while fewer than 768 are outstanding (R448). -/
def State.hostPump (s : State) : State :=
  if 768 ≤ (s.pcie.host.filter fun h => h.tag.isSome).length then s
  else
    let tag := hostTag s.pcie.host 1024 s.pcie.nextTag
    let (l, h) := hostSendOne tag s.pcie.host
    match h with
    | none => s
    | some h => { s with pcie := { s.pcie with host := l, nextTag := (tag + 1) % 1024 } }.pcieSend (.read tag h.addr h.n)

/-- A device-initiated read of the host window (R451). -/
def State.hostRead (s : State) (off n : Nat) (who : Asker) : State :=
  if !s.flag PCIE.STATUS PCIE.STATUS_BME then (s.busError cHOST_ABORT (srcOf 13 0) 0 off).answer who cHOST_ABORT []
  else
    let addr := (s.fld PCIE.HOST_BASE PCIE.HOST_BASE_BASE + off) % 2 ^ 64
    ({ s with pcie := { s.pcie with host := s.pcie.host ++ [{ addr := addr, n := n, who := who }] } } : State).hostPump

/-- A background class (R263). -/
def Desc.bgClass (d : Desc) : BgClass := match d.by_ with
  | .driver => .host
  | _ => .steward

/-- A background read of a slice. -/
def State.bgRead (s : State) (cls : BgClass) (dpa n : Nat) (who : Asker) : State :=
  let sl := (sliceOf (dpa / 4096)).1
  let v := s.slice sl
  s.setSlice sl { v with bgR := v.bgR ++ [{ cls := cls, dpa := dpa, len := n, who := who }] }

/-- A background write of whole bytes of a slice. -/
def State.bgWrite (s : State) (cls : BgClass) (dpa : Nat) (data : List Byte) (who : Asker) : State :=
  let sl := (sliceOf (dpa / 4096)).1
  let v := s.slice sl
  s.setSlice sl { v with bgW := v.bgW ++ [{ cls := cls, dpa := dpa, len := data.length, data := data, en := data.map fun _ => true, who := who }] }

/-- The cost of a tile at its site (R301). -/
def Desc.siteCost (d : Desc) (v : Chan) (op : AccOp) (l : List Piece) (i : Nat) : Nat :=
  match op with
  | .add _ => 6
  | _ =>
    let part := l.any fun p => p.dpa % 64 != 0 || p.n % 64 != 0
    let last := (v.jobs.getLast?.map fun j => if d.srcEngine then j.src else j.dst).getD []
    let prev := (last.head?.map Piece.dpa).getD 0
    let first := (l.head?.map Piece.dpa).getD 0
    if op = .write && part then 6
    else if l.length = 1 && !last.isEmpty && prev + 4096 = first && siteBase i ≤ prev then 2
    else 4

/-- The engine command of one source piece (R248). -/
def State.cmdSrc (s : State) (c ch : Nat) (v : Chan) (d : Desc) (q : TileJob) (due : Nat) (e : Nat × Piece) : State :=
  let p := e.2
  let who := Asker.courier c ch q.id e.1 true
  match targetOf p.dpa with
  | .site i _ =>
    if d.cls = 1 then s.siteNow i { op := .read, dpa := p.dpa, n := p.n, key := p.key, launch := d.launch, who := who, back := siteEnd i }
    else
      let cost := if e.1 = 0 then d.siteCost v .read q.src i else 0
      s.updSite i fun x => { x with cmds := x.cmds ++ [{ who := who, op := .read, dpa := p.dpa, n := p.n, key := p.key, due := due, lead := d.lead, cost := cost }] }
  | .porterMem n =>
    s.meshRequest (edgeOf c d.port) (coreEnd n) { op := .read, dpa := p.dpa, n := p.n, launch := d.launch, who := who, back := edgeOf c d.port }
  | .remote _ _ =>
    s.remoteReq c p.dpa { opc := 0x01, cls := d.cls == 0, w := 0, off := 0, n := p.n, who := who, back := stewardEnd, mesh := false }
  | .hostWindow off => s.hostRead off p.n who
  | .hostelStore h =>
    if d.cls = 0 then s  -- read in the meeting
    else if s.hostelUp h then s.answer who 0 (s.bytes p.dpa p.n)
    else (s.busError cDECODE (srcCour c) d.launch p.dpa).answer who cDECODE []
  | _ => s

/-- The engine command of one destination piece of a scheduled unit. -/
def State.cmdDst (s : State) (c ch : Nat) (v : Chan) (d : Desc) (q : TileJob) (due : Nat) (e : Nat × Piece) : State :=
  let p := e.2
  match targetOf p.dpa with
  | .site i _ =>
    let op := if d.op = oADD then AccOp.add d.ty else .write
    let cost := if e.1 = 0 then d.siteCost v op q.dst i else 0
    s.updSite i fun x => { x with cmds := x.cmds ++ [{ who := .courier c ch q.id e.1 false, op := op, dpa := p.dpa, n := p.n, key := p.key, due := due, lead := d.lead, cost := cost }] }
  | _ => s

/-- The meetings of a scheduled unit wait at its ports. -/
def State.cmdMeets (s : State) (c ch : Nat) (v : Chan) (d : Desc) (q : TileJob) : State :=
  let rp := d.readPort c
  let wp := d.writePort c
  let s := if !d.srcSlice then s else (eachPiece q.src).foldl (fun s e =>
    s.xPush rp { port := rp.port, write := false, addr := e.2.dpa, n := e.2.n, whole := !edgePort rp.port,
                 due := some (d.outSlot v.startSlot v.shift (d.srcTile q.k + e.1)), who := .courier c ch q.id e.1 true }) s
  if !d.dstSlice then s else (eachPiece q.dst).foldl (fun s e =>
    s.xPush wp { port := wp.port, write := true, addr := e.2.dpa, n := e.2.n, whole := !edgePort wp.port && d.op != oREDUCE,
                 due := some (d.inSlot v.startSlot v.shift (q.k + e.1)),
                 red := if d.op = oREDUCE then some (d.redDesc, d.contrib) else none, who := .courier c ch q.id e.1 false }) s

/-- The read-back of a unit for the hash engine (R261). -/
def State.cmdReadBack (s : State) (c ch : Nat) (v : Chan) (d : Desc) (q : TileJob) : State :=
  if !(d.srcEngine && d.hash) then s
  else
    let id := s.couriers.nextJob
    let dpa := (q.dst.head?.map (·.dpa)).getD 0
    let s := { s with couriers := { s.couriers with nextJob := id + 1 } }
    let s := s.setChan c ch { s.chan c ch with reads := (s.chan c ch).reads ++ [(id, q.k, dpa / 4096 * 4096, false)] }
    if d.cls = 1 then s
    else
      let rp : XPort := ⟨courHalf c, courPort0 c⟩
      s.xPush rp { port := rp.port, write := false, addr := dpa / 4096 * 4096, n := 4096, whole := true,
                   due := some (d.outSlot v.startSlot v.shift q.k), who := .hashRead c ch id }

/-- A unit is commanded: its job, its meetings and its engine commands. -/
def State.cmdUnit (s : State) (c ch k : Nat) (d : Desc) (src dst : List Piece) : State :=
  let v := s.chan c ch
  let q : TileJob := { k := k, id := s.couriers.nextJob, src := src, dst := dst, srcLeft := src.length, dstLeft := dst.length }
  let s := { s with couriers := { s.couriers with nextJob := q.id + 1 } }
  let s := s.putChan c ch { v with jobs := v.jobs ++ [q], next := k + 1 }
  let due := d.firstSlot v.startSlot v.shift k
  let s := if d.cls = 0 then s.cmdMeets c ch v d q
    else if d.srcSlice then (eachPiece src).foldl (fun s e => s.bgRead d.bgClass e.2.dpa e.2.n (.courier c ch q.id e.1 true)) s
    else s
  let s := if d.srcEngine then (eachPiece src).foldl (fun s e => s.cmdSrc c ch v d q due e) s else s
  let s := if d.dstEngine && d.cls = 0 then (eachPiece dst).foldl (fun s e => s.cmdDst c ch v d q due e) s else s
  s.cmdReadBack c ch v d q

/-- A unit that ends before it moves: it stands in tile order with its cause, which its courier logs. -/
def State.cmdBad (s : State) (c ch k : Nat) (d : Desc) (cause : Nat) : State :=
  let v := s.chan c ch
  let dva := ((if d.hasDst then d.dstPieces k else d.srcPieces k).head?.map (·.dva)).getD 0
  let q : TileJob := { k := k, id := s.couriers.nextJob, src := [], dst := [], srcLeft := 0, dstLeft := 0, cause := cause }
  let s := (s.busError cause (srcCour c) d.launch dva)
  let s := { s with couriers := { s.couriers with nextJob := q.id + 1 } }
  s.putChan c ch { v with jobs := v.jobs ++ [q], next := k + 1 }

/-- The resume point (R252): the indices of the first element of the delivered side's tile. -/
def State.chanResumePoint (s : State) (c ch k : Nat) (d : Desc) : State :=
  let l := walkIndices d.counts (k * d.unitElems)
  let lo := (List.range 4).foldl (fun a i => a + l.getD i 0 % 65536 * 2 ^ (16 * i)) 0
  (s.setReg (CH.RESUME c ch) (BitVec.ofNat 64 lo)).setFld (CH.RESUME_HI c ch) CH.RESUME_HI_I4 (l.getD 4 0)

/-- The channel parks before unit `k` (R252). -/
def State.chanPark (s : State) (c ch k kind : Nat) (d : Desc) : State :=
  let s := (s.updChan c ch fun v => { v with parkKind := kind }).chanResumePoint c ch k d
  (s.bump (COUR.PARK_COUNT c) 1).inexactOf d.launch

/-! ### Discards (R260) -/

/-- One increment on its way. -/
def State.arrInc (s : State) (c ch : Nat) (d : Desc) : State :=
  let t := match d.arrMode with
    | 1 => some (ArrTarget.hostel (bitsOf d.arrIndex 8 6) (bitsOf d.arrIndex 5 0))
    | 2 => some (.word d.arrDva)
    | 3 => some (.courier (bitsOf d.arrIndex 10 6) (bitsOf d.arrIndex 5 0))
    | _ => none
  match t with
  | none => s
  | some t =>
    let k := chanKey c ch
    { s with couriers := { s.couriers with incs := tabSet [] s.couriers.incs k (tabGet [] s.couriers.incs k ++ [(d.launch, t)]) } }

/-- Tiles landed: the count, and their increments. -/
def State.chanLanded (s : State) (c ch n : Nat) (d : Desc) : State :=
  let s := s.updChan c ch fun v => { v with landed := v.landed + n }
  if d.arrPerDesc || (s.chan c ch).stopping then s else (List.range n).foldl (fun s _ => s.arrInc c ch d) s

/-- A unit of a DISCARD: its tile is cleared. -/
def State.discardUnit (s : State) (c ch k : Nat) (d : Desc) (dst : List Piece) : State :=
  let a := (dst.head?.map (·.dpa)).getD 0
  let (s, cause) := if s.reserveShut a 4096 then (s.reserveRefuse a, cUNREACHABLE) else s.discardTile (a / 4096)
  if cause ≠ 0 then s.cmdBad c ch k d cause else (s.updChan c ch fun v => { v with next := k + 1 }).chanLanded c ch 1 d

/-! ### The channel's work -/

/-- Whether a channel may command its next unit: it moves, is not parked or stopping, and a unit is left. -/
def State.chanMay (s : State) (c ch : Nat) : Option Desc :=
  let v := s.chan c ch
  match v.queue.head? with
  | none => none
  | some d =>
    if v.moving && v.parkKind = 0 && !v.stopping && !s.killing d.launch && d.op != oWATCH && decide (v.next < d.units) &&
      v.jobs.all (fun q => q.cause == 0) then some d else none

/-- Units are commanded: a scheduled one at LEAD slots before its first meeting, a background one when the one before it has
landed, a discard as soon as its page is translated. The fuel is the units that may be commanded at once. -/
def State.chanCommand (s : State) (c ch : Nat) : Nat → State
  | 0 => s
  | f + 1 =>
    match s.chanMay c ch with
    | none => s
    | some d =>
      let v := s.chan c ch
      let k := v.next
      let now := s.nowSlot (courHalf c)
      let due := d.firstSlot v.startSlot v.shift k
      let sched := d.cls = 0 && d.op ≠ oDISCARD
      if sched && now + d.lead < due then s
      else if !sched && d.op ≠ oDISCARD && !v.jobs.isEmpty then s
      else
        let s := s.chanLook c ch
        let v := s.chan c ch
        match s.placeUnit c v d k with
        | .fault => s.chanPark c ch k 1 d
        | .out => if sched then s.chanPark c ch k 2 d else s
        | .bad cause => s.cmdBad c ch k d cause
        | .ok src dst =>
          let s := if d.op = oDISCARD then s.discardUnit c ch k d dst else s.cmdUnit c ch k d src dst
          s.chanCommand c ch f

/-- The fuel of `chanCommand`: every unit that is left. -/
def State.chanUnits (s : State) (c ch : Nat) : Nat := match (s.chan c ch).queue.head? with
  | some d => d.units - (s.chan c ch).next
  | none => 0

/-- The destination side of one engine-side piece. -/
def State.sendDst (s : State) (c ch : Nat) (d : Desc) (q : TileJob) (data : List Byte) (e : Nat × Piece) : State :=
  let p := e.2
  let part := (data.drop p.off).take p.n
  let who := Asker.courier c ch q.id e.1 false
  let op := if d.op = oADD then AccOp.add d.ty else .write
  match targetOf p.dpa with
  | .site i _ =>
    if d.cls = 1 then s.siteNow i { op := op, dpa := p.dpa, n := p.n, key := p.key, data := part, launch := d.launch, who := who, back := siteEnd i }
    else
      let (s, ok) := s.sitePut i who part
      if ok then s else (s.siteLate i p.dpa).answer who cSITE_LATE []
  | .porterMem n =>
    s.meshRequest (edgeOf c d.port) (coreEnd n)
      { op := op, dpa := p.dpa, n := p.n, data := part, launch := d.launch, who := who, back := edgeOf c d.port }
  | .remote _ _ =>
    s.remoteReq c p.dpa { opc := if d.op = oADD then 0x03 else if d.op = oREDUCE then 0x04 else 0x02, cls := d.cls == 0, w := 0,
                          off := 0, n := p.n, ty := d.ty, code := if d.op = oCOPY && p.n = 4096 then q.code else none,
                          red := d.redDesc, contrib := d.contrib, beats := if d.op = oREDUCE then 0xFFFF else 0, data := part,
                          who := who, back := stewardEnd, mesh := false }
  | .hostelStore h =>
    if s.hostelUp h then
      -- Beats that the timetable delivers to a fenced hostel are dropped (R476).
      (if d.cls = 0 && s.flag (HOS.STATUS h) HOS.STATUS_FENCED then s else s.putBytes p.dpa part).answer who 0 [] else (s.busError cDECODE (srcCour c) d.launch p.dpa).answer who cDECODE []
  | .hostWindow off =>
    let (s, cause) := s.hostWrite off part false
    (if cause = 0 then s else s.busError cause (srcOf 13 0) d.launch p.dpa).answer who cause []
  | _ => s

/-- The dither seed and step of a descriptor: its launch's; a descriptor of no launch has none, and they are free. -/
def State.ditherArgs (s : State) (d : Desc) : State × Option (Nat × Nat) :=
  if !d.dither then (s, none)
  else match s.slotOf d.launch with
    | some k => (s, some ((s.launch k).seed.toNat, (s.launch k).step.toNat))
    | none =>
      let (i, s) := s.takeFree
      let (j, s) := s.takeFree
      (s, some ((Config.freeWord i).toNat, (Config.freeWord j).toNat))

/-- The source tiles of a unit, once they are there: its own, or the one that it shares. -/
def Chan.source (v : Chan) (d : Desc) (q : TileJob) : Option (List Byte) :=
  if q.k % d.perTile = 0 then (if q.srcLeft = 0 then some (q.got.flatMap (·.2)) else none)
  else match v.kept with
    | some (n, l) => if n = d.srcTile q.k then some l else none
    | none => none

/-- The part of its source tiles that a unit takes. -/
def Desc.cut (d : Desc) (k : Nat) (l : List Byte) : List Byte := (l.drop (k % d.perTile * d.srcBytes)).take d.srcBytes

/-- A unit whose source side is whole sends its destination side. -/
def State.jobSend (s : State) (c ch : Nat) (d : Desc) (q : TileJob) : State :=
  if q.cause ≠ 0 || !q.out.isEmpty || q.wrote then s
  else match (s.chan c ch).source d q with
  | none => s
  | some src =>
    let data := d.cut q.k src
    let (s, dith) := s.ditherArgs d
    let out := if d.op = oCONVERT then d.convert dith q.k data else data
    let s := s.updChan c ch fun v => { v with
      jobs := v.jobs.map (fun x => if x.id = q.id then { x with out := out, wrote := x.dst.isEmpty } else x),
      kept := if d.perTile = 1 then v.kept else some (d.srcTile q.k, src) }
    if d.dstEngine then (eachPiece q.dst).foldl (fun s e => s.sendDst c ch d q out e) s
    else if d.dstSlice && d.cls = 1 then
      (eachPiece q.dst).foldl (fun s e => s.bgWrite d.bgClass e.2.dpa ((out.drop e.2.off).take e.2.n) (.courier c ch q.id e.1 false)) s
    else s

/-- A channel's work at an event: units are commanded, and whole units send their destination side. -/
def State.chanRun (s : State) (c ch : Nat) : State :=
  let s := (s.chanCommand c ch (s.chanUnits c ch)).chanLook c ch
  match (s.chan c ch).queue.head? with
  | none => s
  | some d => (s.chan c ch).jobs.foldl (fun s q => s.jobSend c ch d q) s

/-! ### The end of a descriptor -/

/-- A descriptor has delivered everything: its last increment, and its end once the word at ARR_DVA is up to date. The
channel goes on with its next descriptor. -/
def State.chanFinish (s : State) (c ch : Nat) : State :=
  let v := s.chan c ch
  match v.queue.head? with
  | none => s
  | some d =>
    if v.moving && v.arrCause ≠ 0 then (s.busError v.arrCause (srcCour c) d.launch d.arrDva).chanError c ch (v.landed - 1) v.arrCause |>.chanFill c ch
    else if v.moving && v.jobs.isEmpty && v.stopping then (s.chanPop c ch).chanFill c ch
    else if v.moving && v.landed = d.tiles && v.jobs.isEmpty && v.reads.isEmpty && (!d.prov || v.record) then
      let s := if d.arrPerDesc && !v.perDone then (s.updChan c ch fun v => { v with perDone := true }).arrInc c ch d else s
      if d.arrMode = 2 && (v.arrOut || !(tabGet [] s.couriers.incs (chanKey c ch)).isEmpty) then s
      else (((s.chanPop c ch).updChan c ch fun v => { v with failed := false })).chanFill c ch
    else s

/-- A tile in error at the head of the tile order ends its descriptor (R254). -/
def State.chanErrors (s : State) (c ch : Nat) : State :=
  let v := s.chan c ch
  match v.queue.head?, v.jobs.head? with
  | some _, some q =>
    if q.cause = 0 then s
    else if v.stopping then (s.updChan c ch fun v => { v with jobs := v.jobs.drop 1 }).chanFinish c ch
    else (s.chanError c ch q.k q.cause).chanFill c ch
  | _, _ => s

/-! ### Starting (R242, R256-R261) -/

/-- Whether a channel's first descriptor may start: its leg has started, and its hash lanes are free. -/
def State.chanReady (s : State) (c ch : Nat) (d : Desc) : Option Nat :=
  let lanes := tabGet 0 s.couriers.lanes c
  if (d.hash || d.op == oHASH) && lanes ≠ 0 && lanes ≠ ch + 1 then none
  else match d.by_ with
    | .leg slot leg =>
      let r := s.run slot leg
      if r.phase = .running && !s.killing d.launch then some r.startSlot else none
    | _ => some 0

/-- The first descriptor of a channel starts, when it is of operation `op`. -/
def State.chanStart (s : State) (c ch op : Nat) : State :=
  let v := s.chan c ch
  match v.queue.head? with
  | none => s
  | some d =>
    if v.moving || d.op ≠ op then s
    else match s.chanReady c ch d with
      | none => s
      | some start =>
        let s := s.putChan c ch { v with moving := true, startSlot := start, next := 0, landed := 0, shift := 0 }
        let s := if d.hash || d.op == oHASH then
            (({ s with couriers := { s.couriers with lanes := tabSet 0 s.couriers.lanes c (ch + 1) } } : State).setFlag
              (CH.STATUS c ch) CH.STATUS_HASH_FAILED false)
          else s
        ((s.chanRun c ch).chanErrors c ch).chanFinish c ch

/-- COPY (R243). -/
def execCopy (c : BitVec 5) (ch : BitVec 4) (s : State) : Res := .next (s.chanStart c.toNat ch.toNat oCOPY)
/-- CONVERT (R256). -/
def execConvert (c : BitVec 5) (ch : BitVec 4) (s : State) : Res := .next (s.chanStart c.toNat ch.toNat oCONVERT)
/-- REDUCE (R258). -/
def execReduce (c : BitVec 5) (ch : BitVec 4) (s : State) : Res := .next (s.chanStart c.toNat ch.toNat oREDUCE)
/-- ADD (R257). -/
def execCourierAdd (c : BitVec 5) (ch : BitVec 4) (s : State) : Res := .next (s.chanStart c.toNat ch.toNat oADD)
/-- DISCARD (R260): the tiles whose pages are translated are cleared at once. -/
def execDiscard (c : BitVec 5) (ch : BitVec 4) (s : State) : Res := .next (s.chanStart c.toNat ch.toNat oDISCARD)
/-- HASH (R261). -/
def execHash (c : BitVec 5) (ch : BitVec 4) (s : State) : Res := .next (s.chanStart c.toNat ch.toNat oHASH)
/-- WATCH (R259). -/
def execWatch (c : BitVec 5) (ch : BitVec 4) (s : State) : Res := .next (s.chanStart c.toNat ch.toNat oWATCH)

/-! ### Resume (R253) -/

/-- TILE_RESUME: the parked channel goes on once its next unit's pages are answered, at the first slot at least LEAD away
that stands a whole number of periods after its own. -/
def execTileResume (c : BitVec 5) (ch : BitVec 4) (s : State) : Res :=
  let c := c.toNat
  let ch := ch.toNat
  let v := s.chan c ch
  match v.queue.head? with
  | none => .next s
  | some d =>
    if v.parkKind = 0 then .next s
    else
      let s := s.chanLook c ch
      let v := s.chan c ch
      let arrOk := v.arrOut || d.arrMode ≠ 2 || (match v.page d d.arrDva true with
        | some (.fault _ _) => false
        | _ => true)
      let go := match s.placeUnit c v d v.next with
        | .out => false
        | .fault => false
        | _ => true
      if !arrOk || !(go || decide (d.units ≤ v.next)) then .next s
      else
        let prev := d.firstSlot v.startSlot v.shift v.next
        let need := s.nowSlot (courHalf c) + d.lead
        let up := if d.cls = 0 && d.op ≠ oDISCARD && d.op ≠ oWATCH && v.next < d.units then (need - prev + 4095) / 4096 else 0
        let s := s.putChan c ch { v with parkKind := 0, shift := v.shift + up }
        .next (((s.chanRun c ch).chanErrors c ch).chanFinish c ch)

/-! ### Landing (R250) -/

/-- Hash the tiles of a unit that pass through the courier's own ports (R261). -/
def State.hashUnit (s : State) (d : Desc) (q : TileJob) : State :=
  if d.op = oHASH then s.hashLeaf d.launch d.hctx (d.leafBase + q.k) (q.got.flatMap (·.2))
  else if d.hash && !d.srcEngine then s.hashLeaf d.launch d.hctx (d.leafBase + q.k) q.out
  else s

/-- Whether a tile of a PROV descriptor holds record bytes: its increment waits for the record. -/
def State.holdsRecord (s : State) (d : Desc) (k : Nat) : Bool :=
  d.prov && (match s.slotOf d.launch with
    | some m => (match (s.launch m).streams.find? fun e => e.kind == 1 && e.ctx == d.hctx with
      | some e => decide (e.len - 48 < 4096 * (k + 1))
      | none => false)
    | none => false)

/-- The read-back of a landed tile of a background descriptor is made at once. -/
def State.readBackNow (s : State) (c ch : Nat) (d : Desc) (q : TileJob) : State :=
  if !(d.srcEngine && d.hash && d.cls = 1) then s
  else match (s.chan c ch).reads.find? fun r => r.2.1 == q.k with
    | none => s
    | some r =>
      let (s, cause, data) := s.bufRead r.2.2.1 4096 true
      let s := s.updChan c ch fun v => { v with reads := v.reads.filter fun x => x.1 != r.1 }
      if cause ≠ 0 then s.hashFail c ch d else s.hashLeaf d.launch d.hctx (d.leafBase + q.k) data

/-- TILE_LANDED (R250): the first unit in tile order lands, or ends the descriptor in a bus error. -/
def execTileLanded (c : BitVec 5) (ch : BitVec 4) (s : State) : Res :=
  let c := c.toNat
  let ch := ch.toNat
  let s := s.chanRun c ch
  let v := s.chan c ch
  match v.queue.head?, v.jobs.head? with
  | some d, some q =>
    if q.cause ≠ 0 then .next (s.chanErrors c ch)
    else if !q.wrote then .next s
    else
      let s := s.updChan c ch fun v => { v with jobs := v.jobs.drop 1 }
      let s := (s.hashUnit d q).readBackNow c ch d q
      let s := if s.holdsRecord d q.k then s.updChan c ch fun v => { v with landed := v.landed + 1 } else s.chanLanded c ch 1 d
      .next (((s.chanFinish c ch).chanRun c ch).chanErrors c ch)
  | _, _ => .next (s.chanFinish c ch)

/-! ### Increments (R250) -/

/-- The add at ARR_DVA: an access of the descriptor. -/
def State.arrAdd (s : State) (c ch : Nat) (d : Desc) (dva : Nat) (rest : List (BitVec 16 × ArrTarget)) : State :=
  let v := s.chan c ch
  let fail := fun (s : State) (cause : Nat) => s.answerArrival c ch cause
  match v.page d dva true with
  | none => s.chanLook c ch
  | some (.fault _ _) => if v.parkKind ≠ 0 then s else s.chanPark c ch v.next 1 d
  | some .abort => fail s cFAULT_ABORTED
  | some (.page t) =>
    let s := { s with couriers := { s.couriers with incs := tabSet [] s.couriers.incs (chanKey c ch) rest } }
    let s := s.putChan c ch { s.chan c ch with arrOut := true }
    let dpa := t.pa + (dva - t.va)
    let who := Asker.arrival c ch
    if !t.w then fail s cPERMISSION
    else match targetOf dpa with
      | .buffer => fail s cNO_ADDER
      | .site i _ => s.siteNow i { op := .add 2, dpa := dpa, n := 4, key := t.key, data := leBytes 4 1, launch := d.launch, who := who, back := siteEnd i }
      | .porterMem n =>
        let e := edgeEnd (32 * courHalf c)
        s.meshRequest e (coreEnd n) { op := .add 2, dpa := dpa, n := 4, data := leBytes 4 1, launch := d.launch, who := who, back := e }
      | .remote _ _ =>
        s.remoteReq c dpa { opc := 0x03, cls := d.cls == 0, w := 0, off := 0, n := 4, ty := 2, data := leBytes 4 1, who := who, back := stewardEnd, mesh := false }
      | .reserved => fail s cDECODE
      | _ => fail s cUNREACHABLE

/-- ARRIVAL_VISIBLE: the channel's oldest increment takes effect; a counter wraps modulo 2^32. -/
def execArrivalVisible (c : BitVec 5) (ch : BitVec 4) (s : State) : Res :=
  let c := c.toNat
  let ch := ch.toNat
  let k := chanKey c ch
  if (s.chan c ch).arrOut then .next s
  else match tabGet [] s.couriers.incs k with
    | [] => .next (s.chanFinish c ch)
    | (_, t) :: rest =>
      let popped : State := { s with couriers := { s.couriers with incs := tabSet [] s.couriers.incs k rest } }
      match t with
      | .hostel h i => .next (({ popped with hosCtrs := tabSet 0 s.hosCtrs (h * 64 + i) (tabGet 0 s.hosCtrs (h * 64 + i) + 1) } : State).chanFinish c ch)
      | .courier c' i =>
        let r := COUR.ARRIVE c' i
        .next ((popped.setFld r COUR.ARRIVE_VALUE (s.fld r COUR.ARRIVE_VALUE + 1)).chanFinish c ch)
      | .word dva =>
        match (s.chan c ch).queue.head? with
        | none => .next popped
        | some d => .next ((s.arrAdd c ch d dva rest).chanFinish c ch)

/-! ### Kills (R255) -/

/-- The descriptors of a channel that meet `p` stop: the running one moves nothing further than its commanded tiles, the
queued and parked ones are dropped, and their increments and faults withdrawn. -/
def State.chanStop (s : State) (c ch : Nat) (p : Desc → Bool) : State :=
  let v := s.chan c ch
  let isRun := match v.queue.head? with
    | some d => v.moving && p d
    | none => false
  let dropped := ((if v.moving then v.queue.drop 1 else v.queue) ++ v.waiting).filter p
  let keep := (if v.moving then v.queue.take 1 else []) ++ (if v.moving then v.queue.drop 1 else v.queue).filter fun d => !p d
  let gone := v.queue.filter p
  let mine := fun (w : TransFor) => match w with
    | .courier c' ch' d _ => c' == c && ch' == ch && gone.any fun x => x.id == d
    | _ => false
  let s := s.ctuWithdraw fun q => mine q.who
  let s := s.putChan c ch { v with queue := keep, waiting := v.waiting.filter fun d => !p d, stopping := v.stopping || isRun,
                                   parkKind := if isRun then 0 else v.parkKind }
  let k := chanKey c ch
  let ls := (gone ++ dropped).map Desc.launch
  let left := (tabGet [] s.couriers.incs k).filter fun e => !ls.contains e.1
  let s := { s with couriers := { s.couriers with incs := tabSet [] s.couriers.incs k left } }
  let s := if v.waiting.any (fun d => p d && (match d.by_ with | .leg _ _ => false | _ => true)) then s.setFlag (CH.CTRL c ch) CH.CTRL_PUSH false else s
  let s := dropped.foldl (fun s d => match d.by_ with
    | .leg slot leg => s.setRun slot leg fun r => { r with descsLeft := r.descsLeft - 1 }
    | _ => s) s
  (s.chanFinish c ch).chanFill c ch

/-- Every channel stops for a killed launch. -/
def State.couriersStop (s : State) (l : BitVec 16) : State :=
  (s.couriers.chans.map (·.1)).foldl (fun s k => s.chanStop (k / 16) (k % 16) fun d => d.launch == l) s

/-- CHANNEL_ABORT (R255): a write of CH_CTRL.ABORT stops the one channel. -/
def execChannelAbort (c : BitVec 5) (ch : BitVec 4) (s : State) : Res := .next (s.chanStop c.toNat ch.toNat fun _ => true)

/-! ### Provenance (R134, R135, R262) -/

/-- The preimage P of Table 4.4. -/
def State.preimage (s : State) (k h n : Nat) : List Byte :=
  let la := s.launch k
  let failed := (List.range 16).any fun i => (s.hashCtx k i).failed
  let flags := b2n failed + 2 * b2n (s.flag SBX.STATUS SBX.STATUS_DEBUGGED) + 4 * b2n la.tallyRange
  [3, 1] ++ leBytes 6 0 ++ leBytes 8 la.seed.toNat ++ leBytes 8 la.step.toNat ++
    leBytes 4 (s.fld (LNCH.CHIP k) LNCH.CHIP_COUNT) ++ leBytes 4 flags ++ digBytes la.dprog ++ digBytes la.dckpt ++
    digBytes la.dbatch ++ digBytes ((s.hashCtx k h).digest n)

/-- The DVA of byte `p` of a HASH walk. -/
def Desc.srcByte (d : Desc) (p : Nat) : Nat := walkAddr d.src d.srcSize d.srcStrides d.counts (p / 4096 * d.unitElems) + p % 4096

/-- The pages of the record: its first and last byte, looked up for writing. -/
def State.recordPages (s : State) (c ch : Nat) (d : Desc) (b : Nat) : List (Option Answer) × State :=
  ([b - 48, b - 1] : List Nat).foldl (fun (r : List (Option Answer) × State) p =>
    let dva := d.srcByte p
    let v := r.2.chan c ch
    match v.page d dva false with
    | some a => (r.1 ++ [some a], r.2)
    | none =>
      let k := aheadKey d.id dva false
      if v.asked.contains k then (r.1 ++ [none], r.2)
      else
        let q : Lookup := { ast := r.2.astOf d.launch, dva := dva / 4096 * 4096, write := true, who := .courier c ch d.id false, launch := d.launch }
        (r.1 ++ [none], (r.2.setChan c ch { v with asked := v.asked ++ [k] }).lookupSend c q)) ([], s)

/-- One word of the record, at its translated address. -/
def State.recordWord (s : State) (d : Desc) (pages : List Trans) (p : Nat) (data : List Byte) : State × Nat :=
  let dva := d.srcByte p
  match pages.find? fun t => decide (t.va ≤ dva) && decide (dva < t.va + 2 ^ t.log2) with
  | none => (s, cDECODE)
  | some t =>
    let a := t.pa + (dva - t.va)
    if s.reserveShut a data.length then (s.reserveRefuse a, cUNREACHABLE) else s.bufPut a data

/-- The six words of a record; the first cause stands. -/
def State.recordWrite (s : State) (d : Desc) (pages : List Trans) (b : Nat) (rec : List Byte) : State × Nat :=
  (List.range 6).foldl (fun (r : State × Nat) i =>
    let (s, c) := r.1.recordWord d pages (b - 48 + 8 * i) ((rec.drop (8 * i)).take 8)
    (s, if r.2 = 0 then c else r.2)) (s, 0)

/-- PROVENANCE_RECORD_WRITE (R262): once every leaf of D_out is in, h(P) is written into the block's record bytes and P
placed in the guestbook. -/
def execProvenanceRecordWrite (c : BitVec 5) (ch : BitVec 4) (s : State) : Res :=
  let c := c.toNat
  let ch := ch.toNat
  let v := s.chan c ch
  match v.queue.head? with
  | none => .next s
  | some d =>
    match s.slotOf d.launch with
    | none => .next s
    | some k =>
      match (s.launch k).streams.find? fun e => e.kind == 1 && e.ctx == d.hctx with
      | none => .next s
      | some e =>
        let b := e.len
        if !d.prov || !v.moving || v.record || v.stopping || v.landed ≠ d.units || !v.jobs.isEmpty then .next s
        else
          let (as, s) := s.recordPages c ch d b
          if as.any fun a => a == some .abort then .next ((s.chanError c ch (d.units - 1) cFAULT_ABORTED).chanFill c ch)
          else
            let pages := as.filterMap fun a => match a with
              | some (.page t) => some t
              | _ => none
            if pages.length < 2 then .next s
            else if pages.any fun t => !t.w then .next ((s.chanError c ch (d.units - 1) cPERMISSION).chanFill c ch)
            else
              let p := s.preimage k d.hctx (b - 48)
              let (s, cause) := s.recordWrite d pages b (sha384 p)
              if cause ≠ 0 then .next ((s.chanError c ch (d.units - 1) cause).chanFill c ch)
              else
                let dva := d.srcByte (b - 48)
                let dpa := (pages.head?.map fun t => t.pa + (dva - t.va)).getD 0
                let s := s.event kPROVENANCE 0 (srcOf 11 0) d.launch dpa p
                let s := s.setHashCtx k d.hctx {}
                let s := s.updChan c ch fun v => { v with record := true }
                let held := ((List.range d.units).filter fun i => decide (b - 48 < 4096 * (i + 1))).length
                let s := if d.arrPerDesc then s else (List.range held).foldl (fun s _ => s.arrInc c ch d) s
                .next (s.chanFinish c ch)

/-! ### Watches (R259) -/

/-- A slice has finished a reduction descriptor: every WATCH that observes it counts it once. -/
def State.watchCount (s : State) (sl red : Nat) : State :=
  (s.couriers.chans.map (·.1)).foldl (fun s k =>
    let c := k / 16
    let ch := k % 16
    let v := s.chan c ch
    match v.queue.head? with
    | some d =>
      if d.op = oWATCH && v.moving && !v.stopping && d.redDesc = red && d.watchFirst ≤ sl && sl ≤ d.watchLast && !v.counts.contains sl then
        ((s.updChan c ch fun v => { v with counts := v.counts ++ [sl] }).chanLanded c ch 1 d).chanFinish c ch
      else s
    | none => s) s

end Sys2Proof.Machine
end

