-- ==== Sys2Proof/Machine/Flit.lean ====
section
/-!
DEFINITION. Sys2Proof/Machine/Flit.lean: the CRC of R342 and R369, and the flits of an upper site (R368, Table 12.2).
-/

namespace Sys2Proof.Machine

/-- One bit of the CRC (R342). -/
def crc16Bit (c x : Nat) : Nat :=
  let d := c * 2 % 65536
  if (c / 32768 + x) % 2 = 1 then Nat.xor d 0x1021 else d

/-- The CRC over the `n` low bits of `w`, in ascending order. -/
def crc16 : Nat → Nat → Nat → Nat
  | 0, _, c => c
  | n + 1, w, c => crc16 n (w / 2) (crc16Bit c (w % 2))

/-! ### Upper-site flits -/

/-- The header fields of Table 12.2. -/
structure UpHdr where
  pkind : Nat := 0
  ptag : Nat := 0
  pbeat : Nat := 0
  pstatus : Nat := 0
  ckind : Nat := 0
  ctag : Nat := 0
  ctile : Nat := 0
  cstatus : Nat := 0
  codeValid : Bool := false
  code : Nat := 0
  slot : Nat := 0
  reserved : Nat := 0
  deriving DecidableEq, Repr

/-- Header bits 0 to 111. -/
def UpHdr.bits (h : UpHdr) : Nat :=
  h.pkind % 4 + 2 ^ 2 * (h.ptag % 64) + 2 ^ 8 * (h.pbeat % 16) + 2 ^ 12 * (h.pstatus % 256) + 2 ^ 20 * (h.ckind % 4) +
    2 ^ 22 * (h.ctag % 64) + 2 ^ 28 * (h.ctile % 2 ^ 18) + 2 ^ 46 * (h.cstatus % 256) + 2 ^ 54 * b2n h.codeValid +
    2 ^ 55 * (h.code % 2 ^ 32) + 2 ^ 87 * (h.slot % 4096) + 2 ^ 99 * (h.reserved % 2 ^ 13)

/-- The CRC of a flit: over the payload, then header bits 0 to 111 (R369). -/
def upCrc (payload hdr : Nat) : Nat := crc16 112 hdr (crc16 2048 payload 0xFFFF)

/-- A flit of a header and 256 B of payload. -/
def upFlit (h : UpHdr) (data : List Byte) : BitVec 2176 :=
  let p := leVal (padTo 256 data)
  BitVec.ofNat 2176 (h.bits + 2 ^ 112 * upCrc p h.bits + 2 ^ 128 * p)

/-- The header of a received flit. -/
def upHdrOf (f : Nat) : UpHdr :=
  { pkind := bitsOf f 1 0, ptag := bitsOf f 7 2, pbeat := bitsOf f 11 8, pstatus := bitsOf f 19 12, ckind := bitsOf f 21 20,
    ctag := bitsOf f 27 22, ctile := bitsOf f 45 28, cstatus := bitsOf f 53 46, codeValid := bitOf f 54, code := bitsOf f 86 55,
    slot := bitsOf f 98 87, reserved := bitsOf f 111 99 }

/-- Whether a received flit's CRC is right. -/
def upCrcOk (f : Nat) : Bool := bitsOf f 127 112 == upCrc (f / 2 ^ 128) (f % 2 ^ 112)
def upPayload (f : Nat) : List Byte := leBytes 256 (f / 2 ^ 128)

def State.upper (s : State) (u : Nat) : Upper := tabGet {} s.uppers u
def State.setUpper (s : State) (u : Nat) (v : Upper) : State := { s with uppers := tabSet {} s.uppers u v }
def State.updUpper (s : State) (u : Nat) (f : Upper → Upper) : State := s.setUpper u (f (s.upper u))

/-- A port of an upper site is in service: active, and its site not fenced (R379, R384). -/
def State.upLive (s : State) (u p : Nat) : Bool :=
  bitOf (s.fld (UP.PORTS u) UP.PORTS_ACTIVE) p && !s.flag (UP.CTRL u) UP.CTRL_FENCE && !s.flag (UP.STATUS u) UP.STATUS_FENCED

/-- The site and port of an engine port below 40 of a half. -/
def upOf (e p : Nat) : Nat × Nat := (2 * e + p / 20, p % 20)

/-- Whether a transfer is a command of a site. -/
def ofSite (u : Nat) (o : XOp) : Bool := match o.who with
  | .upper v _ _ _ => v == u
  | _ => false

/-- DRAINED: no command of the site is outstanding (R384). -/
def State.upCount (s : State) (u : Nat) : State :=
  s.setFlag (UP.STATUS u) UP.STATUS_DRAINED (!(List.range 20).any fun p => (s.xops (upX u p)).any (ofSite u))

/-- A flit leaves for the die, with the slot counter of the site's half. -/
def State.upSend (s : State) (u p : Nat) (h : UpHdr) (data : List Byte) : State :=
  let h := { h with slot := s.fld (XR.TT_SLOT (u / 2)) XR.TT_SLOT_SLOT }
  s.updUpper u fun v => { v with sent := v.sent ++ [(p, upFlit h data)] }

/-- A read beat enters the port's buffer toward its group, unless 8 beats fill it (R375). Whether it was taken. -/
def State.upBuffer (s : State) (u p : Nat) : State × Bool :=
  let l := tabGet 0 (s.upper u).level p
  if 1024 < l + 128 then (s, false) else (s.updUpper u fun v => { v with level := tabSet 0 v.level p (l + 128) }, true)

/-- In one slot a port's group takes 125 of 128 of a beat. -/
def State.upDrain (s : State) (u : Nat) : State :=
  s.updUpper u fun v => { v with level := tabMap 0 (fun _ l => l - 125) v.level }

/-- The error log of an upper site (R390): the first fault's fields, or OVERFLOW while VALID is 1. -/
def State.upLog (s : State) (u p : Nat) (write : Bool) (tag cause : Nat) : State :=
  let r := UP.ERR_LOG u
  if s.flag r UP.ERR_LOG_VALID then s.setFlag r UP.ERR_LOG_OVERFLOW true
  else ((((s.setFld r UP.ERR_LOG_PORT p).setFlag r UP.ERR_LOG_DIR write).setFld r UP.ERR_LOG_TAG tag).setFld
    r UP.ERR_LOG_CAUSE cause).setFlag r UP.ERR_LOG_VALID true

/-- The answer to a command that ends in a cause: to a WRITE an ACK, to a READ its final status (R378). -/
def State.upRefuse (s : State) (u p tag : Nat) (write : Bool) (cause : Nat) : State :=
  if write then s.upSend u p { ckind := 3, ctag := tag, cstatus := cause } []
  else s.upSend u p { pkind := 2, ptag := tag, pbeat := 15, pstatus := cause } []

/-- A command ends in a cause (R378): a READ with PKIND 2, a WRITE with an ACK. `addr` is the DPA of its tile; `own`: the
site, and no slice, found the fault, and logs it in the guestbook. -/
def State.upEnd (s : State) (u p tag : Nat) (write : Bool) (cause addr : Nat) (own : Bool) : State :=
  let s := s.upLog u p write tag cause
  let s := if own then s.busError cause (srcOf 10 u) 0 addr else s
  s.upRefuse u p tag write cause

end Sys2Proof.Machine
end

