-- ==== Sys2Proof/Machine/Reduce.lean ====
section
/-!
DEFINITION. Sys2Proof/Machine/Reduce.lean: the reduction unit of a slice (R83-R92).
-/

namespace Sys2Proof.Machine

/-! ### Descriptors (Table 3.6) -/

def redTile (w : W64) : Nat := bitsOf w.toNat 10 0
def redMask (w : W64) : Nat := bitsOf w.toNat 26 11
def redCount (w : W64) : Nat := bitsOf w.toNat 32 27 + 1
def redOp (w : W64) : Nat := bitsOf w.toNat 36 33
def redLaunch (w : W64) : BitVec 16 := BitVec.ofNat 16 (bitsOf w.toNat 52 37)
def redValid (w : W64) : Bool := bitOf w.toNat 63

/-- Table entries of an accumulator (Table 3.7). -/
def redEntries (w : W64) : Nat := if redOp w = 1 then 2 else 1

/-- A descriptor of a slice in the active bank. -/
def State.redDesc (s : State) (sl i : Nat) : W64 :=
  let e := sl / 48
  tabGet 0 (s.half e).red (redKey (s.activeBank e) sl i)

/-! ### Combining (Table 3.7) -/

/-- Element size of an accumulator and its addition. -/
def redSize (op : Nat) : Nat := if op = 3 then 8 else if op = 4 then 16 else 4
def redAdd (op a b : Nat) : Nat :=
  match op with
  | 2 => (a + b) % 2 ^ 32
  | 3 => (a + b) % 2 ^ 64
  | 4 => tallyAdd a b
  | _ => (fadd fp32 a b).1

/-- Elements of `z` bytes. -/
def redElems (z : Nat) : Nat → List Byte → List Nat
  | 0, _ => []
  | n + 1, l => leVal (l.take z) :: redElems z n (l.drop z)

/-- A contribution in the accumulator's form: BF16 converted exactly to FP32. -/
def redWiden (op : Nat) (l : List Byte) : List Byte :=
  if op = 1 then (redElems 2 128 l).flatMap fun v => leBytes 4 (65536 * v) else l

/-- acc := combine(acc, c). -/
def redCombine (op : Nat) (acc c : List Byte) : List Byte :=
  let z := redSize op
  (List.zipWith (redAdd op) (redElems z (acc.length / z) acc) (redElems z (acc.length / z) (redWiden op c))).flatMap (leBytes z)

/-- The result beat: FP32 rounded to nearest even into BF16 for operation 1. -/
def redResult (op : Nat) (acc : List Byte) : List Byte :=
  if op = 1 then (redElems 4 128 acc).flatMap fun v => leBytes 2 (fconvert bf16 fp32 Rnd.rne v).1 else acc

/-! ### The table (R86, R90) -/

/-- Entries that an open beat uses. -/
def RedBeat.used (b : RedBeat) : Nat := (if b.e = 0 || b.failed then 0 else redEntries b.desc) + b.held.length
def Slice.redUsed (v : Slice) : Nat := (v.red.map RedBeat.used).foldl (· + ·) 0

/-- The held contribution that a beat may combine next. -/
def RedBeat.ready (b : RedBeat) : Option RedHeld := if b.e = 0 || b.failed then none else b.held.find? fun h => h.idx == b.e

/-- The beat whose eligible contribution arrived earliest. -/
def redPick : List RedBeat → Option (RedBeat × RedHeld)
  | [] => none
  | b :: t =>
    match b.ready, redPick t with
    | some h, some (c, g) => if h.order < g.order then some (b, h) else some (c, g)
    | some h, none => some (b, h)
    | none, r => r

/-- Contribution `h` is combined; with the last, the beat is done (R87). -/
def RedBeat.combine (b : RedBeat) (h : RedHeld) (order : Nat) : RedBeat :=
  let done := b.e + 1 == redCount b.desc
  { b with acc := redCombine (redOp b.desc) b.acc h.data, e := b.e + 1, held := b.held.filter fun x => x.idx != h.idx,
           poison := b.poison || h.bad, done := done, doneOrder := if done then order else b.doneOrder }

def State.updSlice (s : State) (sl : Nat) (f : Slice → Slice) : State := s.setSlice sl (f (s.slice sl))

/-- HIGH_WATER follows the entries in use. -/
def State.redWater (s : State) (sl : Nat) : State :=
  let r := XR.RED_STATUS (sl / 48)
  let n := (s.slice sl).redUsed
  if s.fld r XR.RED_STATUS_HIGH_WATER < n then s.setFld r XR.RED_STATUS_HIGH_WATER n else s

/-- An open beat changes. -/
def State.putBeat (s : State) (sl : Nat) (b : RedBeat) : State :=
  s.updSlice sl fun v => { v with red := v.red.map fun x => if x.idx = b.idx && x.beat = b.beat then b else x, redOrder := v.redOrder + 1 }

/-- A beat has finished: once every beat of its descriptor has, a WATCH counts the slice (R259). -/
def State.beatFinished (s : State) (sl : Nat) (b : RedBeat) : State :=
  let v := s.slice sl
  let done := if v.redDone.contains (b.idx, b.beat) then v.redDone else (b.idx, b.beat) :: v.redDone
  let all := (ones 16 (redMask b.desc)).all fun k => done.contains (b.idx, k)
  let s := s.setSlice sl { v with red := v.red.filter fun x => !(x.idx == b.idx && x.beat == b.beat),
                                  redDone := if all then done.filter fun e => e.1 != b.idx else done }
  if all then s.watchCount sl b.idx else s

/-- REDUCE_FULL (R89): the beat's entries are freed and its tile poisoned. -/
def State.redFull (s : State) (sl : Nat) (b : RedBeat) : State :=
  let r := XR.RED_STATUS (sl / 48)
  let s := if s.flag r XR.RED_STATUS_OVERFLOW then s else (s.setFlag r XR.RED_STATUS_OVERFLOW true).setFld r XR.RED_STATUS_OVERFLOW_SLICE sl
  let s := s.poisonTile (tileAt sl (redTile b.desc))
  let b := { b with failed := true, held := [], acc := [], arrived := b.arrived + 1 }
  if b.arrived = redCount b.desc then s.beatFinished sl b else s.putBeat sl b

/-- Contribution `i` of a beat that is open, or opens. -/
def State.redTake (s : State) (sl : Nat) (b : RedBeat) (i : Nat) (data : List Byte) (bad : Bool) : State × Nat :=
  let v := s.slice sl
  if b.failed then
    let c := { b with arrived := b.arrived + 1 }
    (if c.arrived = redCount b.desc then s.beatFinished sl c else s.putBeat sl c, cREDUCE_FULL)
  else if b.recv.getLsbD i then (s.putBeat sl { b with poison := true }, cREDUCE_ORDER)
  else
    let c := { b with recv := b.recv ||| BitVec.ofNat 64 (2 ^ i), arrived := b.arrived + 1 }
    let h : RedHeld := { idx := i, data := data, bad := bad, order := v.redOrder }
    if i = 0 then
      if 256 < v.redUsed + redEntries b.desc then (s.redFull sl b, cREDUCE_FULL)
      else
        let done := redCount b.desc == 1
        ((s.putBeat sl { c with acc := redWiden (redOp b.desc) data, e := 1, poison := c.poison || bad, done := done,
                                doneOrder := if done then v.redOrder else 0 }).redWater sl, 0)
    else if i = b.e && (redPick v.red).isNone then (s.putBeat sl (c.combine h v.redOrder), 0)
    else if 256 < v.redUsed + 1 then (s.redFull sl b, cREDUCE_FULL)
    else ((s.putBeat sl { c with held := c.held ++ [h] }).redWater sl, 0)

/-- A contribution: beat of a tile, descriptor and contributor (R84, R89). The state and the cause (0: taken). -/
def State.contribute (s : State) (a idx i : Nat) (data : List Byte) (bad : Bool) : State × Nat :=
  let t := a / 4096
  let (sl, q) := sliceOf t
  let k := a % 4096 / 256
  let fail := fun (s : State) => (s.busError cREDUCE_DESC (srcOf 1 sl) 0 a, cREDUCE_DESC)
  if s.tileGone t then (s.retiredAccess a, cRETIRED)
  else
    let v := s.slice sl
    let d := match v.red.find? fun b => b.idx == idx && b.beat == k with
      | some b => b.desc
      | none => s.redDesc sl idx
    if !redValid d || 4 < redOp d || !bitOf (redMask d) k || redCount d ≤ i || redTile d ≠ q then fail s
    else if v.redClosed.contains (idx, k, (redLaunch d).toNat) then fail s
    else
      let (s, b) := match v.red.find? fun b => b.idx == idx && b.beat == k with
        | some b => (s, b)
        | none =>
          let b : RedBeat := { idx := idx, desc := d, beat := k, e := 0, acc := [], held := [], recv := 0, arrived := 0,
                               poison := false, failed := false, done := false, doneOrder := 0 }
          (s.setSlice sl { v with red := v.red ++ [b] }, b)
      let (s, c) := s.redTake sl b i data bad
      (if c = 0 then s else s.busError c (srcOf 1 sl) (redLaunch d) a, c)

/-! ### Results (R87, R88) -/

/-- The result that waits longest: the earliest final combine. -/
def redFirst : List RedBeat → Option RedBeat
  | [] => none
  | b :: t =>
    match redFirst t with
    | some c => if b.done && b.doneOrder < c.doneOrder then some b else some c
    | none => if b.done then some b else none

/-- A COMPLETION slot writes one result beat. -/
def State.redWrite (s : State) (sl : Nat) : State :=
  match redFirst (s.slice sl).red with
  | none => s
  | some b =>
    let t := tileAt sl (redTile b.desc)
    let (s, _) := s.bufWrite (4096 * t + 256 * b.beat) (redResult (redOp b.desc) b.acc) (List.replicate 256 true) false
    let s := if b.poison then s.poisonTile t else s
    s.beatFinished sl b

/-! ### Commands -/

/-- REDUCE_COMBINE (R86): the eligible contribution that arrived earliest is combined. -/
def execReduceCombine (sl : BitVec 7) (s : State) : Res :=
  match redPick (s.slice sl.toNat).red with
  | none => .next s
  | some (b, h) => .next (s.putBeat sl.toNat (b.combine h (s.slice sl.toNat).redOrder))

/-- The lowest of beats by descriptor and beat. -/
def beatLowest : List RedBeat → Option RedBeat
  | [] => none
  | b :: t => match beatLowest t with
    | some c => if b.idx < c.idx || (b.idx = c.idx && b.beat < c.beat) then some b else some c
    | none => some b

/-- A slice closes the open beats of a launch (R92): nothing is written, and a tile that a contribution had reached is
poisoned. -/
def State.redClose (s : State) (sl : Nat) (l : BitVec 16) : State :=
  let v := s.slice sl
  let mine := v.red.filter fun b => redLaunch b.desc == l
  match beatLowest mine with
  | none => s
  | some f =>
    let s := mine.foldl (fun s b => if b.arrived ≠ 0 then s.poisonTile (tileAt sl (redTile b.desc)) else s) s
    let s := s.updSlice sl fun v => { v with
      red := v.red.filter fun b => redLaunch b.desc != l,
      redClosed := v.redClosed ++ mine.map fun b => (b.idx, b.beat, l.toNat),
      redDone := v.redDone.filter fun e => !(mine.any fun b => b.idx == e.1) }
    let e : GbEntry := { stamp := s.etc, kind := kREDUCE_CLOSE, cause := 0, source := srcOf 1 sl, launch := l, count := mine.length,
                         detail := 4096 * tileAt sl (redTile f.desc) + 256 * f.beat,
                         payload := leBytes 4 (((mine.filter fun b => b.arrived != 0).map fun b => redTile b.desc).eraseDups.length) }
    { s with guestbook := { s.guestbook with waiting := s.guestbook.waiting ++ [e] } }

/-- REDUCE_CLOSE (R92): the steward's notice reaches a slice, once the launch has left RUNNING. -/
def execReduceClose (sl : BitVec 7) (launch : BitVec 16) (s : State) : Res :=
  match s.slotOf launch with
  | some k => if s.slotState k = 2 && !(s.launch k).killing then .next s else .next (s.redClose sl.toNat launch)
  | none => .next (s.redClose sl.toNat launch)

end Sys2Proof.Machine
end

