-- ==== Sys2Proof/Machine/Timetable.lean ====
section
/-!
DEFINITION. Sys2Proof/Machine/Timetable.lean: timetable entries (R67, R68), the check of a staging bank (R72, R506), its
arming and the switch of banks (R71, R73, R74).
-/

namespace Sys2Proof.Machine

/-! ### Entries (Table 3.2) -/

structure TtEntry where
  port : Nat
  mcast : Bool
  completion : Bool
  reduce : Bool
  upper : Bool
  deriving DecidableEq, Repr

def ttEntryOf (w : Nat) : Option TtEntry :=
  if bitOf w 8 then some { port := w % 256, mcast := bitOf w 9, completion := bitOf w 10, reduce := bitOf w 11, upper := bitOf w 12 } else none

/-- The valid entry of a bank at a slot, column and direction. -/
def State.bankEntry (s : State) (e bank slot col d : Nat) : Option TtEntry :=
  ttEntryOf (tabGet 0 (s.half e).bank (ttKey bank (slot % 4096) col d)).toNat

/-- The ports of a group of a bank. -/
def State.groupPorts (s : State) (e bank g : Nat) : List Nat := ones 256 (tabGet 0 (s.half e).groups (grpKey bank g)).toNat

/-- The ports that an entry names. -/
def State.entryPorts (s : State) (e bank : Nat) (t : TtEntry) : List Nat :=
  if t.mcast then s.groupPorts e bank t.port else [t.port]

/-- A slot of a column that R68 reserves. -/
def reservedSlot (slot col : Nat) : Bool := slot % 64 == col % 64

/-- Whether a milestone of a launch has released in the current step. -/
def State.mileReleased (s : State) (k id : Nat) : Bool :=
  match listFind (fun m => m.id == id) (s.launch k).miles with
  | some i => ((s.launch k).mileRuns.getD i {}).released
  | none => false

/-- Whether a leg uses the scheduled class. -/
def LegEntry.scheduled (l : LegEntry) : Bool := l.timetable != 0xFF

/-- Whether a leg of any launch runs under the active timetable. -/
def State.oldLegs (s : State) : Bool :=
  (List.range 16).any fun k => s.slotState k == 2 && (((s.launch k).legs.zip (s.launch k).runs).any fun x =>
    x.1.scheduled && (x.2.phase == .admitted || x.2.phase == .running))

/-- Whether the dispatcher lets the banks switch (R71, R439): the last waited milestone of the leg of the staged image has
released and every leg of the old timetable has ended. An image staged for a launch that has ended, or staged without the
dispatcher, waits for no milestone. -/
def State.switchReady (s : State) : Bool :=
  !s.oldLegs && (match s.disp.staged with
    | none => true
    | some (l, _, k, leg) =>
      s.slotState k != 2 || (s.launchId k).toNat != l || (s.launch k).killing ||
        (match (s.launch k).legs[leg]? with
         | some e => e.waits.all (s.mileReleased k)
         | none => true))

/-- The bank in force at a slot, counted since RUN was first set: a switch that waits takes effect with the next period. -/
def State.bankAt (s : State) (e t : Nat) : Nat :=
  if s.nowSlot e / 4096 < t / 4096 && s.flag (XR.TT_STATUS e) XR.TT_STATUS_SWITCH_PENDING && s.switchReady
  then s.stagingBank e else s.activeBank e

/-- The entry in force at a slot. -/
def State.entryAt (s : State) (e t col d : Nat) : Option TtEntry :=
  if reservedSlot t col then none else s.bankEntry e (s.bankAt e t) (t % 4096) col d

def State.portsAt (s : State) (e t : Nat) (x : TtEntry) : List Nat := s.entryPorts e (s.bankAt e t) x

/-! ### The check (Table 3.3) -/

/-- A field of the floor-plan record. -/
def State.floorWord (s : State) (off n : Nat) : Nat := leVal (tabRange 0 s.boot.record off n)

/-- Whether a port of a half is absent (R506), or does not exist. -/
def State.portAbsent (s : State) (e p : Nat) : Bool :=
  if p < 40 then
    let (u, k) := upOf e p
    let w := s.floorWord (0x300 + 8 * u) 8
    !bitOf w 20 || !bitOf w k
  else if p < 56 then !bitOf (s.floorWord 0x20 8) (52 + 4 * e + (p - 40) / 4)
  else if p < 88 then !bitOf (s.floorWord 0x28 4) (16 * e + (p - 56) / 2)
  else if p < 120 then false
  else if p < 168 then !bitOf (s.floorWord 0x20 8) (8 * e + (p - 120) / 6)
  else if p < 176 then !bitOf (s.floorWord 0x20 8) (16 + 8 * e + (p - 168))
  else if p < 184 then !bitOf (s.floorWord 0x20 8) (32 + 8 * e + (p - 176))
  else if p < 216 then !bitOf (s.floorWord 0x2C 8) (p - 184) || !bitOf (s.floorWord 0x2C 8) (32 + (p - 184))
  else true

/-- Whether a column's own unit is absent: a slice, or a seam channel. -/
def State.colAbsent (s : State) (e col : Nat) : Bool :=
  if col < 48 then !bitOf (s.floorWord 0x10 16) (48 * e + col) else s.portAbsent e (184 + (col - 48))

/-- The valid entries of one slot of a bank: column, direction, entry. -/
def State.slotEntries (s : State) (e bank slot : Nat) : List (Nat × Nat × TtEntry) :=
  let lo := ttKey bank slot 0 0
  (s.half e).bank.filterMap fun x =>
    if lo ≤ x.1 && x.1 < lo + 160 then (ttEntryOf x.2.toNat).map fun t => ((x.1 - lo) / 2, (x.1 - lo) % 2, t) else none

/-- Ports that receive a beat from an entry: read entries alone. -/
def State.receives (s : State) (e bank : Nat) (x : Nat × Nat × TtEntry) : List Nat := if x.2.1 = 0 then s.entryPorts e bank x.2.2 else []

/-- Seam channels on which an entry places a beat, and from which it takes one. -/
def State.placesOn (s : State) (e bank : Nat) (x : Nat × Nat × TtEntry) : List Nat :=
  let (col, d, t) := x
  if col < 48 then (if d = 0 then ((s.entryPorts e bank t).filter seamPort).map (· - 184) else [])
  else if d = 1 then [col - 48] else []
def takesFrom (x : Nat × Nat × TtEntry) : List Nat :=
  let (col, d, t) := x
  if col < 48 then (if d = 1 && !t.completion && seamPort t.port then [t.port - 184] else [])
  else if d = 0 then [col - 48] else []

/-- The rule codes that an entry of the staging bank breaks, ascending. -/
def State.entryBreaks (s : State) (e slot : Nat) (x : Nat × Nat × TtEntry) : List Nat :=
  let bank := s.stagingBank e
  let (col, d, t) := x
  let same := s.slotEntries e bank slot
  let others := same.filter fun y => !(y.1 == col && y.2.1 == d)
  let ports := if t.completion then [] else s.entryPorts e bank t
  let mine := (s.receives e bank x).filter fun p => !seamPort p
  let r1 := reservedSlot slot col
  let r2 := others.any fun y => (s.receives e bank y).any mine.contains
  let r3 := others.any (fun y => (s.placesOn e bank y).any (s.placesOn e bank x).contains) ||
    others.any fun y => (takesFrom y).any (takesFrom x).contains
  let far := s.slotEntries (1 - e) (s.stagingBank (1 - e)) ((slot + 8) % 4096)
  let back := s.slotEntries (1 - e) (s.stagingBank (1 - e)) ((slot + 4088) % 4096)
  let r4 := (s.placesOn e bank x).any (fun k => !far.any fun y => (takesFrom y).contains k) ||
    (takesFrom x).any fun k => !back.any fun y => (s.placesOn (1 - e) (s.stagingBank (1 - e)) y).contains k
  let r5 := s.colAbsent e col || (ports.filter fun p => !t.mcast || decide (p < 216)).any (s.portAbsent e)
  let r6 := (t.mcast && d == 1) || ((t.completion || t.reduce) && d == 0) || (decide (48 ≤ col) && ports.any seamPort) ||
    (t.mcast && d == 0 && (ports.isEmpty || ports.any fun p => decide (216 ≤ p)))
  let r7 := decide (col < 48) && t.reduce && d == 1 &&
    !(s.half e).bank.any fun y => decide (2 ^ 20 * bank ≤ y.1) && decide (y.1 < 2 ^ 20 * bank + 655360) &&
      ((y.1 - 2 ^ 20 * bank) / 2 % 80 == col) && y.1 % 2 == 1 && ((ttEntryOf y.2.toNat).map (·.completion) == some true)
  let r8 := t.upper && ports.any fun p => !edgePort p
  ([(1, r1), (2, r2), (3, r3), (4, r4), (5, r5), (6, r6), (7, r7), (8, r8)].filter (·.2)).map (·.1)

/-- The first breach of the staging bank of a half (R72): the entries stand in the order of slot, column and direction. -/
def State.firstBreach (s : State) (e : Nat) : Option Breach :=
  let bank := s.stagingBank e
  let lo := 2 ^ 20 * bank
  (s.half e).bank.findSome? fun y =>
    if lo ≤ y.1 && y.1 < lo + 655360 then
      let k := y.1 - lo
      (ttEntryOf y.2.toNat).bind fun t =>
        ((s.entryBreaks e (k / 160) (k / 2 % 80, k % 2, t)).head?).map fun r => { slot := k / 160, col := k / 2 % 80, wr := k % 2 == 1, rule := r }
    else none

/-! ### Arming and the check -/

def halfOf (east : Bool) : Nat := b2n east

/-- The check of a half starts, unless one is under way. -/
def State.armHalf (s : State) (e : Nat) : State :=
  if s.flag (XR.TT_CTRL e) XR.TT_CTRL_ARM then s
  else (s.setFlag (XR.TT_CTRL e) XR.TT_CTRL_ARM true).setFlag (XR.TT_STATUS e) XR.TT_STATUS_CHECK_BUSY true

/-- ARM (R71). -/
def execArm (east : Bool) (s : State) : Res := .next (s.armHalf (halfOf east))

/-- A check fails: its first breach is recorded and ARM clears (R72). -/
def State.checkFails (s : State) (e : Nat) (b : Breach) : State :=
  let r := XR.CHECK_LOG e
  let s := (s.setFlag (XR.TT_STATUS e) XR.TT_STATUS_CHECK_FAIL true).setFlag (XR.TT_CTRL e) XR.TT_CTRL_ARM false
  ((((s.setFld r XR.CHECK_LOG_SLOT b.slot).setFld r XR.CHECK_LOG_COLUMN b.col).setFlag r XR.CHECK_LOG_DIRECTION b.wr).setFld
    r XR.CHECK_LOG_RULE b.rule).setFlag r XR.CHECK_LOG_VALID true

/-! ### The switch (R71, R74) -/

/-- One half takes its staging bank. -/
def State.switchHalf (s : State) (e : Nat) : State :=
  let s := s.setFld (XR.TT_CTRL e) XR.TT_CTRL_ACTIVE_BANK (s.stagingBank e)
  (s.setFlag (XR.TT_CTRL e) XR.TT_CTRL_ARM false).setFlag (XR.TT_STATUS e) XR.TT_STATUS_SWITCH_PENDING false

/-- The mesh multicast bytes of a staged image take effect with the switch. -/
def State.loadMcast (s : State) : State :=
  match s.mesh.pendingMcast with
  | none => s
  | some l => { s with mesh := { s.mesh with mcast := tabWrite 0 s.mesh.mcast 0 l, pendingMcast := none } }

def State.switchable (s : State) (e : Nat) : Bool :=
  s.flag (XR.TT_STATUS e) XR.TT_STATUS_SWITCH_PENDING &&
    (!s.flag (XR.TT_CTRL 0) XR.TT_CTRL_RUN || s.fld (XR.TT_SLOT e) XR.TT_SLOT_SLOT == 0)

/-! ### RUN (R73, R74) -/

def State.running (s : State) : Bool := s.flag (XR.TT_CTRL 0) XR.TT_CTRL_RUN

def State.putRun (s : State) (b : Bool) : State := (s.setFlag (XR.TT_CTRL 0) XR.TT_CTRL_RUN b).setFlag (XR.TT_CTRL 1) XR.TT_CTRL_RUN b

/-- RUN becomes 1 in both halves: both counters start from slot 0, and each site aligns its refresh period. -/
def State.startRun (s : State) : State :=
  if s.running then s
  else ((s.putRun true).setFld (XR.TT_SLOT 0) XR.TT_SLOT_SLOT 0).setFld (XR.TT_SLOT 1) XR.TT_SLOT_SLOT 0

/-- RUN_SET (R73): one bit shared by both halves. -/
def execRunSet (s : State) : Res := .next s.startRun

/-- RUN_CLEAR (R73): the counters hold. -/
def execRunClear (s : State) : Res := .next (s.putRun false)

/-- SEAM_HOLD_END (R97): the half resumes; its next slot finds its beat or its credit. -/
def execSeamHoldEnd (east : Bool) (s : State) : Res :=
  .next (if (s.half (halfOf east)).realign then s else s.setFlag (XR.TT_STATUS (halfOf east)) XR.TT_STATUS_HOLDING false)

/-- REALIGN (R98): the clocks are equal again; the half that is ahead waits at its next slot 0. -/
def execRealign (s : State) : Res :=
  let a := s.nowSlot 0
  let b := s.nowSlot 1
  let s := (s.setFlag (XR.SEAM_STATUS 0) XR.SEAM_STATUS_SPLIT_ACTIVE false).setFlag (XR.SEAM_STATUS 1) XR.SEAM_STATUS_SPLIT_ACTIVE false
  if a = b then .next s
  else
    let e := if a < b then 1 else 0
    let s := (s.setFlag (XR.SEAM_STATUS 0) XR.SEAM_STATUS_REALIGN_PENDING true).setFlag (XR.SEAM_STATUS 1) XR.SEAM_STATUS_REALIGN_PENDING true
    .next (s.setHalf e { s.half e with realign := true })

end Sys2Proof.Machine
end

