-- ==== Sys2Proof/Machine/Background.lean ====
section
/-!
DEFINITION. Sys2Proof/Machine/Background.lean: background service of a slice (R75-R77): deferred completions (R52), requests
by class, the scrubber (R39-R41), and tile audits (R227).
-/

namespace Sys2Proof.Machine

/-! ### Classes (Table 3.5) -/

def classNum : BgClass → Nat
  | .walker => 0
  | .steward => 1
  | .host => 2
  | .scrub => 3

/-- The age threshold of a class; 0 acts as 1. -/
def State.ageLimit (s : State) (e k : Nat) : Nat :=
  let r := XR.BG_AGE e
  max 1 (if k = 0 then s.fld r XR.BG_AGE_WALKER else if k = 1 then s.fld r XR.BG_AGE_STEWARD
    else if k = 2 then s.fld r XR.BG_AGE_HOST else s.fld r XR.BG_AGE_SCRUB)

/-- The waiting class that is served: the highest age above its threshold, else round-robin after the last. -/
def State.bgPick (s : State) (e : Nat) (waiting : List Nat) (ages : List Nat) (last : Nat) : Option Nat :=
  let old := waiting.filter fun k => decide (s.ageLimit e k < ages.getD k 0)
  let best := old.foldl (fun m k => max m (ages.getD k 0)) 0
  match old.find? fun k => ages.getD k 0 == best with
  | some k => some k
  | none => (List.range 4).findSome? fun i => let k := (last + 1 + i) % 4
                                               if waiting.contains k then some k else none

/-- The ages after a slot that served `k`, or no class. -/
def bgAges (ages waiting : List Nat) (k : Option Nat) : List Nat :=
  (List.range 4).map fun i => if k = some i then 0 else ages.getD i 0 + b2n (waiting.contains i)

/-- The first request of a class, and the others. -/
def bgTake (k : Nat) : List BgReq → Option (BgReq × List BgReq)
  | [] => none
  | b :: t => if classNum b.cls = k then some (b, t) else (bgTake k t).map fun r => (r.1, b :: r.2)

/-! ### The scrubber (R39-R41) -/

/-- The next beat of a slice, at or after a place in its order, with a valid sector. -/
def State.nextScrub (s : State) (sl pos : Nat) : Option Nat :=
  (s.tiles.filterMap fun e =>
    let (l, q) := sliceOf e.1
    if l ≠ sl || s.tileRetired sl q then none
    else ((List.range 16).filterMap fun k =>
      if decide (pos ≤ 16 * q + k) && bitsOf e.2.valid.toNat (4 * k + 3) (4 * k) != 0 then some (16 * q + k) else none).head?).foldl
    (fun (m : Option Nat) b => match m with
      | some a => some (min a b)
      | none => some b) none

/-- A scrub read of one beat: its valid sectors' words are checked. -/
def State.scrubRead (s : State) (sl beat : Nat) : State :=
  let a := 4096 * tileAt sl (beat / 16) + 256 * (beat % 16)
  let s := s.updSlice sl fun v => { v with scrubPos := beat + 1 }
  (wordsOf a 256).foldl (fun s wd =>
    if s.bufWordErr wd = 2 then s.sliceUe wd true
    else if s.bufWordErr wd = 1 then
      let s := s.sliceCe wd false
      s.updSlice sl fun v => if v.corrQ.contains wd then v else { v with scrubHeld := v.scrubHeld ++ [wd] }
    else s) s

def State.scrubActive (s : State) (sl : Nat) : Bool := s.flag (SLICE.STATUS sl) SLICE.STATUS_SCRUB_ACTIVE

/-- A pass that has read every valid sector and rewritten what it corrected ends, and the next starts if it is due. -/
def State.scrubEnd (s : State) (sl : Nat) : State :=
  let v := s.slice sl
  if !s.scrubActive sl || !v.scrubHeld.isEmpty || (s.nextScrub sl v.scrubPos).isSome then s
  else
    let n := s.fld (SLICE.SCRUB_PASSES sl) SLICE.SCRUB_PASSES_VALUE
    let s := s.setFld (SLICE.SCRUB_PASSES sl) SLICE.SCRUB_PASSES_VALUE ((n + 1) % 2 ^ 32)
    if v.scrubDue then s.setSlice sl { v with scrubDue := false, scrubPos := 0 }
    else s.setFlag (SLICE.STATUS sl) SLICE.STATUS_SCRUB_ACTIVE false

/-- SCRUB_PASS_START (R40): a period boundary of the slice. -/
def execScrubPassStart (sl : BitVec 7) (s : State) : Res :=
  let i := sl.toNat
  if !s.sliceHere i || !s.flag (SLICE.SCRUB i) SLICE.SCRUB_ENABLE then .next s
  else if s.scrubActive i then
    .next ((s.setFlag (SLICE.STATUS i) SLICE.STATUS_SCRUB_LATE true).updSlice i fun v => { v with scrubDue := true })
  else .next ((s.setFlag (SLICE.STATUS i) SLICE.STATUS_SCRUB_ACTIVE true).updSlice i fun v => { v with scrubPos := 0 })

/-! ### Service -/

/-- Corrected words that wait to be rewritten. -/
def Slice.toRewrite (v : Slice) : List Nat := v.scrubHeld ++ v.corrQ

def bgWaiting (l : List BgReq) (scrub : Bool) : List Nat :=
  (List.range 4).filter fun k => if k = 3 then scrub || l.any (fun b => classNum b.cls == 3) else l.any fun b => classNum b.cls == k

/-- Whether a request comes from anything but the steward (R467). -/
def BgReq.foreign (b : BgReq) : Bool := match b.who with
  | .line _ => false
  | .evict _ => false
  | .steward _ => false
  | _ => true

/-- The write direction of a reserved slot. -/
def State.bgWriteSlot (s : State) (sl : Nat) : State :=
  let v := s.slice sl
  let waiting := bgWaiting v.bgW (!v.toRewrite.isEmpty)
  if !v.rmw.isEmpty then (s.setSlice sl { v with ageW := bgAges v.ageW waiting none }).rmwComplete sl
  else match s.bgPick (sl / 48) waiting v.ageW v.lastW with
    | none => s
    | some k =>
      let v := { v with ageW := bgAges v.ageW waiting (some k), lastW := k }
      match bgTake k v.bgW with
      | some (b, rest) =>
        let s := s.setSlice sl { v with bgW := rest }
        let (s, cause) := if b.foreign && s.reserveShut b.dpa b.len then (s.reserveRefuse b.dpa, cUNREACHABLE) else s.bufPutAt b.dpa b.data b.en false
        s.answer b.who cause []
      | none =>
        match v.toRewrite with
        | [] => s
        | wd :: _ => (s.setSlice sl { v with corrQ := v.corrQ.filter (· != wd), scrubHeld := v.scrubHeld.filter (· != wd) }).writeBack wd

/-- The read direction of a reserved slot. -/
def State.bgReadSlot (s : State) (sl : Nat) : State :=
  let v := s.slice sl
  let next := if s.scrubActive sl && v.scrubHeld.isEmpty then s.nextScrub sl v.scrubPos else none
  let waiting := bgWaiting v.bgR next.isSome
  match s.bgPick (sl / 48) waiting v.ageR v.lastR with
  | none => s
  | some k =>
    let v := { v with ageR := bgAges v.ageR waiting (some k), lastR := k }
    match bgTake k v.bgR, next with
    | some (b, rest), _ =>
      let s := s.setSlice sl { v with bgR := rest }
      let (s, cause, data) := if b.foreign && s.reserveShut b.dpa b.len then (s.reserveRefuse b.dpa, cUNREACHABLE, []) else s.bufRead b.dpa b.len false
      s.answer b.who cause (if cause = 0 then data else [])
    | none, some beat => (s.setSlice sl v).scrubRead sl beat
    | none, none => s

/-- One reserved slot of a slice column (R76). -/
def State.bgSlot (s : State) (sl : Nat) : State :=
  if !s.sliceHere sl then s else ((s.bgWriteSlot sl).bgReadSlot sl).scrubEnd sl

/-! ### Tile audits (R227) -/

/-- The status of an audit and the stored code; the tile is poisoned where the audit finds a fault. -/
def State.auditTile (s : State) (t : Nat) : State × Nat × Nat :=
  let code := (s.tile t).code.toNat
  if s.reserveShut (4096 * t) 4096 then (s.reserveRefuse (4096 * t), 5, 0)
  else if s.tileGone t then (s, 4, code)
  else if (s.tile t).poisoned then (s, 2, code)
  else
    let wds := wordsOf (4096 * t) 4096
    let bad := wds.any fun wd => s.bufWordErr wd == 2
    let s := s.sliceFound true false wds
    if bad then (s, 3, code)
    else if crcBytes 0 (s.bufBytes (4096 * t) 4096) != s.codeAhead t then ((s.poisonTile t).sliceFault (4096 * t) cTILE_CODE 3, 1, code)
    else (s, 0, code)

/-- TILE_AUDIT: the oldest audit that waits at a slice ends, and its porter has the status and the stored code. -/
def execTileAudit (sl : BitVec 7) (s : State) : Res :=
  let v := s.slice sl.toNat
  match v.audits with
  | [] => .next s
  | q :: rest =>
    let (s, st, code) := (s.setSlice sl.toNat { v with audits := rest }).auditTile q.tile
    .next (s.meshRespond (edgeEnd (stopOf q.porter)) (coreEnd q.porter) (.porter q.porter q.slot) 0 (leBytes 4 st ++ leBytes 4 code))

end Sys2Proof.Machine
end

