-- ==== Sys2Proof/Machine/Slot.lean ====
section
/-!
DEFINITION. Sys2Proof/Machine/Slot.lean: one slot of a half (R66-R71, R78-R80, R93-R98): the meetings that its timetable names
and the beats on the seam, with the transfers of couriers (R247-R251), edge ports (R212), Oxlux ports and upper sites
(R371-R377) that they serve; reserved slots; and the slot counter.
-/

namespace Sys2Proof.Machine

/-! ### Blocks of a transfer -/

/-- Bytes of a block: a beat, or half of one at a 128 B port. -/
def XOp.grain (o : XOp) : Nat := if edgePort o.port then 128 else 256
def XOp.blocks (o : XOp) : Nat := if o.n = 0 then 1 else (o.addr + o.n - 1) / o.grain - o.addr / o.grain + 1
/-- The first byte and the length of a block's part of the transfer. -/
def XOp.part (o : XOp) (b : Nat) : Nat × Nat :=
  let lo := max o.addr (b * o.grain)
  (lo, min (o.addr + o.n) ((b + 1) * o.grain) - lo)
/-- The next block in slice `sl` to move; UPPER of the entry chooses between the halves of a beat at a 128 B port. -/
def XOp.next (o : XOp) (sl : Nat) (upper : Bool) : Option Nat :=
  (List.range o.blocks).findSome? fun i =>
    let b := o.addr / o.grain + i
    if o.moved.contains b || (edgePort o.port && decide (b % 2 ≠ b2n upper)) || (sliceOf (b * o.grain / 4096)).1 != sl then none
    else some b

def XOp.slice (o : XOp) : Nat := (sliceOf (o.addr / 4096)).1

/-- Whether a transfer may use a meeting at slice slot `t`. -/
def XOp.fits (o : XOp) (t : Nat) (write reduce : Bool) : Bool :=
  o.write == write && o.red.isSome == reduce && o.ready && (!write || !o.data.isEmpty) &&
    (match o.due with
     | some d => decide (d ≤ t) && decide (t < d + portSlots o.port)
     | none => match o.who with
       | .upper _ _ _ _ => false
       | _ => true)

/-- The same transfer: its requester, direction and place. -/
def XOp.same (o p : XOp) : Bool := o.who == p.who && o.write == p.write && o.addr == p.addr

/-- One transfer of a port changes, or leaves it. -/
def State.updOp (s : State) (q : XPort) (p : XOp) (f : XOp → XOp) : State :=
  s.setXops q ((s.xops q).map fun o => if o.same p then f o else o)
def State.dropOp (s : State) (q : XPort) (p : XOp) : State := s.setXops q ((s.xops q).filter fun o => !o.same p)

/-! ### Ends of transfers -/

/-- The read-back of a unit for the hash engine is there (R261). -/
def State.hashBack (s : State) (c ch id cause : Nat) (data : List Byte) : State :=
  let v := s.chan c ch
  match v.queue.head?, v.reads.find? fun r => r.1 == id with
  | some d, some r =>
    let s := s.updChan c ch fun v => { v with reads := v.reads.filter fun x => x.1 != id }
    if cause ≠ 0 then s.hashFail c ch d else s.hashLeaf d.launch d.hctx (d.leafBase + r.2.1) data
  | _, _ => s

/-- A transfer is over: its requester has the outcome. `code` is the code of a whole tile that a slice has read. -/
def State.opEnd (s : State) (q : XPort) (o : XOp) (cause : Nat) (code : Option Nat) : State :=
  let s := s.dropOp q o
  let data := if o.write || cause ≠ 0 then [] else o.got.flatMap (·.2)
  match o.req with
  | some r => s.meshRespond (edgeEnd (32 * q.half + (q.port - 88))) r.back r.who cause data
  | none =>
    match o.who with
    | .courier c ch id j src => s.answerCourier c ch id j src cause data (if cause = 0 then code else none)
    | .hashRead c ch id => s.hashBack c ch id cause data
    | .upper u p tag wr =>
      if !wr then s
      else if cause = 0 then s.upSend u p { ckind := 3, ctag := tag } []
      else s.upEnd u p tag true cause o.addr (cause == cNO_SLOT)
    | w => s.answer w cause data

/-! ### Reading -/

/-- A meeting that an entry makes for a port: the port, UPPER, and the seam channel in between. -/
structure Meet where
  q : XPort
  upper : Bool
  seam : Option Nat
  deriving DecidableEq, Repr

/-- The ports that receive the beat of a slice read entry in slot `t`: of the half, and across the seam through the other half's
entry 8 slots later (R66, R78). -/
def State.readMeets (s : State) (e t : Nat) (x : TtEntry) : List Meet :=
  (s.portsAt e t x).flatMap fun p =>
    if seamPort p then
      match s.entryAt (1 - e) (t + 8) (48 + (p - 184)) 0 with
      | some y => ((s.portsAt (1 - e) (t + 8) y).filter fun k => !seamPort k).map fun k => ⟨⟨1 - e, k⟩, y.upper, some (p - 184)⟩
      | none => []
    else [⟨⟨e, p⟩, x.upper, none⟩]

/-- The transfers that fit a meeting, with their next blocks. -/
def State.candidates (s : State) (m : Meet) (sl t : Nat) (write reduce : Bool) : List (Meet × XOp × Nat) :=
  (s.xops m.q).filterMap fun o =>
    if o.fits t write reduce then (o.next sl m.upper).map fun b => (m, o, b) else none

def isUpper (o : XOp) : Bool := match o.who with
  | .upper _ _ _ _ => true
  | _ => false

/-- The transfer that names the tile of a meeting: a scheduled one, then an upper site's run, then the first that waits. -/
def pickLead (l : List (Meet × XOp × Nat)) : Option (Meet × XOp × Nat) :=
  match l.find? fun c => c.2.1.due.isSome && !isUpper c.2.1 with
  | some c => some c
  | none => match l.find? fun c => c.2.1.due.isSome with
    | some c => some c
    | none => l.head?

/-- A beat reaches an upper site's port: for its READ, or pushed (R371, R373, R375). -/
def State.upBeat (s : State) (q : XPort) (addr : Nat) (data : List Byte) (fin : Option (Nat × Nat)) : State :=
  let (u, p) := upOf q.half q.port
  if !s.upLive u p then s
  else
    let tile := addr / 4096
    let beat := addr % 4096 / 256
    let own := (s.xops q).find? fun o => !o.write && o.addr / 4096 == tile && o.due.isSome && o.moved.contains (addr / 256) &&
      (tabFind o.got (addr / 256)).isNone
    let (s, took) := s.upBuffer u p
    match own with
    | some o =>
      let tag := match o.who with
        | .upper _ _ t _ => t
        | _ => 0
      let cause := if o.cause ≠ 0 then o.cause else if took then 0 else cUP_OVERRUN
      match fin with
      | none =>
        let s := s.updOp q o fun o => { o with cause := cause, got := tabInsert o.got (addr / 256) [] }
        if took && cause = 0 then s.upSend u p { pkind := 1, ptag := tag, pbeat := beat } data else s
      | some (_, code) =>
        let s := s.dropOp q o
        if cause ≠ 0 then s.upEnd u p tag false cause (4096 * tile) (cause == cUP_OVERRUN)
        else s.upSend u p { pkind := 2, ptag := tag, pbeat := 15, codeValid := true, code := code } data
    | none =>
      let lost := tabGet false (s.upper u).lost p || !took
      let s := s.updUpper u fun v => { v with lost := tabSet false v.lost p (lost && fin.isNone) }
      if !took then s
      else match fin with
        | none => s.upSend u p { pkind := 3, pbeat := beat, ctile := tile } data
        | some (cause, code) =>
          s.upSend u p { pkind := 3, pbeat := beat, ctile := tile, pstatus := if cause ≠ 0 then cause else if lost then cUP_OVERRUN else 0,
                         codeValid := true, code := code } data

/-- A beat reaches a port of an engine. -/
def State.beatArrives (s : State) (q : XPort) (addr : Nat) (data : List Byte) (fin : Option (Nat × Nat)) : State :=
  if q.port < 40 then s.upBeat q addr data fin
  else
    match (s.xops q).find? fun o => !o.write && o.moved.contains (addr / o.grain) && (tabFind o.got (addr / o.grain)).isNone &&
        (o.part (addr / o.grain)).1 == addr with
    | none => s
    | some o =>
      let o' := { o with got := tabInsert o.got (addr / o.grain) data, arrived := o.arrived + 1 }
      if o'.arrived = o.blocks then s.opEnd q o' o.cause (if o.whole then fin.map (·.2) else none)
      else s.updOp q o fun _ => o'

/-- The highest occupancy of a seam queue of a half. -/
def State.occupied (s : State) (e n : Nat) : State :=
  let r := XR.SEAM_STATUS e
  if s.fld r XR.SEAM_STATUS_MAX_OCCUPANCY < n then s.setFld r XR.SEAM_STATUS_MAX_OCCUPANCY n else s

/-- A beat enters a seam channel toward the other half. -/
def State.seamPush (s : State) (e ch vc : Nat) (b : SeamBeat) : State :=
  let h := s.half (1 - e)
  let l := tabGet [] h.seam (4 * ch + vc) ++ [b]
  (s.setHalf (1 - e) { h with seam := tabSet [] h.seam (4 * ch + vc) l }).occupied (1 - e) l.length

/-- A slice reads one block for its lead transfer; every transfer of the entry's ports at the same place takes it (R78, R80). -/
def State.readBeat (s : State) (e sl t : Nat) (meets : List Meet) (lead : Meet × XOp × Nat) : State :=
  let (m, o, b) := lead
  let (a, n) := o.part b
  let tile := a / 4096
  let (s, cause, data) :=
    if s.reserveShut a n then (s.reserveRefuse a, cUNREACHABLE, List.replicate n 0)
    else if o.cause ≠ 0 then (s, o.cause, s.bufBytes a n)
    else s.bufRead a n false
  let crc := crcBytes o.crc data
  let last := o.moved.length + 1 == o.blocks
  let (s, cause) :=
    if last && o.whole && cause = 0 && crc != s.codeAhead tile then ((s.poisonTile tile).sliceFault a cTILE_CODE 3, cTILE_CODE) else (s, cause)
  let fin := if last && o.whole then some (cause, (s.tile tile).code.toNat) else none
  let all := meets.flatMap fun k => ((s.candidates k sl t false false).find? fun c => c.2.1.part c.2.2 == (a, n)).toList
  let s := all.foldl (fun s c => s.updOp c.1.q c.2.1 fun o =>
    { o with moved := o.moved ++ [c.2.2], last := some t, crc := crc, cause := if o.cause = 0 then cause else o.cause }) s
  let s := (meets.filter fun k => k.seam.isNone).foldl (fun s k => s.beatArrives k.q a data fin) s
  ((meets.filterMap Meet.seam).eraseDups).foldl (fun s ch =>
    s.seamPush e ch 0 { slot := t + 8, port := m.q.port, who := o.who, blk := b, addr := a, data := data, fin := fin }) s

/-! ### Writing -/

/-- Whether the next write slot of a column is marked COMPLETION (R51). -/
def State.nextCompletion (s : State) (e t col : Nat) : Bool :=
  match s.entryAt e (t + 1) col 1 with
  | some x => x.completion
  | none => false

/-- A block is written into its slice: the state and the cause. -/
def State.storeBeat (s : State) (e t : Nat) (o : XOp) (a : Nat) (data : List Byte) : State × Nat :=
  let col := (sliceOf (a / 4096)).1 % 48
  if s.reserveShut a data.length then (s.reserveRefuse a, cUNREACHABLE) else
  match o.red with
  | some (d, i) => s.contribute a d i data (o.cause != 0)
  | none =>
    if o.whole then s.bufPutWhole a data
    else
      let part := a % 8 != 0 || (a + data.length) % 8 != 0
      let done := part && s.nextCompletion e t col
      let s := if done then s.setHalf e { s.half e with taken := tabSet 0 (s.half e).taken col (t + 2) } else s
      s.bufPutAt a data (data.map fun _ => true) done

/-- A port of a fenced hostel: write slots that name it pass unused (R476). -/
def State.portShut (s : State) (q : XPort) : Bool :=
  decide (40 ≤ q.port) && decide (q.port < 56) && s.flag (HOS.STATUS (4 * q.half + (q.port - 40) / 4)) HOS.STATUS_FENCED

/-- A block of a write has been stored for the transfer at port `q`, which may have ended before it. -/
def State.writeBeat (s : State) (e t : Nat) (q : XPort) (o : XOp) (a : Nat) (data : List Byte) : State :=
  let (s, cause) := if s.portShut q then (s, 0) else s.storeBeat e t o a data
  let o' := { o with arrived := o.arrived + 1, last := some t, cause := if o.cause = 0 then cause else o.cause }
  let s := s.updOp q o fun _ => o'
  if !((s.xops q).any o.same) || o'.arrived ≠ o.blocks then s
  else if o.whole && o'.cause = 0 && !s.portShut q then
    let (s, c) := s.bufSeal (a / 4096) o.data o.expect
    s.opEnd q o' c none
  else s.opEnd q o' o'.cause none

/-- A write entry of a slice column takes the beat of its port, or the beat that has crossed the seam. -/
def State.writeMeet (s : State) (e t col : Nat) (x : TtEntry) : State :=
  let sl := 48 * e + col
  if x.completion then
    if tabGet 0 (s.half e).taken col = t + 1 then s else s.redWrite sl
  else if seamPort x.port then
    let h := s.half e
    let k := 4 * (x.port - 184) + (if x.reduce then 2 else 0)
    let l := tabGet [] h.seam k
    match l.find? fun b => b.slot == t && (sliceOf (b.addr / 4096)).1 == sl with
    | none => s
    | some b =>
      let s := s.setHalf e { h with seam := tabSet [] h.seam k (l.filter fun y => decide (t < y.slot)) }
      let q : XPort := ⟨1 - e, b.port⟩
      match (s.xops q).find? fun o => o.write && o.who == b.who && decide (o.addr ≤ b.addr) && decide (b.addr < o.addr + o.n) with
      | some o => s.writeBeat e t q o b.addr b.data
      | none =>
        -- The transfer has ended; the beat that is on its way still lands.
        (s.storeBeat e t { port := b.port, write := true, addr := b.addr, n := b.data.length, red := b.red, who := b.who } b.addr b.data).1
  else
    let m : Meet := ⟨⟨e, x.port⟩, x.upper, none⟩
    match pickLead (s.candidates m sl t true x.reduce) with
    | none => s
    | some (_, o, b) =>
      let (a, n) := o.part b
      let o := { o with moved := o.moved ++ [b] }
      s.writeBeat e t m.q o a ((o.data.drop (a - o.addr)).take n)

/-- The slice column of the other half whose write entry takes from a seam channel at a slot. -/
def State.seamTaker (s : State) (e t ch : Nat) : Option (Nat × TtEntry) :=
  (List.range 48).findSome? fun col =>
    match s.entryAt e t col 1 with
    | some x => if !x.completion && x.port = 184 + ch then some (col, x) else none
    | none => none

/-- A write entry of a seam column sends a beat of its port to the other half. -/
def State.seamMeet (s : State) (e t ch : Nat) (x : TtEntry) : State :=
  match s.seamTaker (1 - e) (t + 8) ch with
  | none => s
  | some (col, y) =>
    let m : Meet := ⟨⟨e, x.port⟩, x.upper, some ch⟩
    match pickLead (s.candidates m (48 * (1 - e) + col) (t + 8) true y.reduce) with
    | none => s
    | some (_, o, b) =>
      let (a, n) := o.part b
      let s := s.updOp m.q o fun o => { o with moved := o.moved ++ [b] }
      s.seamPush e ch (if y.reduce then 2 else 0)
        { slot := t + 8, port := x.port, who := o.who, blk := b, addr := a, data := (o.data.drop (a - o.addr)).take n, red := o.red }

/-- A read entry of a seam column delivers the beat that has crossed. -/
def State.seamDeliver (s : State) (e t ch : Nat) (x : TtEntry) : State :=
  let h := s.half e
  let l := tabGet [] h.seam (4 * ch)
  match l.find? fun b => b.slot == t with
  | none => s
  | some b =>
    let s := s.setHalf e { h with seam := tabSet [] h.seam (4 * ch) (l.filter fun y => decide (t < y.slot)) }
    ((s.portsAt e t x).filter fun p => !seamPort p).foldl (fun s p => s.beatArrives ⟨e, p⟩ b.addr b.data b.fin) s

/-! ### Runs of upper sites (R371, R372, R377) -/

/-- The upper-site ports that a column's entries name in slot `t`, with the slice, the slot at the slice, and the direction. -/
def State.upMeets (s : State) (e t col d : Nat) : List (XPort × Nat × Nat) :=
  match s.entryAt e t col d with
  | none => []
  | some x =>
    if col < 48 then
      if d = 0 then ((s.readMeets e t x).filter fun m => decide (m.q.port < 40)).map fun m => (m.q, 48 * e + col, t)
      else if !x.completion && x.port < 40 then [(⟨e, x.port⟩, 48 * e + col, t)] else []
    else if d = 1 && x.port < 40 then
      match s.seamTaker (1 - e) (t + 8) (col - 48) with
      | some (c, _) => [(⟨e, x.port⟩, 48 * (1 - e) + c, t + 8)]
      | none => []
    else []

/-- Whether 16 slots from `t` all name the port at the column. -/
def State.runOf (s : State) (e t col d : Nat) (q : XPort) (sl : Nat) : Bool :=
  (List.range 16).all fun k => (s.upMeets e (t + k) col d).any fun m => m.1 == q && m.2.1 == sl

/-- Slots that a command must have waited: 16 for a READ, 8 for a WRITE. -/
def upWaits (write : Bool) : Nat := if write then 8 else 16

/-- One port's run begins: its eligible command is given the run, or a command that is not yet eligible is late. -/
def State.runServe (s : State) (q : XPort) (sl at_ : Nat) (write : Bool) : State × Bool :=
  let (u, p) := upOf q.half q.port
  let l := if s.upLive u p then (s.xops q).filter fun o => o.write == write && o.slice == sl && o.due.isNone else []
  match l.head? with
  | none => (s, false)
  | some o =>
    if o.ready && upWaits write ≤ o.age then (s.updOp q o fun o => { o with due := some at_ }, true)
    else ((s.bump (UP.LATE_RUNS (upOf q.half q.port).1) 1).inexactAll, false)

/-- Runs that begin at a column in slot `t`. A read run that is a courier's meeting serves no READ; otherwise one of the group's
ports, in their order (R373). -/
def State.runStart (s : State) (e t col d : Nat) : State :=
  let fresh := (s.upMeets e t col d).filter fun m =>
    let k := 256 * (2 * col + d) + 128 * b2n (m.1.half != e) + m.1.port
    let r := tabGet 0 (s.half e).runs k
    (r == 0 || decide (r - 1 + 16 ≤ t)) && s.runOf e t col d m.1 m.2.1
  if fresh.isEmpty then s
  else
    let s := s.setHalf e { s.half e with runs := fresh.foldl (fun r m =>
      tabInsert r (256 * (2 * col + d) + 128 * b2n (m.1.half != e) + m.1.port) (t + 1)) (s.half e).runs }
    let courier := d = 0 && (match s.entryAt e t col d with
      | some x => (s.readMeets e t x).any fun m => (s.candidates m (48 * e + col) t false false).any fun c => c.2.1.due.isSome && !isUpper c.2.1
      | none => false)
    if courier then s
    else (fresh.foldl (fun (r : State × Bool) m =>
      if r.2 then r
      else
        let (s, ok) := r.1.runServe m.1 m.2.1 m.2.2 (d == 1)
        (s, ok && d == 0)) (s, false)).1

/-! ### Couriers at a slot (R247, R248, R251, R302) -/

/-- Tile k and every later tile of a descriptor move one period later (R251). -/
def State.tileLate (s : State) (c ch k : Nat) (d : Desc) : State :=
  let v := s.chan c ch
  let later := fun (w : Asker) => match w with
    | .courier c' ch' id _ _ => c' == c && ch' == ch && v.jobs.any fun q => q.id == id && decide (k ≤ q.k)
    | .hashRead c' ch' id => c' == c && ch' == ch && v.reads.any fun r => r.1 == id && decide (k ≤ r.2.1)
    | _ => false
  let e := courHalf c
  let h := s.half e
  let s := s.setHalf e { h with ops := tabMap [] (fun _ l => l.map fun o => if later o.who then { o with due := o.due.map (· + 4096) } else o) h.ops }
  ((s.updChan c ch fun v => { v with shift := v.shift + 1 }).bump (COUR.LATE_TILES c) 1).inexactOf d.launch

/-- Where the source of a unit lies. -/
inductive SrcKind where
  | clocked
  | beyond
  | site (i : Nat)
  | store
  deriving DecidableEq, Repr

def Desc.srcKind (d : Desc) (q : TileJob) : SrcKind :=
  if !d.srcEngine then .clocked
  else match q.src.head? with
    | none => .clocked
    | some p => match targetOf p.dpa with
      | .site i _ => .site i
      | .hostelStore _ => .store
      | .remote _ _ => .beyond
      | .porterMem _ => .beyond
      | _ => .clocked

/-- The pieces of a hostel-store source are read as the meeting begins. -/
def State.storeSource (s : State) (c ch : Nat) (d : Desc) (q : TileJob) : State :=
  (eachPiece q.src).foldl (fun s e => match targetOf e.2.dpa with
    | .hostelStore h =>
      let who := Asker.courier c ch q.id e.1 true
      if s.hostelUp h then s.answer who 0 (s.bytes e.2.dpa e.2.n) else (s.busError cDECODE (srcCour c) d.launch e.2.dpa).answer who cDECODE []
    | _ => s) s

/-- The data of a unit stand ready at its port. -/
def State.jobReady (s : State) (c ch : Nat) (d : Desc) (q : TileJob) : State :=
  let e := courHalf c
  let h := s.half e
  let fill := fun (o : XOp) => match o.who with
    | .courier c' ch' id j false =>
      if c' = c ∧ ch' = ch ∧ id = q.id ∧ o.data.isEmpty then
        match q.dst[j]? with
        | some p => { o with data := (q.out.drop p.off).take p.n, expect := if d.op = oCOPY && p.n = 4096 then q.code else none }
        | none => o
      else o
    | _ => o
  let s := s.setHalf e { h with ops := tabMap [] (fun _ l => l.map fill) h.ops }
  match d.srcKind q with
  | .site i => s.siteDrop i fun w => match w with
    | .courier c' ch' id _ true => c' == c && ch' == ch && id == q.id
    | _ => false
  | _ => s

/-- A unit's meeting begins in slot `t`: its data are put at the port, or it is late. -/
def State.meetBegin (s : State) (c ch : Nat) (d : Desc) (q : TileJob) : State :=
  let s := if d.srcKind q = .store && q.srcLeft ≠ 0 then (s.storeSource c ch d q).chanRun c ch else s
  match (s.chan c ch).jobs.find? fun x => x.id == q.id with
  | none => s
  | some q =>
    if q.cause ≠ 0 then s
    else if !q.out.isEmpty then s.jobReady c ch d q
    else match d.srcKind q with
      | .beyond => s.tileLate c ch q.k d
      | .site i =>
        let s := s.siteLate i ((q.src.head?.map (·.dpa)).getD 0)
        s.updChan c ch fun v => { v with jobs := v.jobs.map fun x => if x.id = q.id then { x with cause := cSITE_LATE } else x }
      | _ => s

/-- Slots by which a port's entry precedes the slice's. -/
def seamLead (c : Nat) (a : Nat) : Nat := if (sliceOf (a / 4096)).1 / 48 = courHalf c then 0 else 8

/-- The first slot of a transfer at its port. -/
def XOp.begins (o : XOp) (c t : Nat) : Bool := match o.due with
  | some d => d == t + (if o.write then seamLead c o.addr else 0)
  | none => false

/-- Meetings of a channel that begin in slot `t`. -/
def State.chanMeets (s : State) (c ch t : Nat) : State :=
  let v := s.chan c ch
  match v.queue.head? with
  | none => s
  | some d =>
    let e := courHalf c
    let first := fun (p : Asker → Bool) => (s.half e).ops.any fun x => x.2.any fun o => p o.who && o.begins c t
    let s := v.jobs.foldl (fun s q => if first (fun w => match w with
        | .courier c' ch' id _ false => c' == c && ch' == ch && id == q.id
        | _ => false) then s.meetBegin c ch d q else s) s
    -- A read-back whose unit has not landed moves one period later.
    v.reads.foldl (fun s r => if first (fun w => w == .hashRead c ch r.1) && decide ((s.chan c ch).landed ≤ r.2.1) then
        let q : XPort := ⟨e, courPort0 c⟩
        s.setXops q ((s.xops q).map fun o => if o.who = .hashRead c ch r.1 then { o with due := o.due.map (· + 4096) } else o) else s) s

/-- The channels of a half at a slot: commands due, ends of tiles, meetings that begin. -/
def State.couriersSlot (s : State) (e t : Nat) : State :=
  ((s.couriers.chans.map (·.1)).filter fun k => k / 256 == e).foldl (fun s k =>
    let c := k / 16
    let ch := k % 16
    ((s.chanRun c ch).chanErrors c ch).chanMeets c ch t) s

/-- A scheduled transfer that the timetable did not serve in a slot of its meeting ends with NO_SLOT (R247). -/
def State.noSlots (s : State) (e t : Nat) : State :=
  ([0, 1] : List Nat).foldl (fun s h => (s.half h).ops.foldl (fun s x => x.2.foldl (fun s o =>
    let missed := match o.due with
      | some d => decide (d ≤ t) && decide (t < d + portSlots o.port) && !isUpper o && o.slice / 48 == e && o.last != some t
      | none => false
    if missed then
      let c := match o.who with
        | .courier c _ _ _ _ => c
        | .hashRead c _ _ => c
        | _ => 0
      (s.busError cNO_SLOT (srcCour c) 0 o.addr).opEnd ⟨h, x.1⟩ o cNO_SLOT none
    else s) s) s) s

/-! ### Holds (R97, R98) -/

/-- Whether slot `t` of a half must place a beat on a full seam queue, or take a beat that the other half has not yet sent. -/
def State.mustHold (s : State) (e t : Nat) : Bool :=
  let full := fun (ch : Nat) => ([0, 2] : List Nat).any fun vc => decide (64 ≤ (tabGet [] (s.half (1 - e)).seam (4 * ch + vc)).length)
  let behind := decide (8 ≤ t) && decide (s.nowSlot (1 - e) ≤ t - 8)
  let es := (s.slotEntries e (s.bankAt e t) (t % 4096)).filter fun x => !reservedSlot t x.1
  es.any fun x => ((s.placesOn e (s.bankAt e t) x).any full) || (behind && !(takesFrom x).isEmpty)

def State.holdCycle (s : State) (e : Nat) : State :=
  (s.setFlag (XR.TT_STATUS e) XR.TT_STATUS_HOLDING true).bump (XR.SEAM_HOLD_CYCLES e) 1

/-- A half that waits for the other at slot 0 (R98). -/
def State.realignWaits (s : State) (e : Nat) : Bool :=
  (s.half e).realign && s.fld (XR.TT_SLOT e) XR.TT_SLOT_SLOT == 0 && decide (s.nowSlot (1 - e) < s.nowSlot e)

/-- The halves are in step again. -/
def State.realignEnds (s : State) (e : Nat) : State :=
  if (s.half e).realign && s.fld (XR.TT_SLOT e) XR.TT_SLOT_SLOT == 0 then
    let s := s.setHalf e { s.half e with realign := false }
    (s.setFlag (XR.SEAM_STATUS 0) XR.SEAM_STATUS_REALIGN_PENDING false).setFlag (XR.SEAM_STATUS 1) XR.SEAM_STATUS_REALIGN_PENDING false
  else s

/-! ### The slot -/

/-- One more slot waited, for every transfer of a half. -/
def State.opsAge (s : State) (e : Nat) : State :=
  let h := s.half e
  s.setHalf e { h with ops := tabMap [] (fun _ l => l.map fun o => { o with age := o.age + 1, born := o.born + 1 }) h.ops }

/-- The meetings of slot `t`: reads of slices, deliveries and sends of seam columns, then writes. -/
def State.meetings (s : State) (e t : Nat) : State :=
  let es := (s.slotEntries e (s.bankAt e t) (t % 4096)).filter fun x => !reservedSlot t x.1
  let s := es.foldl (fun s x => s.runStart e t x.1 x.2.1) s
  let s := es.foldl (fun s x =>
    if x.2.1 = 0 && x.1 < 48 then
      let meets := s.readMeets e t x.2.2
      match pickLead (meets.flatMap fun m => s.candidates m (48 * e + x.1) t false false) with
      | some lead => s.readBeat e (48 * e + x.1) t meets lead
      | none => s
    else if x.2.1 = 0 then s.seamDeliver e t (x.1 - 48) x.2.2
    else s) s
  es.foldl (fun s x =>
    if x.2.1 = 0 then s
    else if x.1 < 48 then s.writeMeet e t x.1 x.2.2
    else s.seamMeet e t (x.1 - 48) x.2.2) s

/-- The slot counter and the period count advance. -/
def State.slotAdvance (s : State) (e : Nat) : State :=
  let n := s.fld (XR.TT_SLOT e) XR.TT_SLOT_SLOT
  if n = 4095 then (s.setFld (XR.TT_SLOT e) XR.TT_SLOT_SLOT 0).bump (XR.TT_PERIOD e) 1 else s.setFld (XR.TT_SLOT e) XR.TT_SLOT_SLOT (n + 1)

/-- Background service of the reserved columns of slot `t`; while RUN is 0, of every column. -/
def State.background (s : State) (e : Nat) (p : Nat → Bool) : State :=
  (List.range 48).foldl (fun s col => if p col then s.bgSlot (48 * e + col) else s) s

/-- TIMETABLE_SLOT (R69): one fabric cycle of a half. -/
def execTimetableSlot (east : Bool) (s : State) : Res :=
  let e := halfOf east
  if !s.running then .next ((s.background e fun _ => true).couriersSlot e (s.nowSlot e))
  else
    let t := s.nowSlot e
    if s.realignWaits e || s.mustHold e t then .next (s.holdCycle e)
    else
      let s := (s.realignEnds e).setFlag (XR.TT_STATUS e) XR.TT_STATUS_HOLDING false
      let s := s.couriersSlot e t
      let s := ((s.meetings e t).noSlots e t).background e fun col => reservedSlot t col
      let s := ([2 * e, 2 * e + 1] : List Nat).foldl (fun s u => (s.upDrain u).upCount u) s
      .next ((s.opsAge e).slotAdvance e)

/-- EDGE_PORT_NO_SLOT (R212): the oldest request of an edge port that has waited 4,096 slots ends. -/
def execEdgePortNoSlot (east : Bool) (k : BitVec 5) (s : State) : Res :=
  let q : XPort := ⟨halfOf east, 88 + k.toNat⟩
  match (s.xops q).find? fun o => o.req.isSome && decide (4096 ≤ o.age) with
  | none => .next s
  | some o => .next ((s.busError cNO_SLOT (srcOf 2 q.half) ((o.req.map (·.launch)).getD 0) o.addr).opEnd q o cNO_SLOT none)

end Sys2Proof.Machine
end

