-- ==== Sys2Proof/Machine/OxTrain.lean ====
section
/-!
DEFINITION. Sys2Proof/Machine/OxTrain.lean: an Oxlux port's training (R330-R335), fence (R356), tests (R338) and detectors
(R337), and its end in DOWN (R333, R347).
-/

namespace Sys2Proof.Machine

def srcOx (x : Nat) : Nat := srcOf 9 x

/-- OX.TRAIN.STATE (Table 11.3). -/
def State.oxState (s : State) (x : Nat) : Nat := s.fld (OX.TRAIN x) OX.TRAIN_STATE

/-- The port enters a state; UP follows ACTIVE, and RETRAIN clears at ACTIVE or DOWN. -/
def State.oxEnter (s : State) (x st : Nat) : State :=
  let s := (s.setFld (OX.TRAIN x) OX.TRAIN_STATE st).setFlag (OX.STATUS x) OX.STATUS_UP (st == 6)
  if st = 6 || st = 7 then s.setFlag (OX.CTRL x) OX.CTRL_RETRAIN false else s

/-- A LINK entry (Table 16.5). -/
def State.linkEvent (s : State) (x : Nat) : State :=
  s.event kLINK 0 (srcOx x) 0 (s.reg (OX.TRAIN x)).toNat [BitVec.ofNat 8 (s.oxState x)]

/-- Training ends without a link: DOWN, logged (R333). -/
def State.oxDown (s : State) (x : Nat) : State :=
  ((s.oxEnter x 7).updOxl x fun o => { o with downAt := s.etc }).linkEvent x

/-- Training starts from DETECT: what the last training and its link held is gone. -/
def State.oxDetect (s : State) (x : Nat) : State :=
  let s := s.oxEnter x 1
  (s.updOxl x fun o => { o with rate := 0, peerMin := 0, searching := false, bad := 0 })

/-- MAX_RATE of a port: 3 acts as 2. -/
def State.oxMaxRate (s : State) (x : Nat) : Nat := min 2 (s.fld (OX.CTRL x) OX.CTRL_MAX_RATE)

/-! ### Training (R330-R332) -/

/-- LINK_DETECT: the first attempt runs at the lower of the two ends' rates. -/
def execLinkDetect (x : BitVec 4) (d : DetectResult) (s : State) : Res :=
  let x := x.toNat
  if s.oxState x ≠ 1 then .next s
  else
    let rate := max (s.oxMaxRate x) (min 2 d.maxRate.toNat)
    let s := s.updOxl x fun o => { o with rate := rate, peerMin := max (s.fld (OX.CTRL x) OX.CTRL_MIN_WIDTH) d.minWidth.toNat }
    .next (((s.setFlag (OX.TRAIN x) OX.TRAIN_REVERSED d.reversed).setFld (OX.TRAIN x) OX.TRAIN_POLARITY d.polarity.toNat).oxEnter x 2)

/-- DETECT_TIMEOUT (R330, R333): no peer within the limit. -/
def execDetectTimeout (x : BitVec 4) (s : State) : Res := .next (if s.oxState x.toNat = 1 then s.oxDown x.toNat else s)

/-- LINK_EQUALISE_DONE. -/
def execLinkEqualiseDone (x : BitVec 4) (s : State) : Res := .next (if s.oxState x.toNat = 2 then s.oxEnter x.toNat 3 else s)

/-- The lowest aligned group of `w` lanes that has locked (R331). -/
def lockedGroup (locked w : Nat) : Option Nat :=
  ((List.range (8 / w)).find? fun g => bitsOf locked (g * w + w - 1) (g * w) == 2 ^ w - 1).map (· * w)

/-- The largest width with a locked group: its code and first lane. -/
def chooseWidth (locked : Nat) : Option (Nat × Nat) :=
  ([3, 2, 1, 0] : List Nat).findSome? fun c => (lockedGroup locked (2 ^ c)).map fun l => (c, l)

/-- An attempt fails: the next lower rate, or DOWN. -/
def State.attemptFails (s : State) (x : Nat) : State :=
  let r := (s.oxl x).rate
  if 2 ≤ r then s.oxDown x else (s.updOxl x fun o => { o with rate := r + 1 }).oxEnter x 2

/-- The payload of an identity CTRL flit (R332; its layout is assumption 23). -/
def State.identityPayload (s : State) (x : Nat) : List Byte :=
  padTo 256 (leBytes 8 (s.fld GLB.SERIAL GLB.SERIAL_SERIAL) ++ leBytes 1 x ++ leBytes 2 (s.fld GLB.NODE_ID GLB.NODE_ID_NODE))

def State.sendIdentity (s : State) (x : Nat) : State :=
  let p := s.identityPayload x
  s.updOxl x fun o => { o with ctrl := o.ctrl ++ [p] }

/-- The link layer as IDENTITY finds it: empty buffers and full credits (R348). -/
def Oxlux.fresh (o : Oxlux) : Oxlux :=
  { o with pkts := [], seq := 0, retry := [], resend := none, nak := none, ctrl := [], credits := [(0, 1088), (1, 1088), (2, 1088), (3, 136)],
           owe := [], expect := 0, nakSent := false, parts := [], skip := [], rx := [], bad := 0, searching := false }

/-- LINK_LOCK_DONE (R331): the width and lane group are chosen, or the attempt fails. -/
def execLinkLockDone (x : BitVec 4) (locked : BitVec 8) (s : State) : Res :=
  let x := x.toNat
  if s.oxState x ≠ 3 then .next s
  else
    let s := s.setFld (OX.TRAIN x) OX.TRAIN_LOCKED locked.toNat
    let o := s.oxl x
    match chooseWidth locked.toNat with
    | none => .next (s.attemptFails x)
    | some (w, first) =>
      if o.rate < 2 && w < o.peerMin then .next (s.attemptFails x)
      else
        let s := ((s.setFld (OX.TRAIN x) OX.TRAIN_RATE o.rate).setFld (OX.TRAIN x) OX.TRAIN_WIDTH w).setFld (OX.TRAIN x) OX.TRAIN_FIRST_LANE first
        .next (((s.updOxl x Oxlux.fresh).oxEnter x 5).sendIdentity x)

/-- TRAINING_ATTEMPT_TIMEOUT (R331). -/
def execTrainingAttemptTimeout (x : BitVec 4) (s : State) : Res :=
  let st := s.oxState x.toNat
  .next (if 2 ≤ st && st ≤ 5 then s.attemptFails x.toNat else s)

/-- OX.READ_BOUND (R360): 1.6 × (122.72 + 33 t_f + 2F) slots, rounded up, with t_f = 10.24 × 2^rate ÷ w ns. -/
def readBound (rate w ps : Nat) : Nat := (16 * (122720 * w + 337920 * 2 ^ rate + 2 * ps * w) + 10000 * w - 1) / (10000 * w)

/-- IDENTITY (R332): the peer's values; the first exchange brings the port into ACTIVE. -/
def execIdentity (x : BitVec 4) (serial : BitVec 64) (port : BitVec 4) (node flight : BitVec 16) (s : State) : Res :=
  let x := x.toNat
  let st := s.oxState x
  if st ≠ 5 && st ≠ 6 then .next s
  else
    let s := ((s.setReg (OX.PEER_SERIAL x) serial).setFld (OX.PEER x) OX.PEER_NODE node.toNat).setFld (OX.PEER x) OX.PEER_PORT port.toNat
    if st = 6 then .next s
    else
      let ps := (flight.toNat + 9) / 10 * 10
      let s := s.setFld (OX.FLIGHT x) OX.FLIGHT_PS ps
      let b := readBound (s.fld (OX.TRAIN x) OX.TRAIN_RATE) (2 ^ s.fld (OX.TRAIN x) OX.TRAIN_WIDTH) ps
      let s := (s.setFld (OX.READ_BOUND x) OX.READ_BOUND_SLOTS b).updOxl x fun o => { o with cleanAt := s.etc, ackAt := s.etc }
      .next ((s.oxEnter x 6).oxAdmit x)

/-- AUTO_RETRAIN (R334). -/
def execAutoRetrain (x : BitVec 4) (s : State) : Res :=
  .next (if s.oxState x.toNat = 7 && s.flag (OX.CTRL x.toNat) OX.CTRL_AUTO_RETRAIN && s.flag (OX.CTRL x.toNat) OX.CTRL_ENABLE
    then s.oxDetect x.toNat else s)

/-- A port that is fenced and drained (R334, R338). -/
def State.oxIdle (s : State) (x : Nat) : Bool := s.flag (OX.CTRL x) OX.CTRL_FENCE && s.flag (OX.STATUS x) OX.STATUS_DRAINED
def State.oxHere (s : State) (x : Nat) : Bool := s.flag (OX.STATUS x) OX.STATUS_PRESENT

/-- LINK_RETRAIN (R334): a fenced, drained port trains from DETECT. -/
def execLinkRetrain (x : BitVec 4) (s : State) : Res :=
  let x := x.toNat
  if !s.oxHere x || !s.oxIdle x || !s.flag (OX.CTRL x) OX.CTRL_ENABLE then .next s
  else .next ((s.setFlag (OX.CTRL x) OX.CTRL_RETRAIN true).oxDetect x)

/-- The supply of an Oxlux port. -/
def State.vserOff (s : State) (x : Nat) : State := s.oxEnter x 0

/-- PORT_DISABLE (R329): ENABLE is 0 and the port's VSER off. -/
def execPortDisable (x : BitVec 4) (s : State) : Res :=
  .next (if !s.oxHere x.toNat then s else (s.setFlag (OX.CTRL x.toNat) OX.CTRL_ENABLE false).vserOff x.toNat)

/-! ### Fence (R356, R476) -/

/-- A port is fenced: the contexts of running legs that use it are killed. -/
def State.fenceOx (s : State) (x : Nat) : State :=
  if s.flag (OX.CTRL x) OX.CTRL_FENCE then s
  else
    let s := ((s.setFlag (OX.CTRL x) OX.CTRL_FENCE true).setFlag (OX.STATUS x) OX.STATUS_FENCED true).oxCount x
    let s := s.killUsers (fun q => q == oxX x) (srcOx x)
    s.unitEvent (srcOx x) (s.reg (OX.STATUS x)).toNat 1

/-- PORT_FENCE. -/
def execPortFence (x : BitVec 4) (s : State) : Res := .next (if s.oxHere x.toNat then s.fenceOx x.toNat else s)

/-- PORT_UNFENCE. -/
def execPortUnfence (x : BitVec 4) (s : State) : Res :=
  let x := x.toNat
  if !s.oxHere x || !s.oxEnabled x || !s.flag (OX.CTRL x) OX.CTRL_FENCE then .next s
  else
    let s := (s.setFlag (OX.CTRL x) OX.CTRL_FENCE false).setFlag (OX.STATUS x) OX.STATUS_FENCED false
    .next (s.unitEvent (srcOx x) (s.reg (OX.STATUS x)).toNat 2)

/-! ### Tests and detectors (R337, R338) -/

/-- A lane's CHK bit; from 0 to 1 it clears the lane's error count. -/
def State.setChk (s : State) (x lane : Nat) (b : Bool) : State :=
  let c := s.fld (OX.TEST x) OX.TEST_CHK
  let s := if b && !bitOf c lane then s.setReg (OX.PRBS_ERRORS x lane) 0 else s
  s.setFld (OX.TEST x) OX.TEST_CHK (putBits c lane lane (b2n b))

/-- TEST_START (R338): OX.TEST is written; a loop or a generator on a fenced, drained port takes it out of ACTIVE. -/
def execTestStart (x : BitVec 4) (v : BitVec 32) (s : State) : Res :=
  let x := x.toNat
  if !s.oxHere x then .next s
  else
    let t := v.toNat
    let s := ((s.setFld (OX.TEST x) OX.TEST_LOOP (bitsOf t 1 0)).setFld (OX.TEST x) OX.TEST_PATTERN (bitsOf t 2 2)).setFld (OX.TEST x) OX.TEST_GEN (bitsOf t 10 3)
    let s := (List.range 8).foldl (fun s l => s.setChk x l (bitOf t (11 + l))) s
    if s.oxIdle x && (bitsOf t 1 0 ≠ 0 || bitsOf t 10 3 ≠ 0) && !s.flag (OX.TEST x) OX.TEST_RUNNING then
      .next ((s.setFlag (OX.TEST x) OX.TEST_RUNNING true).oxEnter x 0)
    else .next s

/-- TEST_END: LOOP and GEN are 0 again; the port trains. -/
def execTestEnd (x : BitVec 4) (s : State) : Res :=
  let x := x.toNat
  if !s.oxHere x then .next s
  else
    let s := (s.setFld (OX.TEST x) OX.TEST_LOOP 0).setFld (OX.TEST x) OX.TEST_GEN 0
    if s.flag (OX.TEST x) OX.TEST_RUNNING then .next ((s.setFlag (OX.TEST x) OX.TEST_RUNNING false).oxDetect x) else .next s

/-- CHECKER_ENABLE. -/
def execCheckerEnable (x : BitVec 4) (lane : BitVec 3) (s : State) : Res :=
  .next (if s.oxHere x.toNat then s.setChk x.toNat lane.toNat true else s)

/-- A detector of a lane: its live bit, its sticky bit, and its counter as it asserts. -/
def State.detector (s : State) (x lane : Nat) (lost : Bool) (live sticky ev : Fld) : State :=
  let l := s.fld (OX.LANES x) live
  let s' := s.setFld (OX.LANES x) live (putBits l lane lane (b2n lost))
  if lost && !bitOf l lane then
    (s'.setFld (OX.LANES x) sticky (putBits (s.fld (OX.LANES x) sticky) lane lane 1)).satFld (OX.LANE_EVENTS x lane) ev 1
  else s'

/-- LOSS_OF_SIGNAL (R337). -/
def execLossOfSignal (x : BitVec 4) (lane : BitVec 3) (lost : Bool) (s : State) : Res :=
  .next (s.detector x.toNat lane.toNat lost OX.LANES_LOS OX.LANES_LOS_STICKY OX.LANE_EVENTS_LOS_EVENTS)

/-- LOSS_OF_LOCK (R337). -/
def execLossOfLock (x : BitVec 4) (lane : BitVec 3) (lost : Bool) (s : State) : Res :=
  .next (s.detector x.toNat lane.toNat lost OX.LANES_LOL OX.LANES_LOL_STICKY OX.LANE_EVENTS_LOL_EVENTS)

/-- NODE_ID_WRITE (R332): every port in ACTIVE sends a new identity flit. -/
def execNodeIdWrite (v : BitVec 16) (s : State) : Res :=
  let s := s.setFld GLB.NODE_ID GLB.NODE_ID_NODE v.toNat
  .next ((List.range 16).foldl (fun s x => if s.oxActive x then s.sendIdentity x else s) s)

end Sys2Proof.Machine
end

