-- ==== Sys2Proof/Machine/OxLink.lean ====
section
/-!
DEFINITION. Sys2Proof/Machine/OxLink.lean: flits, link-level retry, credits and packets of an Oxlux port (R339-R350), outbound
requests of the mesh, and inbound packets (R351-R356).
-/

namespace Sys2Proof.Machine

/-! ### Flit slots (R341, R342, Table 11.5) -/

/-- A flit's fields beside its payload. -/
structure OxCtl where
  seq : Nat := 0
  ack : Nat := 0
  vc : Nat := 0
  kind : Nat := 0
  cvc : Nat := 0
  credits : Nat := 0
  err : Bool := false
  ecause : Nat := 0
  deriving DecidableEq, Repr

/-- Control bits 0 to 43. -/
def OxCtl.bits (c : OxCtl) : Nat :=
  c.seq % 2 ^ 13 + 2 ^ 13 * (c.ack % 2 ^ 13) + 2 ^ 26 * (c.vc % 4) + 2 ^ 28 * (c.kind % 8) + 2 ^ 31 * (c.cvc % 4) +
    2 ^ 33 * (c.credits % 128) + 2 ^ 40 * b2n c.err + 2 ^ 41 * (c.ecause % 8)

def oxCrc (payload ctl : Nat) : Nat := crc16 44 ctl (crc16 2048 payload 0xFFFF)

/-- A flit slot of 2,108 bits. -/
def oxSlot (c : OxCtl) (payload : List Byte) : BitVec 2108 :=
  let p := leVal (padTo 256 payload)
  BitVec.ofNat 2108 (p + 2 ^ 2048 * (c.bits + 2 ^ 44 * oxCrc p c.bits))

def oxCtlOf (w : Nat) : OxCtl :=
  let c := w / 2 ^ 2048
  { seq := bitsOf c 12 0, ack := bitsOf c 25 13, vc := bitsOf c 27 26, kind := bitsOf c 30 28, cvc := bitsOf c 32 31,
    credits := bitsOf c 39 33, err := bitOf c 40, ecause := bitsOf c 43 41 }

def oxCrcOk (w : Nat) : Bool := bitsOf (w / 2 ^ 2048) 59 44 == oxCrc (w % 2 ^ 2048) (w / 2 ^ 2048 % 2 ^ 44)

/-- Sequence numbers are modulo 8,192. -/
def seqSub (a b : Nat) : Nat := (a + 8192 - b) % 8192

/-! ### Acknowledgement and credits -/

/-- ACK: everything accepted, but never past the HEAD of a partial packet (R341, R346). -/
def Oxlux.ackNow (o : Oxlux) : Nat :=
  let back := (o.parts.map fun p => seqSub o.expect p.2.start).foldl max 0
  seqSub (seqSub o.expect back) 1

/-- The credits that the next flit returns, and the port after it. -/
def Oxlux.takeCredits (o : Oxlux) : Nat × Nat × Oxlux :=
  match o.owe.find? fun e => e.2 != 0 with
  | none => (0, 0, o)
  | some (vc, n) => (vc, min n 127, { o with owe := tabSet 0 o.owe vc (n - min n 127) })

/-- A flit leaves. -/
def State.oxEmit (s : State) (x : Nat) (c : OxCtl) (payload : List Byte) : State :=
  let o := s.oxl x
  let (vc, n, o) := o.takeCredits
  let ack := if c.kind = 5 then c.ack else o.ackNow
  s.setOxl x { o with sent := o.sent ++ [oxSlot { c with cvc := vc, credits := n, ack := ack } payload] }

/-- A new reliable flit takes a sequence number and is kept for retry (R344). -/
def State.oxReliable (s : State) (x vc kind err : Nat) (payload : List Byte) : State :=
  let o := s.oxl x
  let f : OxFlit := { seq := o.seq, vc := vc, kind := kind, err := err, payload := payload }
  let s := s.setOxl x { o with seq := (o.seq + 1) % 8192, retry := o.retry ++ [f], ackAt := if o.retry.isEmpty then s.etc else o.ackAt }
  (s.oxEmit x { seq := f.seq, vc := vc, kind := kind, err := err != 0, ecause := err } payload).oxCount x

/-! ### Sending (R349) -/

/-- The window and offset of a remote DPA. -/
def remoteParts (dpa : Nat) : Nat × Nat := match targetOf dpa with
  | .remote w off => (w, off)
  | _ => (0, 0)

/-- A mesh request at the port's router becomes an outbound request, or is answered where its window or port fails (R32, R290,
R356). -/
def State.oxFromMesh (s : State) (x : Nat) : State :=
  match s.takeInbox (oxEnd x) (fun b => match b with
      | .req _ => true
      | _ => false) with
  | some (.req r, s') =>
    let (w, off) := remoteParts r.dpa
    let (_, cause) := s.oxRoute w
    if cause ≠ 0 then ((s'.oxLog x cause 0 0 false).busError cause (srcOx x) r.launch r.dpa).meshRespond (oxEnd x) r.back r.who cause []
    else
      let ty := match r.op with
        | .add ty => ty
        | _ => 0
      s'.oxSubmit x { opc := oxOpc r.op, cls := false, w := w, off := off, n := r.n, ty := ty, data := r.data, who := r.who, back := r.back, mesh := true }
  | _ => s

/-- Steward messages become packets of VC3. -/
def State.oxFromSteward (s : State) (x : Nat) : State :=
  let l := tabGet [] s.stewardTx x
  let s := { s with stewardTx := tabSet [] s.stewardTx x [] }
  let h : OxHdr := { opc := 0x05 }
  l.foldl (fun s m => s.oxPush x 3 { payload := [(h.bytes []).take 64 ++ padTo 64 m ++ List.replicate 128 0] }) s

/-- Whether a channel's head packet may send its next flit: it has begun, or its credits are all there. -/
def Oxlux.chanReady (o : Oxlux) (vc : Nat) : Option OxPkt :=
  match tabGet [] o.pkts vc with
  | [] => none
  | p :: _ => if p.sent ≠ 0 || p.payload.length ≤ tabGet 0 o.credits vc then some p else none

/-- The channel of the next flit: a head that has waited 64 flit times, oldest first, then by priority. -/
def Oxlux.pickChan (o : Oxlux) : Option Nat :=
  let ready := ([3, 1, 2, 0] : List Nat).filter fun vc => (o.chanReady vc).isSome
  let age := fun vc => match o.chanReady vc with
    | some p => p.waited
    | none => 0
  let old := ready.filter fun vc => decide (64 ≤ age vc)
  let best := (old.map age).foldl max 0
  match old.find? fun vc => age vc == best with
  | some vc => some vc
  | none => ready.head?

/-- Head packets that send nothing wait one flit time more. -/
def Oxlux.waitPkts (o : Oxlux) (but : Option Nat) : Oxlux :=
  { o with pkts := tabMap [] (fun vc l => if some vc = but then l else match l with
      | p :: t => { p with waited := p.waited + 1 } :: t
      | [] => []) o.pkts }

/-- The next flit of a channel's head packet. -/
def State.sendPkt (s : State) (x vc : Nat) : State :=
  let o := s.oxl x
  match tabGet [] o.pkts vc with
  | [] => s
  | p :: rest =>
    let n := p.payload.length
    let last := p.sent + 1 == n
    let kind := if n = 1 then 4 else if p.sent = 0 then 1 else if last then 3 else 2
    let credits := if p.sent = 0 then tabSet 0 o.credits vc (tabGet 0 o.credits vc - n) else o.credits
    let l := if last then rest else { p with sent := p.sent + 1, waited := 0 } :: rest
    let s := s.setOxl x { (o.waitPkts (some vc)) with credits := credits, pkts := tabSet [] (o.waitPkts (some vc)).pkts vc l }
    s.oxReliable x vc kind (if kind = 3 then p.err else 0) (p.payload.getD p.sent [])

/-- One flit slot: the first item of R349 that is ready. -/
def State.oxSend (s : State) (x : Nat) : State :=
  let o := s.oxl x
  let room := decide (o.retry.length < 4096)
  match o.nak with
  | some e => (s.setOxl x { o with nak := none }).oxEmit x { kind := 5, ack := e } []
  | none =>
    match o.resend.bind fun q => o.retry.find? fun f => f.seq == q with
    | some f =>
      let next := (f.seq + 1) % 8192
      let s := s.setOxl x { o with resend := if o.retry.any fun g => g.seq == next then some next else none }
      (s.bump (OX.REPLAY_FLITS x) 1).oxEmit x { seq := f.seq, vc := f.vc, kind := f.kind, err := f.err != 0, ecause := f.err } f.payload
    | none =>
      match o.ctrl with
      | p :: rest =>
        if room then (s.setOxl x { o with ctrl := rest }).oxReliable x 0 6 0 p else s.oxEmit x {} []
      | [] =>
        match (if room && !o.held && s.oxState x == 6 then o.pickChan else none) with
        | some vc => s.sendPkt x vc
        | none => (s.setOxl x (o.waitPkts none)).oxEmit x {} []

/-- FRAME_SEND (R349): one flit slot of a port that exchanges identities or is in service. -/
def execFrameSend (x : BitVec 4) (s : State) : Res :=
  let x := x.toNat
  if s.oxState x ≠ 5 && s.oxState x ≠ 6 then .next s
  else
    let s := if s.oxState x = 6 && !(s.oxl x).held then (s.oxFromMesh x).oxFromSteward x else s
    .next (s.oxSend x)

/-! ### Receiving (R339, R340, R343-R346) -/

/-- A discard that is no duplicate: the first since the last acceptance sends a NAK. -/
def State.oxDiscard (s : State) (x : Nat) : State :=
  s.updOxl x fun o => if o.nakSent then o else { o with nak := some o.expect, nakSent := true }

/-- An ACK releases what it covers. -/
def State.oxAcked (s : State) (x ack : Nat) : State :=
  let o := s.oxl x
  let left := o.retry.filter fun f => decide (4096 ≤ seqSub ack f.seq)
  if left.length = o.retry.length then s
  else
    let keep := o.resend.bind fun q => if left.any fun f => f.seq == q then some q else left.head?.map OxFlit.seq
    (s.setOxl x { o with retry := left, resend := keep, ackAt := s.etc }).oxCount x

/-- A resend from a sequence number: the link-level retry event. -/
def State.oxResend (s : State) (x seq : Nat) : State :=
  let o := s.oxl x
  if o.retry.any fun f => f.seq == seq then ((s.setOxl x { o with resend := some seq }).bump (OX.RETRY_COUNT x) 1).inexactAll else s

/-- A whole packet is in its channel's buffer. -/
def Oxlux.complete (o : Oxlux) (vc : Nat) (p : OxRx) : Oxlux := { o with rx := tabSet [] o.rx vc (tabGet [] o.rx vc ++ [p]) }

/-- An accepted reliable flit reaches the packet layer. -/
def Oxlux.takeFlit (o : Oxlux) (etc : Nat) (c : OxCtl) (p : List Byte) : Oxlux :=
  match c.kind with
  | 4 => o.complete c.vc { payload := [p], err := 0 }
  | 1 => { o with parts := tabInsert o.parts c.vc { start := c.seq, payload := [p], at_ := etc, seqs := [c.seq] } }
  | 2 => match tabFind o.parts c.vc with
    | some q => { o with parts := tabInsert o.parts c.vc { q with payload := q.payload ++ [p], at_ := etc, seqs := q.seqs ++ [c.seq] } }
    | none => o
  | 3 => match tabFind o.parts c.vc with
    | some q => ({ o with parts := tabErase o.parts c.vc } : Oxlux).complete c.vc { payload := q.payload ++ [p], err := if c.err then c.ecause else 0 }
    | none => o
  | _ => o

/-- A reliable flit with a good CRC (R343). -/
def State.oxAccept (s : State) (x : Nat) (c : OxCtl) (p : List Byte) : State :=
  let o := s.oxl x
  if c.seq = o.expect then
    let o := { o with expect := (o.expect + 1) % 8192, nakSent := false }
    if o.skip.contains c.seq then s.setOxl x { o with skip := o.skip.filter (· != c.seq) } else s.setOxl x (o.takeFlit s.etc c p)
  else if 4096 ≤ seqSub c.seq o.expect then s
  else s.oxDiscard x

/-- One flit slot of a decoded frame. -/
def State.oxFlitIn (s : State) (x w : Nat) : State :=
  if !oxCrcOk w then (s.bump (OX.CRC_ERRORS x) 1).oxDiscard x
  else
    let c := oxCtlOf w
    let s := s.updOxl x fun o => { o with credits := tabSet 0 o.credits c.cvc (tabGet 0 o.credits c.cvc + c.credits) }
    if c.kind = 5 then s.oxResend x c.ack
    else
      let s := s.oxAcked x c.ack
      if c.kind = 0 || c.kind = 7 then s else s.oxAccept x c (leBytes 256 w)

/-- FRAME_RECEIVE (R340, R343): eight slots of a frame that decoded, or none. -/
def execFrameReceive (x : BitVec 4) (f : RxFrame) (s : State) : Res :=
  let x := x.toNat
  if s.oxState x ≠ 5 && s.oxState x ≠ 6 then .next s
  else
    let s := (s.bump (OX.FEC_CORRECTED x) f.corrected).bump (OX.FEC_UNCORRECTED x) f.uncorrected
    if f.uncorrected ≠ 0 then
      .next ((s.updOxl x fun o => { o with bad := o.bad + 1, searching := o.searching || decide (4 ≤ o.bad + 1) }).oxDiscard x)
    else
      let s := s.updOxl x fun o => { o with bad := 0, searching := false, cleanAt := s.etc }
      .next ((f.slots.take 8).foldl (fun s w => s.oxFlitIn x w.toNat) s)

/-- NAK (R344). -/
def execNak (x : BitVec 4) (seq : BitVec 13) (s : State) : Res := .next (s.oxResend x.toNat seq.toNat)

/-- RETRY_TIMEOUT (R344): 4 µs without progress of ACK. -/
def execRetryTimeout (x : BitVec 4) (s : State) : Res :=
  match (s.oxl x.toNat).retry with
  | [] => .next s
  | f :: _ => .next ((s.updOxl x.toNat fun o => { o with ackAt := s.etc }).oxResend x.toNat f.seq)

/-- PATIENCE_EXPIRED (R346): a partial packet is discarded. Flits of other packets accepted since its HEAD are not taken again
(R345). -/
def execPatienceExpired (x : BitVec 4) (vc : BitVec 2) (s : State) : Res :=
  let x := x.toNat
  let o := s.oxl x
  match tabFind o.parts vc.toNat with
  | none => .next s
  | some q =>
    let later := ((List.range (seqSub o.expect q.start)).map fun i => (q.start + i) % 8192).filter fun n => !q.seqs.contains n
    let o := { o with parts := tabErase o.parts vc.toNat, expect := q.start, skip := o.skip ++ later, nak := some q.start, nakSent := true,
                      owe := tabSet 0 o.owe vc.toNat (tabGet 0 o.owe vc.toNat + q.payload.length) }
    .next ((s.setOxl x o).setFlag (OX.STATUS x) OX.STATUS_PATIENCE_EXPIRED true)

/-! ### Outcomes at the requester (R350, R354) -/

/-- An outbound transaction ends. -/
def State.oxOutEnd (s : State) (x : Nat) (out : OxOut) (cause : Nat) (data : List Byte) (code : Option Nat) : State :=
  let data := if cause = 0 then data else []
  if out.mesh then s.meshRespond (oxEnd x) out.back out.who cause data
  else match out.who with
    | .courier c ch id j src => s.answerCourier c ch id j src cause data (if cause = 0 then code else none)
    | w => s.answer w cause data

/-- A tag is free again. -/
def State.oxFree (s : State) (x t : Nat) : State := (s.updOxl x fun o => { o with tags := tabErase o.tags t }).oxCount x

/-- LINK_FAILED (R347). -/
def execLinkFailed (x : BitVec 4) (s : State) : Res :=
  let x := x.toNat
  if s.oxState x ≠ 6 then .next s
  else
    let o := s.oxl x
    let s := s.setOxl x { o with pkts := [], retry := [], resend := none, nak := none, parts := [], skip := [], tags := [], reqs := [], downAt := s.etc,
                                 rx := tabMap [] (fun _ l => l.map fun p => { p with drop := true }) o.rx,
                                 ins := o.ins.map fun i => { i with drop := true } }
    let s := (((s.oxEnter x 7).satFld (OX.DOWN_COUNT x) OX.DOWN_COUNT_COUNT 1).setFlag (OX.STATUS x) OX.STATUS_DOWN_EVENT true).oxCount x
    let s := (s.linkEvent x).raise iLINK_DOWN
    let s := o.tags.foldl (fun s t => ((s.oxLog x cLINK_DOWN t.1 0 false).busError cLINK_DOWN (srcOx x) 0 0).oxOutEnd x t.2 cLINK_DOWN [] none) s
    .next (o.reqs.foldl (fun s r => (s.busError cLINK_DOWN (srcOx x) 0 0).oxOutEnd x
      { who := r.who, back := r.back, read := r.opc == 0x01, n := r.n, vc1 := 0, mesh := r.mesh } cLINK_DOWN [] none) s)

/-! ### Inbound packets (R351-R356) -/

/-- Whether every reserved field of a header is zero. -/
def hdrClean (l : List Byte) : Bool :=
  leAt l 1 1 / 2 == 0 && leAt l 6 1 / 64 == 0 && leAt l 8 8 / 2 ^ 40 == 0 && leAt l 20 1 / 64 == 0 && leAt l 21 1 / 64 == 0 &&
    leAt l 25 1 / 2 == 0 && (leAt l 0 1 == 0x05 || leAt l 26 102 == 0) && (leAt l 0 1 != 0x05 || leAt l 26 38 == 0)

/-- Whether an opcode is one of Table 11.8. -/
def opcKnown (o : Nat) : Bool := [0x01, 0x02, 0x03, 0x04, 0x05, 0x81, 0x82].contains o

def OxRx.head (p : OxRx) : List Byte := p.payload.getD 0 []

/-- The first packet of a channel. -/
def State.rxHead (s : State) (x vc : Nat) : Option OxRx := (tabGet [] (s.oxl x).rx vc).head?

/-- The first packet leaves its buffer: its credits return (R348). -/
def State.rxPop (s : State) (x vc : Nat) : State :=
  s.updOxl x fun o => match tabGet [] o.rx vc with
    | [] => o
    | p :: t => { o with rx := tabSet [] o.rx vc t, owe := tabSet 0 o.owe vc (tabGet 0 o.owe vc + p.payload.length) }

/-- The data of a packet: inline, or its data flits. -/
def OxRx.data (p : OxRx) (h : OxHdr) : List Byte :=
  let n := if h.opc = 0x04 then 256 * (p.payload.length - 1) else h.len
  (if p.payload.length = 1 then p.head.drop 128 else (p.payload.drop 1).flatMap fun l => l).take n

/-- The first three checks of Table 9.6; 0 when they pass. -/
def State.inwinCheck (s : State) (x : Nat) (h : OxHdr) : Nat :=
  let r := CTU.INWIN_CTRL h.inwin
  if !s.flag r CTU.INWIN_CTRL_VALID || !bitOf (s.fld r CTU.INWIN_CTRL_PORT_MASK) x then cWINDOW_INVALID
  else if s.fld (CTU.INWIN_LIMIT h.inwin) CTU.INWIN_LIMIT_LIMIT < h.off + h.len then cWINDOW_LIMIT
  else if !s.flag r (if h.opc = 0x01 then CTU.INWIN_CTRL_RD else if h.opc = 0x02 then CTU.INWIN_CTRL_WR else CTU.INWIN_CTRL_ADD) then cWINDOW_PERM
  else 0

/-- An inbound request of one opcode at the head of its channel is taken, checked and sent to the CTU; while the port is fenced
it is answered with FENCED (R353, R356). -/
def State.oxInbound (s : State) (x opc : Nat) : State :=
  let vc := oxVc opc
  if (s.oxl x).held then s
  else match s.rxHead x vc with
    | none => s
    | some p =>
      let h := hdrOf p.head
      if h.opc ≠ opc || !hdrClean p.head then s
      else
        let s := s.rxPop x vc
        let k := (s.oxl x).nextIn
        let i : OxIn := { k := k, hdr := p.head, data := p.data h, left := 1, cause := causeOfE p.err, drop := p.drop }
        let s := s.updOxl x fun o => { o with ins := o.ins ++ [i], nextIn := k + 1 }
        if s.flag (OX.CTRL x) OX.CTRL_FENCE then s.oxFail x k cFENCED h.off
        else
          let c := s.inwinCheck x h
          if c ≠ 0 then s.oxFail x k c h.off
          else
            let dva := (s.fld (CTU.INWIN_BASE h.inwin) CTU.INWIN_BASE_BASE + h.off) % 2 ^ 57
            s.lookupSend (96 + x) { ast := s.fld (CTU.INWIN_CTRL h.inwin) CTU.INWIN_CTRL_AST, dva := dva, write := oxWrites opc, who := .oxlux x k, launch := 0 }

/-- OXLUX_READ (R353). -/
def execOxluxRead (x : BitVec 4) (s : State) : Res := .next (s.oxInbound x.toNat 0x01)
/-- OXLUX_WRITE (R353). -/
def execOxluxWrite (x : BitVec 4) (s : State) : Res := .next (s.oxInbound x.toNat 0x02)
/-- OXLUX_ADD (R353). -/
def execOxluxAdd (x : BitVec 4) (s : State) : Res := .next (s.oxInbound x.toNat 0x03)
/-- OXLUX_REDUCE (R353). -/
def execOxluxReduce (x : BitVec 4) (s : State) : Res := .next (s.oxInbound x.toNat 0x04)

/-- A response reaches the requesting port: the transaction ends, and a request that waits takes the tag. -/
def State.oxResponse (s : State) (x opc : Nat) : State :=
  match s.rxHead x 1 with
  | none => s
  | some p =>
    let h := hdrOf p.head
    if h.opc ≠ opc || !hdrClean p.head then s
    else
      let s := s.rxPop x 1
      match tabFind (s.oxl x).tags h.tag with
      | none => s
      | some out =>
        let cause := if h.status ≠ 0 then h.status else causeOfE p.err
        let s := s.oxFree x h.tag
        let s := if cause = 0 then s else s.oxLog x cause h.tag 0 false
        (s.oxOutEnd x out cause (p.data h) h.code).oxAdmit x

/-- OXLUX_READ_RESP (R354). -/
def execOxluxReadResp (x : BitVec 4) (s : State) : Res := .next (s.oxResponse x.toNat 0x81)
/-- OXLUX_ACK (R355). -/
def execOxluxAck (x : BitVec 4) (s : State) : Res := .next (s.oxResponse x.toNat 0x82)

/-- INBOUND_NO_SLOT (Table 11.9): the oldest scheduled request that has waited 4,096 slots ends. -/
def execInboundNoSlot (x : BitVec 4) (s : State) : Res :=
  let q := oxX x.toNat
  match (s.xops q).find? fun o => o.due.isNone && decide (4096 ≤ o.age) && (match o.who with
      | .oxlux _ _ => true
      | _ => false) with
  | none => .next s
  | some o => .next ((s.busError cNO_SLOT (srcOx x.toNat) 0 o.addr).opEnd q o cNO_SLOT none)

/-- Whether a STEWARD packet has a type that Tables 13.7 and 14.8 and R493 list, and zeros in its reserved bytes (the bytes that
R493 does not list are held to be zero). -/
def stewardClean (l : List Byte) : Bool :=
  let t := leAt l 64 1
  if t = 0x10 || t = 0x11 then leAt l 65 1 == 0 && leAt l 82 46 == 0
  else if t = 0x20 then leAt l 80 48 == 0
  else t == 0x21 && leAt l 68 2 == 0 && leAt l 80 48 == 0

/-- Whether a packet breaks R352. -/
def OxRx.bad (p : OxRx) : Bool :=
  !opcKnown (leAt p.head 0 1) || !hdrClean p.head || (leAt p.head 0 1 == 0x05 && !stewardClean p.head)

/-- RESERVED_OPC_PACKET (R352): discarded and logged; a request is answered with PROTOCOL. -/
def execReservedOpcPacket (x : BitVec 4) (s : State) : Res :=
  let x := x.toNat
  match ([0, 2, 1, 3] : List Nat).findSome? fun vc => (s.rxHead x vc).bind fun p => if p.bad then some (vc, p) else none with
  | none => .next s
  | some (vc, p) =>
    let h := hdrOf p.head
    let s := (s.rxPop x vc).oxLog x 0 h.tag h.inwin true
    if (vc = 0 || vc = 2) && !p.drop then
      .next ((s.busError cPROTOCOL (srcOx x) 0 h.off).oxPush x 1
        { payload := [({ opc := if h.opc = 0x01 then 0x81 else 0x82, tag := h.tag, len := h.len, status := cPROTOCOL } : OxHdr).bytes []] })
    else .next s

end Sys2Proof.Machine
end

