-- ==== Sys2Proof/Machine/Rails.lean ====
section
/-!
DEFINITION. Sys2Proof/Machine/Rails.lean: the integrated regulators (R393-R396) and the pins of an upper site's supply
(R365, R407).
-/

namespace Sys2Proof.Machine

/-! ### Rails (Table 13.2) -/

def rCore (u : Nat) : Nat := 18 + u
def rIo (u : Nat) : Nat := 22 + u

/-- Whether a rail has an adaptive voltage loop. -/
def railAdaptive (r : Nat) : Bool := decide (r < 15)

/-- The phases of a rail. -/
def railPhases (r : Nat) : Nat :=
  if r = 0 then 4 else if r ≤ 2 then 12 else if r ≤ 10 then 4 else if r ≤ 12 then 6 else if r ≤ 14 then 2
  else if r = 15 then 16 else if r = 16 then 4 else if r = 17 then 16 else if r ≤ 21 then 32 else 1

def State.updPower (s : State) (f : Power → Power) : State := { s with power := f s.power }

def State.railOn (s : State) (r : Nat) : Bool := s.flag (PT.RAIL r) PT.RAIL_ON
def State.railEnabled (s : State) (r : Nat) : Bool := bitOf s.power.enabled r

/-- Enable a rail: it reaches regulation later. -/
def State.railEnable (s : State) (r : Nat) : State := s.updPower fun p => { p with enabled := putBits p.enabled r r 1 }

/-- Switch a rail off: nothing is left of its voltage and current. -/
def State.railOff (s : State) (r : Nat) : State :=
  (s.updPower fun p => { p with enabled := putBits p.enabled r r 0, limitSince := if 18 ≤ r && r < 22 then tabErase p.limitSince (r - 18) else p.limitSince }).setReg
    (PT.RAIL r) 0

def State.railsOff (s : State) (l : List Nat) : State := l.foldl (fun s r => s.railOff r) s

/-! ### Zones (13) -/

def State.zone (s : State) (z : Nat) : Zone := tabGet {} s.power.zones z
def State.updZone (s : State) (z : Nat) (f : Zone → Zone) : State :=
  s.updPower fun p => { p with zones := tabSet {} p.zones z (f (tabGet {} p.zones z)) }

/-- The zone that holds a site's interface (Table 1.2). -/
def zoneOfUpper (u : Nat) : Nat := if u < 2 then 8 + u else 18 + u

/-! ### Supply of an upper site -/

/-- VUPn switched off: POWERED, PG and RST_N follow. -/
def State.vupOff (s : State) (u : Nat) : State :=
  let s := s.railsOff [rCore u, rIo u]
  let s := s.updUpper u fun v => { v with phase := 0, rstN := false, pg := false, retrain := 0 }
  (((s.setFlag (UP.STATUS u) UP.STATUS_POWERED false).setFld (UP.PORTS u) UP.PORTS_ACTIVE 0).setFld (UP.POWER u) UP.POWER_CORE_MV 0).setFlag
    (UP.TEMP u) UP.TEMP_VALID false

/-- VUPn.IO and VUPn.CORE are enabled in turn (Table 12.5, step 2). -/
def State.vupStart (s : State) (u : Nat) : State := s.railEnable (rIo u)

/-- VUPn.CORE at a voltage. -/
def State.setCoreMv (s : State) (u mv : Nat) : State :=
  (s.setFld (UP.POWER u) UP.POWER_CORE_MV mv).setFld (PT.RAIL (rCore u)) PT.RAIL_MV mv

end Sys2Proof.Machine
end

