-- ==== Sys2Proof/Machine/Upper.lean ====
section
/-!
DEFINITION. Sys2Proof/Machine/Upper.lean: the upper sites (12): the commands and beats of a compute die (R370-R378), bond errors
and their recovery (R379, R380), bring-up and the sideband (R381-R387), and the site's fence, reset and seal (R384).
-/

namespace Sys2Proof.Machine

def srcUp (u : Nat) : Nat := srcOf 10 u

/-! ### Sideband messages (R383, Table 12.6) -/

/-- A message of the bytes given, with its CRC. -/
def sbMessage (l : List Byte) : BitVec 256 :=
  let w := leVal (padTo 30 l)
  BitVec.ofNat 256 (w + 2 ^ 240 * crc16 240 w 0xFFFF)

def sbCrcOk (m : BitVec 256) : Bool := bitsOf m.toNat 255 240 == crc16 240 m.toNat 0xFFFF
/-- `n` bytes of a message from byte `i`. -/
def sbField (m : BitVec 256) (i n : Nat) : Nat := bitsOf m.toNat (8 * (i + n) - 1) (8 * i)
def sbType (m : BitVec 256) : Nat := sbField m 0 1

def State.sbSend (s : State) (u : Nat) (l : List Byte) : State :=
  s.updUpper u fun v => { v with msgs := v.msgs ++ [sbMessage l] }

/-- ACTIVE: the ports in service. -/
def State.sendActive (s : State) (u : Nat) : State := s.sbSend u ([4] ++ leBytes 3 (s.fld (UP.PORTS u) UP.PORTS_ACTIVE))

/-- A UNIT entry of a site. -/
def State.upEvent (s : State) (u what : Nat) : State := s.unitEvent (srcUp u) (s.reg (UP.STATUS u)).toNat what

/-! ### Commands and beats (R370-R372, R378) -/

/-- Every command of the ports that `p` names ends in a cause. -/
def State.upEndAll (s : State) (u : Nat) (p : Nat → Bool) (cause : Nat) (logged : Bool) : State :=
  let s := ((List.range 20).filter p).foldl (fun s k =>
    let q := upX u k
    (s.xops q).foldl (fun s o => match o.who with
      | .upper _ _ tag wr =>
        let s := s.dropOp q o
        if logged then s.upEnd u k tag wr cause o.addr true else s.upRefuse u k tag wr cause
      | _ => s) s) s
  s.upCount u

/-- A flit fails its CRC at either end (R379): the port alone is fenced, and its commands end. -/
def State.upCrcFail (s : State) (u p : Nat) : State :=
  if !bitOf (s.fld (UP.PORTS u) UP.PORTS_ACTIVE) p then s
  else
    let f := s.fld (UP.PORT_FENCED u) UP.PORT_FENCED_PORT
    let s := s.setFld (UP.PORT_FENCED u) UP.PORT_FENCED_PORT (putBits f p p 1)
    let s := s.setFld (UP.PORTS u) UP.PORTS_ACTIVE (putBits (s.fld (UP.PORTS u) UP.PORTS_ACTIVE) p p 0)
    let s := ((s.bump (UP.CRC_ERRORS u) 1).upLog u p false 0 cUP_CRC).busError cUP_CRC (srcUp u) 0 0
    ((s.raise iUP_FAULT).upEndAll u (· == p) cUP_CRC false).sendActive u

/-- Whether an aperture in force grants a command (R370). -/
def State.apertureOk (s : State) (u tile : Nat) (write : Bool) : Bool :=
  (List.range 8).any fun i =>
    let r := UP.APERTURE u i
    s.flag r UP.APERTURE_VALID && decide (s.fld r UP.APERTURE_BASE_TILE ≤ tile) &&
      decide (tile ≤ min 196607 (s.fld r UP.APERTURE_LIMIT_TILE)) && s.flag r (if write then UP.APERTURE_WR else UP.APERTURE_RD)

/-- The cause for which a port refuses a command, 0 for none (Table 12.8). -/
def State.upCheck (s : State) (u p tag tile : Nat) (write : Bool) : Nat :=
  let mine := (s.xops (upX u p)).filter fun o => ofSite u o && o.write == write
  if !s.upLive u p then cFENCED
  else if mine.any (fun o => o.who == .upper u p tag write) || (write && decide (4 ≤ mine.length)) then cUP_OVERRUN
  else if !s.apertureOk u tile write then cAPERTURE
  else 0

/-- A command of a flit. -/
def State.upCommand (s : State) (u p : Nat) (h : UpHdr) : State :=
  if h.ckind ≠ 1 && h.ckind ≠ 2 then s
  else
    let wr := h.ckind == 2
    let cause := s.upCheck u p h.ctag h.ctile wr
    if cause ≠ 0 then s.upEnd u p h.ctag wr cause (4096 * h.ctile) true
    else s.xPush (upX u p) { port := (upX u p).port, write := wr, addr := 4096 * h.ctile, n := 4096, ready := !wr, whole := true,
                             expect := if wr && h.codeValid then some h.code else none, who := .upper u p h.ctag wr }

/-- A write beat of a flit: taken in beat order, or refused (R372). -/
def State.upBeatIn (s : State) (u p : Nat) (h : UpHdr) (data : List Byte) : State :=
  if h.pkind ≠ 1 && h.pkind ≠ 2 then s
  else
    let q := upX u p
    match (s.xops q).find? fun o => o.who == .upper u p h.ptag true with
    | none => s.upEnd u p h.ptag true (if s.upLive u p then cPROTOCOL else cFENCED) 0 true
    | some o =>
      if o.data.length ≠ 256 * h.pbeat || o.ready then (s.dropOp q o).upEnd u p h.ptag true cPROTOCOL o.addr true
      else s.updOp q o fun o => { o with data := o.data ++ data, ready := decide (h.pbeat = 15), age := 0 }

/-- A flit with a reserved field that is not zero (Table 12.8): what it brings is refused. -/
def State.upReserved (s : State) (u p : Nat) (h : UpHdr) : State :=
  let cmd := h.ckind = 1 || h.ckind = 2
  let s := if cmd then s.upEnd u p h.ctag (h.ckind == 2) cPROTOCOL (4096 * h.ctile) true else s
  let q := upX u p
  if h.pkind ≠ 0 && !(h.ckind == 2 && h.ctag == h.ptag) then
    let s := match (s.xops q).find? fun o => o.who == .upper u p h.ptag true with
      | some o => s.dropOp q o
      | none => s
    s.upEnd u p h.ptag true cPROTOCOL 0 true
  else if cmd then s
  else (s.upLog u p false 0 cPROTOCOL).busError cPROTOCOL (srcUp u) 0 0

/-- A flit of a compute die (R368-R372, R379). -/
def State.upReceive (s : State) (u p : Nat) (flit : Nat) : State :=
  if 20 ≤ p || (s.upper u).phase ≠ 4 then s
  else if !upCrcOk flit then s.upCrcFail u p
  else
    let h := upHdrOf flit
    let s := if h.reserved ≠ 0 || h.slot ≠ 0 || h.ckind = 3 || h.pkind = 3 then s.upReserved u p h
      else (s.upCommand u p h).upBeatIn u p h (upPayload flit)
    s.upCount u

/-- UP_READ (R370, R371). -/
def execUpRead (u : BitVec 2) (p : BitVec 5) (flit : BitVec 2176) (s : State) : Res := .next (s.upReceive u.toNat p.toNat flit.toNat)
/-- UP_WRITE (R370, R372). -/
def execUpWrite (u : BitVec 2) (p : BitVec 5) (flit : BitVec 2176) (s : State) : Res := .next (s.upReceive u.toNat p.toNat flit.toNat)
/-- UP_WRITE_BEAT (R372). -/
def execUpWriteBeat (u : BitVec 2) (p : BitVec 5) (flit : BitVec 2176) (s : State) : Res := .next (s.upReceive u.toNat p.toNat flit.toNat)

/-- UP_NO_SLOT (R378): 4,096 slots after it became eligible, a command without a run ends. -/
def execUpNoSlot (u : BitVec 2) (p : BitVec 5) (write : Bool) (tag : BitVec 6) (s : State) : Res :=
  let q := upX u.toNat p.toNat
  match (s.xops q).find? fun o => o.who == .upper u.toNat p.toNat tag.toNat write with
  | none => .next s
  | some o =>
    if o.ready && o.due.isNone && decide (4096 + upWaits write ≤ o.age) then
      .next (((s.dropOp q o).upEnd u.toNat p.toNat tag.toNat write cNO_SLOT o.addr true).upCount u.toNat)
    else .next s

/-- WRITE_BEATS_TIMEOUT (R378): the beats are discarded and the tag is free again. -/
def execWriteBeatsTimeout (u : BitVec 2) (p : BitVec 5) (tag : BitVec 6) (s : State) : Res :=
  let q := upX u.toNat p.toNat
  match (s.xops q).find? fun o => o.who == .upper u.toNat p.toNat tag.toNat true with
  | none => .next s
  | some o =>
    if !o.ready && decide (4096 ≤ o.born) then
      .next (((s.dropOp q o).upEnd u.toNat p.toNat tag.toNat true cPROTOCOL o.addr true).upCount u.toNat)
    else .next s

/-! ### Bring-up (R381, R382) -/

/-- A step of Table 12.5 fails: logged, VUPn off, the site absent. -/
def State.upFails (s : State) (u : Nat) : State :=
  let s := (s.setFlag (UP.STATUS u) UP.STATUS_PRESENT false).setFlag (UP.STATUS u) UP.STATUS_RESET_BUSY false
  ((s.setFlag (UP.CTRL u) UP.CTRL_RESET false).vupOff u).upEvent u 0

/-- Steps 1 and 2: an empty site stays off. -/
def State.upBringUp (s : State) (u : Nat) : State := if (s.upper u).presentN then s else s.vupStart u

/-- RESET_RELEASE (Table 12.5, step 4). -/
def execResetRelease (u : BitVec 2) (s : State) : Res :=
  .next (if (s.upper u.toNat).phase = 1 then s.updUpper u.toNat fun v => { v with phase := 2, rstN := true } else s)

/-- Whether IDENT is accepted (R382). LIMIT_W above 450 acts as 450. -/
def State.identOk (s : State) (u : Nat) (m : BitVec 256) : Bool :=
  sbField m 1 1 == 1 && sbField m 7 3 % 2 ^ 20 != 0 && decide (1 ≤ sbField m 10 2) &&
    decide (sbField m 10 2 ≤ min 450 (s.fld (UP.POWER u) UP.POWER_LIMIT_W)) &&
    decide (600 ≤ sbField m 12 2) && decide (sbField m 12 2 ≤ 950) && sbField m 12 2 % 5 == 0

/-- An accepted IDENT (Table 12.5, step 5). -/
def State.identTake (s : State) (u : Nat) (m : BitVec 256) : State :=
  let r := UP.IDENT u
  let s := (((((s.setFld r UP.IDENT_VERSION (sbField m 1 1)).setFld r UP.IDENT_VENDOR (sbField m 2 2)).setFld r UP.IDENT_PART
    (sbField m 4 2)).setFld r UP.IDENT_REVISION (sbField m 6 1)).setFld r UP.IDENT_FLAGS (sbField m 14 1)).setReg (UP.DIE_SERIAL u)
    (BitVec.ofNat 64 (sbField m 15 8))
  let s := ((s.setFlag (UP.STATUS u) UP.STATUS_PRESENT true).setFld (UP.POWER u) UP.POWER_GRANTED_W (sbField m 10 2)).setCoreMv u (sbField m 12 2)
  let mask := sbField m 7 3 % 2 ^ 20
  (s.updUpper u fun v => { v with phase := 3, mask := mask }).sbSend u ([2] ++ leBytes 1 u ++ leBytes 3 mask ++ leBytes 2 (sbField m 10 2))

/-- IDENT (R382). A message whose CRC fails is discarded (R383), as in every message below. -/
def execIdent (u : BitVec 2) (msg : BitVec 256) (s : State) : Res :=
  let u := u.toNat
  if (s.upper u).phase ≠ 2 || !sbCrcOk msg then .next s
  else if sbType msg ≠ 1 then .refused .wrongWord
  else .next (if s.identOk u msg then s.identTake u msg else s.upFails u)

/-- IDENT_TIMEOUT: the site is absent. -/
def execIdentTimeout (u : BitVec 2) (s : State) : Res :=
  .next (if (s.upper u.toNat).phase = 2 then s.upFails u.toNat else s)

/-- Whether a group trained: at most 8 spares take the place of failed bonds. -/
def groupUp (g : GroupTraining) : Bool := g.trained && decide (g.spares.toNat ≤ 8)

/-- UP.GROUP of the ports that `p` names: RG as the die reports it, WG as the base die finds it. -/
def State.setGroups (s : State) (u : Nat) (p : Nat → Bool) (die : Nat) (groups : List GroupTraining) : State :=
  (List.range 40).foldl (fun s g =>
    if !p (g % 20) then s
    else
      let t := groups.getD g ⟨false, 0⟩
      let up := groupUp t && (decide (20 ≤ g) || bitOf die g)
      (s.setFld (UP.GROUP u g) UP.GROUP_SPARES_USED (min 8 t.spares.toNat)).setFlag (UP.GROUP u g) UP.GROUP_TRAINED up) s

/-- The ports whose two groups trained. -/
def State.trainedPorts (s : State) (u : Nat) (p : Nat → Bool) : Nat :=
  (List.range 20).foldl (fun m k =>
    if p k && s.flag (UP.GROUP u k) UP.GROUP_TRAINED && s.flag (UP.GROUP u (20 + k)) UP.GROUP_TRAINED then m + 2 ^ k else m) 0

/-- The mask of the write groups that trained, as the base die's own TRAIN_RESULT. -/
def State.sendTrainResult (s : State) (u : Nat) (p : Nat → Bool) : State :=
  let m := (List.range 20).foldl (fun m k => if p k && s.flag (UP.GROUP u (20 + k)) UP.GROUP_TRAINED then m + 2 ^ k else m) 0
  s.sbSend u ([3] ++ leBytes 3 m)

/-- Ports enter service. -/
def State.activate (s : State) (u ports : Nat) : State :=
  let f := s.fld (UP.PORT_FENCED u) UP.PORT_FENCED_PORT
  let s := s.setFld (UP.PORT_FENCED u) UP.PORT_FENCED_PORT (f - Nat.land f ports)
  s.setFld (UP.PORTS u) UP.PORTS_ACTIVE (Nat.lor (s.fld (UP.PORTS u) UP.PORTS_ACTIVE) ports)

/-- TRAIN_RESULT (Table 12.5, steps 6 and 7; R380, steps 4 and 5). -/
def execTrainResult (u : BitVec 2) (msg : BitVec 256) (groups : List GroupTraining) (s : State) : Res :=
  let u := u.toNat
  let v := s.upper u
  let on := if v.phase = 3 then v.mask else if v.phase = 4 then v.retrain else 0
  if on = 0 || !sbCrcOk msg then .next s
  else if sbType msg ≠ 3 then .refused .wrongWord
  else
    let s := s.setGroups u (bitOf on) (sbField msg 1 3) groups
    let s := (s.sendTrainResult u (bitOf on)).activate u (s.trainedPorts u (bitOf on))
    let s := s.updUpper u fun v => { v with phase := 4, retrain := 0 }
    let s := (s.setFlag (UP.CTRL u) UP.CTRL_RESET false).setFlag (UP.STATUS u) UP.STATUS_RESET_BUSY false
    let s := s.setFlag (UP.STATUS u) UP.STATUS_FENCED (s.flag (UP.CTRL u) UP.CTRL_FENCE)
    .next (s.sendActive u)

/-! ### The sideband in service (R385, R387) -/

/-- VSET (R385): a request that cannot be set is answered with the unchanged value. -/
def execVset (u : BitVec 2) (msg : BitVec 256) (s : State) : Res :=
  let u := u.toNat
  if (s.upper u).phase < 3 || !sbCrcOk msg then .next s
  else if sbType msg ≠ 5 then .refused .wrongWord
  else
    let mv := sbField msg 1 2
    let s := if 600 ≤ mv && mv ≤ 950 && mv % 5 = 0 then s.setCoreMv u mv else s
    .next (s.sbSend u ([6] ++ leBytes 2 (s.fld (UP.POWER u) UP.POWER_CORE_MV)))

/-- An external sensor is broken. -/
def State.extBreak (s : State) (z k : Nat) : State :=
  (s.setFld (PT.ZONE_BROKEN z) PT.ZONE_BROKEN_EXT (putBits (s.fld (PT.ZONE_BROKEN z) PT.ZONE_BROKEN_EXT) k k 1)).updZone z
    fun v => { v with extGood := tabSet 0 v.extGood k 0 }

/-- A good reading of an external sensor: the tenth in a row returns a broken one to service (R400). -/
def State.extGoodReading (s : State) (z k : Nat) : State :=
  let b := s.fld (PT.ZONE_BROKEN z) PT.ZONE_BROKEN_EXT
  if !bitOf b k then s
  else
    let n := tabGet 0 (s.zone z).extGood k + 1
    let s := s.updZone z fun v => { v with extGood := tabSet 0 v.extGood k (if n = 10 then 0 else n) }
    if n = 10 then s.setFld (PT.ZONE_BROKEN z) PT.ZONE_BROKEN_EXT (putBits b k k 0) else s

/-- THERMAL (R387): the die's hottest temperature. -/
def execThermal (u : BitVec 2) (msg : BitVec 256) (s : State) : Res :=
  let u := u.toNat
  if (s.upper u).phase < 2 || !sbCrcOk msg then .next s
  else if sbType msg ≠ 7 then .refused .wrongWord
  else .next (((s.setFld (UP.TEMP u) UP.TEMP_CELSIUS (sbField msg 1 1)).setFlag (UP.TEMP u) UP.TEMP_VALID true).extGoodReading (zoneOfUpper u) 0)

/-- DIE_THERMAL_TIMEOUT (R387): the samples that follow read the die as a broken sensor (Table 13.3). -/
def execDieThermalTimeout (u : BitVec 2) (s : State) : Res :=
  .next (if (s.upper u.toNat).phase < 4 then s
    else (s.setFlag (UP.TEMP u.toNat) UP.TEMP_VALID false).extBreak (zoneOfUpper u.toNat) 0)

/-- ERROR (R379): a CRC failure that the die found. -/
def execError (u : BitVec 2) (msg : BitVec 256) (s : State) : Res :=
  if (s.upper u.toNat).phase ≠ 4 || !sbCrcOk msg then .next s
  else if sbType msg ≠ 8 then .refused .wrongWord
  else .next (s.upCrcFail u.toNat (sbField msg 1 1))

/-- UP_PORT_RETRAIN (R380): RETRAIN names each fenced port that is written. -/
def execUpPortRetrain (u : BitVec 2) (mask : BitVec 20) (s : State) : Res :=
  let u := u.toNat
  if (s.upper u).phase ≠ 4 then .next s
  else .next ((ones 20 (Nat.land mask.toNat (s.fld (UP.PORT_FENCED u) UP.PORT_FENCED_PORT))).foldl (fun s p =>
    (s.updUpper u fun v => { v with retrain := putBits v.retrain p p 1 }).sbSend u ([9] ++ leBytes 1 p)) s)

/-- UNLISTED_SIDEBAND_MESSAGE (R383): discarded and logged. A listed message that only the base die sends is discarded. -/
def execUnlistedSidebandMessage (u : BitVec 2) (msg : BitVec 256) (s : State) : Res :=
  let ty := sbType msg
  if (s.upper u.toNat).phase < 2 || !sbCrcOk msg then .next s
  else if ty = 1 || ty = 3 || ty = 5 || ty = 7 || ty = 8 then .refused .wrongWord
  else if ty = 2 || ty = 4 || ty = 6 || ty = 9 then .next s
  else .next (s.busError cPROTOCOL (srcUp u.toNat) 0 0)

/-- ALARM_N_CHANGE (R387): the next sample of the zone acts on it. -/
def execAlarmNChange (u : BitVec 2) (low : Bool) (s : State) : Res :=
  .next ((s.setFlag (UP.STATUS u.toNat) UP.STATUS_ALARM low).setFlag (PT.ZONE_STATUS (zoneOfUpper u.toNat)) PT.ZONE_STATUS_ALARM low)

/-! ### Fence, reset and seal (R384, R390) -/

/-- A site is fenced; a leg that uses it is killed (R476). -/
def State.fenceUpper (s : State) (u : Nat) : State :=
  if s.flag (UP.STATUS u) UP.STATUS_FENCED then s
  else
    let s := (s.setFlag (UP.STATUS u) UP.STATUS_FENCED true).killUsers (fun q => (List.range 20).any fun p => q == upX u p) (srcUp u)
    s.upEvent u 1

def State.upHere (s : State) (u : Nat) : Bool := s.flag (UP.STATUS u) UP.STATUS_PRESENT

/-- UPPER_SITE_FENCE: new commands end with FENCED and its runs pass unused. -/
def execUpperSiteFence (u : BitVec 2) (s : State) : Res :=
  .next (if s.upHere u.toNat then (s.setFlag (UP.CTRL u.toNat) UP.CTRL_FENCE true).fenceUpper u.toNat else s)

/-- The fence is taken off. -/
def State.unfenceUpper (s : State) (u : Nat) : State :=
  if !s.flag (UP.STATUS u) UP.STATUS_FENCED || s.flag (UP.STATUS u) UP.STATUS_RESET_BUSY then s.setFlag (UP.CTRL u) UP.CTRL_FENCE false
  else ((s.setFlag (UP.CTRL u) UP.CTRL_FENCE false).setFlag (UP.STATUS u) UP.STATUS_FENCED false).upEvent u 2

/-- Steps 1 to 3 of R384. -/
def State.upSwitchOff (s : State) (u : Nat) : State := ((s.fenceUpper u).upEndAll u (fun _ => true) cFENCED true).vupOff u

/-- A compute-part reset of the site (R384): its ports are fenced, its supply is off, and it comes up again. -/
def State.resetUpper (s : State) (u : Nat) : State :=
  let s := ((s.setFlag (UP.CTRL u) UP.CTRL_RESET true).setFlag (UP.STATUS u) UP.STATUS_RESET_BUSY true).upSwitchOff u
  ((s.updUpper u fun v => { v with level := [], lost := [] }).upEvent u 3).upBringUp u

/-- UPPER_SITE_RESET (R384). A site that R407 has switched off is absent until this write. -/
def execUpperSiteReset (u : BitVec 2) (s : State) : Res :=
  .next (if s.upHere u.toNat && !s.flag (UP.STATUS u.toNat) UP.STATUS_RESET_BUSY then s.resetUpper u.toNat else s)

/-- UP_SEAL: UP.POWER.LIMIT_W is sealed until the next power-good. -/
def execUpSeal (u : BitVec 2) (s : State) : Res :=
  let s := s.setFlag (UP.CTRL u.toNat) UP.CTRL_SEAL true
  .next (s.setFld GLB.SEALS GLB.SEALS_UP (putBits (s.fld GLB.SEALS GLB.SEALS_UP) u.toNat u.toNat 1))

end Sys2Proof.Machine
end

