-- ==== Sys2Proof/Machine/Throttle.lean ====
section
/-!
DEFINITION. Sys2Proof/Machine/Throttle.lean: thermal zones and the levels that they request (R402-R406, R413, R415), and the
notices of R403.
-/

namespace Sys2Proof.Machine

def zNORMAL : Nat := 0
def zWARNING : Nat := 1
def zTHROTTLE : Nat := 2
def zSHUTDOWN : Nat := 3

def State.zoneState (s : State) (z : Nat) : Nat := s.fld (PT.ZONE_STATUS z) PT.ZONE_STATUS_STATE
def State.zoneReading (s : State) (z : Nat) : Int := sextOf 12 (s.fld (PT.ZONE_STATUS z) PT.ZONE_STATUS_READING)
def State.zoneDeferred (s : State) (z : Nat) : Bool := s.flag (PT.ZONE_STATUS z) PT.ZONE_STATUS_DEFERRED

/-- HBM zones, interface zones, and the upper site that each belongs to (Table 1.2). -/
def hbmZone (z : Nat) : Bool := decide (z % 12 < 4)
def faceZone (z : Nat) : Bool := z % 12 == 8 || z % 12 == 9
def zoneUpper (z : Nat) : Nat := 2 * (z / 12) + (if hbmZone z then z % 12 / 2 else z % 12 - 8)

/-! ### Requested levels (R405, R406) -/

/-- The level that a zone requests of its targets. -/
def State.zoneAsks (s : State) (z : Nat) : Nat :=
  if s.zoneState z = zTHROTTLE && !s.zoneDeferred z then s.fld (PT.ZONE_STATUS z) PT.ZONE_STATUS_LEVEL else 0

def State.askMax (s : State) (l : List Nat) : Nat := l.foldl (fun m z => max m (s.zoneAsks z)) 0

/-- The zones of a half that target its fabric. -/
def fabricZones (e : Nat) : List Nat := ([0, 1, 2, 3, 4, 5, 8, 9] : List Nat).map (12 * e + ·)

/-- The level of the fabric of a half: one for both unless SPLIT_ENABLE is 1. -/
def State.wantFabric (s : State) (e : Nat) : Nat :=
  let lim := s.fld PT.LEVELS PT.LEVELS_LIMITER
  let mine := fun (e : Nat) => max lim (s.askMax (fabricZones e))
  if s.flag XR.SEAM_CTRL XR.SEAM_CTRL_SPLIT_ENABLE then mine e else max (mine 0) (mine 1)

def State.wantPorter (s : State) (e : Nat) : Nat := max (s.wantFabric e) (s.askMax [12 * e + 10, 12 * e + 11])
def State.wantHostel (s : State) (h : Nat) : Nat := max (s.wantFabric (h / 4)) (s.askMax [12 * (h / 4) + 6 + h % 4 / 2])

/-- The level of THR of a site; 7 in an orderly shutdown (Table 13.8). -/
def State.wantThr (s : State) (u : Nat) : Nat :=
  let z := 12 * (u / 2)
  if s.flag PT.STATUS PT.STATUS_SHUTDOWN_PENDING then 7
  else s.askMax [z + 2 * (u % 2), z + 2 * (u % 2) + 1, z + 8 + u % 2]

/-- The levels in force. -/
def State.fabricLevel (s : State) (e : Nat) : Nat := s.fld PT.LEVELS (if e = 0 then PT.LEVELS_FABRIC_W else PT.LEVELS_FABRIC_E)
def State.porterLevel (s : State) (e : Nat) : Nat := s.fld PT.LEVELS (if e = 0 then PT.LEVELS_PORTER_W else PT.LEVELS_PORTER_E)
def State.hostelLevel (s : State) (h : Nat) : Nat := s.fld PT.HOSTEL_LEVELS ⟨3 * h + 2, 3 * h⟩
def State.thrLevel (s : State) (u : Nat) : Nat := s.fld PT.LEVELS ⟨16 + 3 * u + 2, 16 + 3 * u⟩

/-- How many of the throttled clocks rise. -/
def State.clocksRise (s : State) : Nat :=
  ((List.range 2).filter fun e => decide (s.fabricLevel e < s.wantFabric e)).length +
    ((List.range 2).filter fun e => decide (s.porterLevel e < s.wantPorter e)).length +
    ((List.range 8).filter fun h => decide (s.hostelLevel h < s.wantHostel h)).length

/-- Every throttled clock takes the level that it is asked for. -/
def State.putLevels (s : State) : State :=
  let t := (List.range 2).foldl (fun t e =>
    let t := t.setFld PT.LEVELS (if e = 0 then PT.LEVELS_FABRIC_W else PT.LEVELS_FABRIC_E) (s.wantFabric e)
    let t := t.setFld PT.LEVELS (if e = 0 then PT.LEVELS_PORTER_W else PT.LEVELS_PORTER_E) (s.wantPorter e)
    t.setHalf e { t.half e with clock := s.wantFabric e }) s
  (List.range 8).foldl (fun t h => t.setFld PT.HOSTEL_LEVELS ⟨3 * h + 2, 3 * h⟩ (s.wantHostel h)) t

/-- THR of a site takes its level; when it falls, the current limit rises with it (R407). -/
def State.putThr (s : State) (u : Nat) : State :=
  let l := s.wantThr u
  let s := (s.setFld PT.LEVELS ⟨16 + 3 * u + 2, 16 + 3 * u⟩ l).setFld (UP.STATUS u) UP.STATUS_THR_LEVEL l
  s.updPower fun p => if l < tabGet 0 p.limLevel u then { p with limLevel := tabSet 0 p.limLevel u l } else p

/-- The halves run at different clocks (R96). -/
def State.splitView (s : State) : State :=
  let b := (s.half 0).clock != (s.half 1).clock
  if b then (s.setFlag (XR.SEAM_STATUS 0) XR.SEAM_STATUS_SPLIT_ACTIVE true).setFlag (XR.SEAM_STATUS 1) XR.SEAM_STATUS_SPLIT_ACTIVE true
  else s

/-- Whether a level in force differs from what is asked for. -/
def State.levelsStale (s : State) : Bool :=
  ((List.range 2).any fun e => s.fabricLevel e != s.wantFabric e || s.porterLevel e != s.wantPorter e) ||
    ((List.range 8).any fun h => s.hostelLevel h != s.wantHostel h) || ((List.range 4).any fun u => s.thrLevel u != s.wantThr u)

/-- THROTTLE_APPLY (R404-R407): new levels take effect; every change is an event of Table 4.1. -/
def execThrottleApply (s : State) : Res :=
  if !s.levelsStale then .next s
  else
    let s := (s.bump PT.THROTTLE_COUNT s.clocksRise).putLevels
    .next (((List.range 4).foldl State.putThr s).splitView.inexactAll)

/-! ### Notices (R403, R413) -/

/-- Bytes 65 to 79 of Table 13.7, after the message type. -/
def State.noticeBytes (s : State) (z kind : Nat) : List Byte :=
  let st := PT.ZONE_STATUS z
  [0x20, BitVec.ofNat 8 kind, BitVec.ofNat 8 z] ++ leBytes 1 (s.fld st PT.ZONE_STATUS_LEVEL) ++ leBytes 2 (wrapTo 16 (s.zoneReading z)) ++
    leBytes 2 (s.fld GLB.NODE_ID GLB.NODE_ID_NODE) ++ leBytes 8 s.etc

/-- A zone's change is recorded, raised and sent to the peers. -/
def State.zoneNotice (s : State) (z kind : Nat) : State :=
  let m := s.noticeBytes z kind
  let s := (s.event kTHERMAL 0 (srcOf 12 z) 0 (wrapTo 16 (s.zoneReading z)) (m.drop 1)).raise iTHERMAL
  if s.flag PT.CTRL PT.CTRL_NOTICE_ENABLE then s.stewardSendAll m else s

/-- The summary of the zones in PT.STATUS. -/
def State.zoneView (s : State) : State :=
  let any := fun (st : Nat) => (List.range 24).any fun z => s.zoneState z == st
  let s := (s.setFlag PT.STATUS PT.STATUS_ANY_WARNING (any zWARNING)).setFlag PT.STATUS PT.STATUS_ANY_THROTTLE (any zTHROTTLE)
  s.setFlag PT.STATUS PT.STATUS_DEFER_ACTIVE ((List.range 24).any s.zoneDeferred)

/-- A deferral ends without its throttle. -/
def State.deferDrop (s : State) (z : Nat) : State :=
  ((s.setFlag (PT.ZONE_STATUS z) PT.ZONE_STATUS_DEFERRED false).updZone z fun v => { v with deferAt := 0, deferMiles := [] }).zoneView

/-- A deferral ends and its level is requested (R415): notice kind 4. -/
def State.deferApply (s : State) (z : Nat) : State := if s.zoneDeferred z then (s.deferDrop z).zoneNotice z 4 else s

/-- A cross-chip milestone releases: the deferrals that it was pending for end. -/
def State.deferRelease (s : State) (k id : Nat) : State :=
  (List.range 24).foldl (fun s z => if (s.zone z).deferMiles.contains (k, id) then s.deferApply z else s) s

end Sys2Proof.Machine
end

