-- ==== Sys2Proof/Machine/Itin.lean ====
section
/-!
DEFINITION. Sys2Proof/Machine/Itin.lean: the itinerary image (R433-R435), and the launch checks (R437).
-/

namespace Sys2Proof.Machine

/-! ### Reading an image -/

/-- The image's bytes: its own length from the header, none where it cannot be read. -/
def State.readImage (s : State) (dpa : Nat) : State × Option (List Byte) :=
  let ok := dpa % 4096 == 0 && (match targetOf dpa with
    | .buffer => true
    | .site _ _ => true
    | _ => false)
  if !ok then (s, none)
  else
    let (s, c, h) := s.readNow dpa 256
    let n := leAt h 8 8
    if c ≠ 0 || n < 256 || 2 ^ 32 < n then (s, none)
    else
      let (s, c, l) := s.readNow dpa n
      (s, if c = 0 then some l else none)

/-- `n` bytes of an image from `off`. -/
def cut (img : List Byte) (off n : Nat) : List Byte := (img.drop off).take n
def zeros (img : List Byte) (off n : Nat) : Bool := (cut img off n).all fun b => b == 0

/-- Every entry, or none where one breaks its table. -/
def allSome {α : Type} : List (Option α) → Option (List α)
  | [] => some []
  | none :: _ => none
  | some a :: t => (allSome t).map (a :: ·)

/-! ### The tables -/

/-- A milestone entry (Table 14.6). -/
def mileOf (img : List Byte) (off : Nat) : Option MileEntry :=
  let flags := leAt img (off + 3) 1
  let kind := leAt img (off + 2) 1
  let parent := leAt img (off + 10) 1
  if 2 < kind || 4 ≤ flags || (kind = 1 && 16 ≤ parent && parent ≠ 0xFF) || !zeros img (off + 11) 1 || !zeros img (off + 16) 16 then none
  else
    let p := leAt img (off + 12) 4
    some { id := leAt img off 2, kind := kind, step := bitOf flags 0, abort := bitOf flags 1, expect := leAt img (off + 4) 4,
           children := leAt img (off + 8) 2, parent := parent, patience := if p = 0 then 1000 else p }

/-- The sections that a leg names lie inside the image. -/
def LegEntry.sectionsOk (l : LegEntry) (img : List Byte) : Bool :=
  let n := img.length
  (l.blocks == 0 || (decide (l.hosOff + 4 ≤ n) && decide (leAt img l.hosOff 4 ≤ 262144) && decide (l.hosOff + 4 + leAt img l.hosOff 4 ≤ n))) &&
    (l.porters == 0 || (decide (l.porOff + 12 ≤ n) && decide (l.porOff + 12 + leAt img l.porOff 4 + 2 * l.porters ≤ n))) &&
    (l.descs == 0 || decide (l.courOff + 136 * l.descs ≤ n))

/-- A leg entry (Table 14.5). -/
def legOf (img : List Byte) (images off : Nat) : Option LegEntry :=
  let f := fun (o n : Nat) => leAt img (off + o) n
  let w := f 28 4
  let l : LegEntry := {
    waits := (List.range (f 0 2)).map fun i => f (4 + 2 * i) 2, endMile := f 2 2, energy := f 20 4, duration := f 24 4,
    watchdog := if w = 0 then 10000 else w, timetable := f 32 1, blocks := f 33 1, groups := f 34 1, cluster := f 35 1,
    alloc := f 36 2, porters := f 38 2, hosOff := f 40 4, porOff := f 44 4, courOff := f 48 4, descs := f 52 2 }
  let ok := decide (f 0 2 ≤ 8) && (l.timetable == 0xFF || decide (l.timetable < images)) && decide (l.blocks ≤ 64) &&
    decide (1 ≤ l.groups) && decide (l.groups ≤ 16) && decide (1 ≤ l.cluster) && decide (l.cluster ≤ 4) && decide (1 ≤ l.alloc) &&
    decide (l.alloc ≤ 256) && decide (l.porters ≤ 4096) && decide (l.descs ≤ 2048) && zeros img (off + 54) 10
  if ok && l.sectionsOk img then some l else none

/-- A stream entry (R433). -/
def streamOf (img : List Byte) (off : Nat) : Option StreamEntry :=
  let e : StreamEntry := { kind := leAt img off 1, ctx := leAt img (off + 1) 1, len := leAt img (off + 8) 8 }
  if e.kind < 2 && e.ctx < 16 && zeros img (off + 2) 6 then some e else none

/-- Bytes of a timetable image (Table 3.12). -/
def ttImageSize : Nat := 2949376

/-- The entries of a table of `n` entries of `size` bytes that lies inside the image. -/
def tableOf {α : Type} (img : List Byte) (off n size : Nat) (f : Nat → Option α) : Option (List α) :=
  if off + n * size ≤ img.length || n = 0 then allSome ((List.range n).map fun i => f (off + i * size)) else none

/-- The header's own fields (Table 14.4). -/
def headerOk (img : List Byte) : Bool :=
  decide (256 ≤ img.length) && cut img 0 4 == [0x54, 0x5A, 0x49, 0x54] && leAt img 4 2 == 1 && decide (leAt img 6 2 < 2) &&
    decide (1 ≤ leAt img 24 2) && decide (leAt img 24 2 ≤ 4096) && decide (1 ≤ leAt img 26 2) && decide (leAt img 26 2 ≤ 1024) &&
    decide (leAt img 28 2 ≤ 16) && decide (leAt img 30 2 ≤ 64) && decide (leAt img 50 1 < 16) && zeros img 51 5 && zeros img 64 192

/-- An image as the launch that it declares, none where it breaks Tables 14.4 to 14.6 (R437, IMAGE_FORMAT). -/
def parseImage (img : List Byte) : Option Launch :=
  if !headerOk img then none
  else
    match tableOf img (leAt img 36 4) (leAt img 26 2) 32 (mileOf img),
      tableOf img (leAt img 40 4) (leAt img 28 2) 8 (fun o =>
        if leAt img o 8 + ttImageSize ≤ img.length then some (leAt img o 8) else none),
      tableOf img (leAt img 44 4) (leAt img 30 2) 16 (streamOf img),
      tableOf img (leAt img 32 4) (leAt img 24 2) 64 (legOf img (leAt img 28 2)) with
    | some ms, some tts, some sts, some ls =>
      let known := fun (i : Nat) => ms.any fun m => m.id == i
      if known (leAt img 48 2) && ls.all fun l => l.waits.all known && (l.endMile == 0xFFFF || known l.endMile) then
        some { len := img.length, seed := BitVec.ofNat 64 (leAt img 16 8), legs := ls, miles := ms, timetables := tts, streams := sts,
               stepMile := leAt img 48 2, ckptCtx := leAt img 50 1, ckptLen := leAt img 56 8 }
      else none
    | _, _, _, _ => none

/-! ### Sections -/

/-- The physical porter of each s_pidx. -/
def LegEntry.porterList (l : LegEntry) (img : List Byte) : List Nat :=
  (List.range l.porters).map fun i => leAt img (l.porOff + 12 + leAt img l.porOff 4 + 2 * i) 2

/-- Descriptor `i` of a leg: its courier, its channel and its words. -/
def LegEntry.desc (l : LegEntry) (img : List Byte) (i : Nat) : Nat × Nat × List W64 :=
  let o := l.courOff + 136 * i
  (leAt img o 1, leAt img (o + 1) 1, (List.range 16).map fun k => BitVec.ofNat 64 (leAt img (o + 8 + 8 * k) 8))

def LegEntry.descList (l : LegEntry) (img : List Byte) : List (Nat × Nat × List W64) := (List.range l.descs).map (l.desc img)

/-- The code of a leg's blocks. -/
def LegEntry.hostelCode (l : LegEntry) (img : List Byte) : List Byte :=
  if l.blocks = 0 then [] else cut img (l.hosOff + 4) (leAt img l.hosOff 4)

def LegEntry.porterCode (l : LegEntry) (img : List Byte) : List Byte :=
  if l.porters = 0 then [] else cut img (l.porOff + 12) (leAt img l.porOff 4)

/-- Where the argument block of a leg ends: its length is not stated, so it runs to the next part of the image that the header
or a leg names (assumption 24). -/
def argEnd (img : List Byte) (legs : List LegEntry) (tts : List Nat) (first : Nat) : Nat :=
  let named := [leAt img 32 4, leAt img 36 4, leAt img 40 4, leAt img 44 4] ++ tts ++
    legs.flatMap fun x => [x.hosOff, x.porOff, x.courOff]
  (named.filter fun o => decide (first ≤ o)).foldl min img.length

/-- The argument block that is copied into each porter. -/
def LegEntry.argBlock (l : LegEntry) (img : List Byte) (legs : List LegEntry) (tts : List Nat) : List Byte :=
  let first := l.porOff + 12 + leAt img l.porOff 4 + 2 * l.porters
  cut img first (min (argEnd img legs tts first - first) (65536 - leAt img (l.porOff + 8) 4))

/-! ### Units (R437, R476) -/

def State.porterUsable (s : State) (n : Nat) : Bool := decide (n < 4096) && s.porterUp n && !s.flag (POR.STATUS n) POR.STATUS_FENCED
def State.courierUsable (s : State) (c : Nat) : Bool := decide (c < 32) && bitOf (s.floorWord 0x28 4) c
def State.hostelUsable (s : State) (h : Nat) : Bool := s.hostelUp h && !s.flag (HOS.STATUS h) HOS.STATUS_FENCED

/-- Whether the unit of an engine port is present, enabled and not fenced. -/
def State.portUsable (s : State) (e p : Nat) : Bool :=
  if p < 40 then !s.portAbsent e p && !s.flag (UP.STATUS (upOf e p).1) UP.STATUS_FENCED
  else if p < 56 then s.hostelUsable (4 * e + (p - 40) / 4)
  else if 120 ≤ p && p < 176 then
    let i := if p < 168 then 8 * e + (p - 120) / 6 else 16 + 8 * e + (p - 168)
    s.siteHere i && s.siteEnabled i && !s.siteFenced i
  else if 176 ≤ p && p < 184 then
    let x := 8 * e + (p - 176)
    s.oxHere x && s.oxEnabled x && !s.flag (OX.STATUS x) OX.STATUS_FENCED
  else true

/-- Whether a leg names a porter, courier, memory site or port that is not there. -/
def State.legAbsent (s : State) (img : List Byte) (l : LegEntry) : Bool :=
  (l.porterList img).any (fun n => !s.porterUsable n) ||
    (l.descList img).any fun x =>
      let d : Desc := { words := x.2.2, by_ := .steward }
      !s.courierUsable x.1 || decide (16 ≤ x.2.1) || ((d.srcEngine || d.dstEngine) && !s.portUsable (courHalf x.1) d.port)

/-- Hostels of a caravan that meet `p`. -/
def caravanCount (e : Nat) (p : Nat → Bool) : Nat := ((List.range 4).filter fun h => p (4 * e + h)).length
def caravanMax (p : Nat → Bool) : Nat := max (caravanCount 0 p) (caravanCount 1 p)

/-- Blocks of a leg's largest cluster. -/
def LegEntry.widest (l : LegEntry) : Nat := min l.blocks l.cluster

/-- The features that a leg needs: MX formats, tally mode (R8). Its code, its descriptors and the reductions of its timetable are
looked through (DEDUCED, assumption 25). -/
def LegEntry.needs (l : LegEntry) (img : List Byte) (tts : List Nat) (feature : Nat) : Bool :=
  let h := l.hostelCode img
  let p := l.porterCode img
  let hos := (List.range (h.length / 8)).any fun i =>
    let w := BitVec.ofNat 64 (leAt h (8 * i) 8)
    hostelLegal w && hostelFeature w == feature
  let por := (List.range (p.length / 4)).any fun i =>
    let w := BitVec.ofNat 32 (leAt p (4 * i) 4)
    porterLegal w && porterFeature w == feature
  let desc := feature == 2 && (l.descList img).any fun x =>
    let d : Desc := { words := x.2.2, by_ := .steward }
    d.op == oADD && d.ty == 4
  let red := feature == 2 && (match tts[l.timetable]? with
    | some o => (List.range 6144).any fun i =>
        let w := BitVec.ofNat 64 (leAt img (o + 0x2A0000 + 8 * i) 8)
        redValid w && redOp w == 4
    | none => false)
  hos || por || desc || red

/-- The cause for which a launch fails its checks, 0 for none (Table 14.7). -/
def State.launchCause (s : State) (img : List Byte) (la : Launch) : Nat :=
  let present := fun (h : Nat) => s.planned 4 h
  if la.legs.any fun l => s.legAbsent img l then cUNIT_ABSENT
  else if la.legs.any fun l => decide (caravanMax present < l.widest) then cCLUSTER
  else if la.legs.any fun l => decide (caravanMax s.hostelUsable < l.widest) then cUNIT_ABSENT
  else if la.legs.any fun l => (l.needs img la.timetables 1 && !s.flag BRG.ENABLED BRG.ENABLED_MX) ||
      (l.needs img la.timetables 2 && !s.flag BRG.ENABLED BRG.ENABLED_TALLY) then cUNLICENSED
  else 0

end Sys2Proof.Machine
end

