-- ==== Sys2Proof/Machine/Disp.lean ====
section
/-!
DEFINITION. Sys2Proof/Machine/Disp.lean: the dispatcher: gated clocks (R25, R26, R110), eligibility and admission (R409-R412,
R438), timetables (R439, R71, R74), leg start (R109, R235), block placement (R146, R147) and courier descriptors (R242).
-/

namespace Sys2Proof.Machine

/-- The image of a launch, as its bytes stand. -/
def State.imageOf (s : State) (k : Nat) : List Byte := (s.readNow (s.launch k).image (s.launch k).len).2.2

/-! ### Clock domains -/

/-- The number of a gated domain. -/
def domainNum : Domain → Nat
  | .fabric east => b2n east
  | .hostel h => 2 + h.toNat
  | .porter east => 10 + b2n east
  | .upper u => 12 + u.toNat
  | .site i => 16 + i.toNat
  | .oxlux x => 48 + x.toNat

def State.clock (s : State) (d : Nat) : Nat := tabGet 0 s.clocks d
def State.setClock (s : State) (d v : Nat) : State := { s with clocks := tabSet 0 s.clocks d v }

/-- The domain of an engine port's unit. -/
def portDomain (e p : Nat) : List Nat :=
  if p < 40 then [12 + (upOf e p).1]
  else if p < 56 then [2 + 4 * e + (p - 40) / 4]
  else if 120 ≤ p && p < 168 then [16 + 8 * e + (p - 120) / 6]
  else if 168 ≤ p && p < 176 then [32 + 8 * e + (p - 168)]
  else if 176 ≤ p && p < 184 then [48 + 8 * e + (p - 176)]
  else []

/-- The domains that a leg needs (R25): the fabric, the hostels that its blocks may take, the halves of its porters, and the units
of its descriptors' engine ports (DESIGN CHOICE, assumption 26). -/
def State.legDomains (s : State) (img : List Byte) (l : LegEntry) : List Nat :=
  let hos := if l.blocks = 0 then [] else ((List.range 8).filter s.hostelUsable).map (2 + ·)
  let por := (l.porterList img).map fun n => 10 + n % 64 / 32
  let eng := (l.descList img).flatMap fun x =>
    let d : Desc := { words := x.2.2, by_ := .steward }
    if d.srcEngine || d.dstEngine then portDomain (courHalf x.1) d.port else []
  ([0, 1] ++ hos ++ por ++ eng).eraseDups

/-- PLL_START (R25): every domain of a leg that is off starts to wake. -/
def State.wakeLeg (s : State) (k : Nat) (l : LegEntry) : State :=
  (s.legDomains (s.imageOf k) l).foldl (fun s d => if s.clock d = 0 then (s.setClock d 1).bump DISP.CLOCK_WAKES 1 else s) s

/-! ### Admission (R410-R412, R438) -/

/-- The charge of a leg (R410). -/
def LegEntry.charge (l : LegEntry) : Nat :=
  let d := max l.duration 100
  (l.energy * 100 + d - 1) / d

/-- Whether a leg holds its charge. -/
def LegRun.charged (r : LegRun) : Bool := r.phase == .admitted || r.phase == .running

/-- The launches that run, in the order of their GO. -/
def State.runOrder (s : State) : List Nat :=
  ((List.range 16).filter fun k => s.slotState k == 2).mergeSort fun a b => decide ((s.launch a).order ≤ (s.launch b).order)

/-- The sum of the charges of running legs. -/
def State.charges (s : State) : Nat :=
  (s.runOrder.map fun k => (((s.launch k).legs.zip (s.launch k).runs).map fun x => if x.2.charged then x.1.charge else 0).foldl (· + ·) 0).foldl (· + ·) 0

def State.legRuns (s : State) : Bool := s.runOrder.any fun k => (s.launch k).runs.any LegRun.charged

/-- F now (R410). -/
def State.freeUj (s : State) : Int := sextOf 32 (s.fld PT.BUDGET PT.BUDGET_FREE_UJ)
def State.putFree (s : State) (f : Int) : State := s.setFld PT.BUDGET PT.BUDGET_FREE_UJ (wrapTo 32 f)

/-- Whether the timetable of a leg is active, and no other waits to replace it (R438, R439). -/
def State.timetableActive (s : State) (k : Nat) (l : LegEntry) : Bool :=
  !l.scheduled || (s.disp.active == some ((s.launchId k).toNat, l.timetable) && s.disp.staged.isNone)

/-- Eligible (R438). -/
def State.eligible (s : State) (k : Nat) (l : LegEntry) (r : LegRun) : Bool :=
  let la := s.launch k
  (r.phase == .unstarted || r.phase == .deferred) && !la.closing && !la.killing && !s.flag PT.STATUS PT.STATUS_SHUTDOWN_PENDING &&
    l.waits.all (s.mileReleased k) && s.timetableActive k l

/-- Eligible legs as launch slot and index, in launch order and then in leg order. -/
def State.eligibles (s : State) : List (Nat × Nat) :=
  s.runOrder.flatMap fun k =>
    let la := s.launch k
    (List.range la.legs.length).filterMap fun i =>
      match la.legs[i]?, la.runs[i]? with
      | some l, some r => if s.eligible k l r then some (k, i) else none
      | _, _ => none

/-- A leg is admitted: it is charged, and a scheduled leg sets RUN (R74). -/
def State.admitLeg (s : State) (k i : Nat) (l : LegEntry) (r : LegRun) : State :=
  let s := if r.phase = .deferred then s.bump DISP.BUDGET_DEFERS 1 else s
  let s := (s.setRun k i fun r => { r with phase := .admitted }).putFree (s.freeUj - l.charge)
  if l.scheduled then s.startRun else s

/-- Whether the budget lets a leg start now (R411, R412). -/
def State.affords (s : State) (l : LegEntry) : Bool :=
  s.flag PT.CTRL PT.CTRL_FIXED_DISPATCH || !s.legRuns || decide ((l.charge : Int) ≤ s.freeUj)

/-- LEG_ADMIT (R411): legs are admitted in order; none passes the first that the budget does not cover. -/
def State.admitList (s : State) : List (Nat × Nat) → State
  | [] => s
  | (k, i) :: t =>
    match (s.launch k).legs[i]?, (s.launch k).runs[i]? with
    | some l, some r =>
      if s.affords l then (s.admitLeg k i l r).admitList t
      else ((k, i) :: t).foldl (fun s x => s.setRun x.1 x.2 fun r => { r with phase := .deferred }) s
    | _, _ => s.admitList t

/-- The dispatcher decides: clocks of eligible legs start, and legs are admitted. -/
def State.admitLegs (s : State) : State :=
  let l := s.eligibles
  let s := l.foldl (fun s x => match (s.launch x.1).legs[x.2]? with
    | some e => s.wakeLeg x.1 e
    | none => s) s
  s.admitList l

/-! ### Timetables (R439) -/

/-- A timetable image into the staging banks (R439): its multicast groups, entries and reduction descriptors, the LAUNCH field of
the last as the dispatcher writes it (Table 3.6); the mesh multicast bytes wait for the switch. -/
def State.loadImage (s : State) (img : List Byte) (l : BitVec 16) : State :=
  let s := (List.range (0x2CE000 / 4)).foldl (fun s i =>
    match windowOf (0x920000 + 4 * i) with
    | some (e, kind, b) =>
      let v := leAt img (4 * i) 4
      let v := if kind ≠ 2 then v
        else
          let w := putBits (leAt img (4 * (i - i % 2)) 8) 52 37 l.toNat
          if bitOf w 63 then bitsOf w (32 * (i % 2) + 31) (32 * (i % 2)) else v
      s.windowWrite e kind b v
    | none => s) s
  { s with mesh := { s.mesh with pendingMcast := some ((List.range 32).map fun i => BitVec.ofNat 64 (leAt img (0x2D0000 + 8 * i) 8)) } }

/-- Whether both halves are free to be staged. -/
def State.stagingFree (s : State) : Bool := !s.flag (XR.TT_CTRL 0) XR.TT_CTRL_ARM && !s.flag (XR.TT_CTRL 1) XR.TT_CTRL_ARM

/-- TIMETABLE_STAGE (R439): for a leg whose timetable is neither active nor staged nor known to fail. -/
def execTimetableStage (slot : BitVec 4) (leg : BitVec 12) (s : State) : Res :=
  let k := slot.toNat
  let la := s.launch k
  match la.legs[leg.toNat]?, la.runs[leg.toNat]? with
  | some l, some r =>
    let key := ((s.launchId k).toNat, l.timetable)
    if s.slotState k ≠ 2 || la.closing || la.killing || !l.scheduled || !(r.phase == .unstarted || r.phase == .deferred) ||
        s.disp.active == some key || s.disp.staged.isSome || s.disp.failed.contains key || !s.stagingFree then .next s
    else
      match la.timetables[l.timetable]? with
      | none => .next s
      | some o =>
        let (s, c, img) := s.readNow (la.image + o) ttImageSize
        if c ≠ 0 then .next s
        else
          let s := ((s.loadImage img (s.launchId k)).armHalf 0).armHalf 1
          .next { s with disp := { s.disp with staged := some (key.1, key.2, k, leg.toNat) } }
  | _, _ => .next s

/-- TT_CHECK_DONE (R72): the half awaits the switch, or records the first breach; legs of a staged image that fails never start. -/
def execTtCheckDone (east : Bool) (s : State) : Res :=
  let e := halfOf east
  if !s.flag (XR.TT_STATUS e) XR.TT_STATUS_CHECK_BUSY then .next s
  else
    let s' := s.setFlag (XR.TT_STATUS e) XR.TT_STATUS_CHECK_BUSY false
    match s.firstBreach e with
    | none => .next (s'.setFlag (XR.TT_STATUS e) XR.TT_STATUS_SWITCH_PENDING true)
    | some b =>
      let s := s'.checkFails e b
      .next { s with disp := { s.disp with staged := none, failed := s.disp.failed ++ (s.disp.staged.map fun (x : Nat × Nat × Nat × Nat) => (x.1, x.2.1)).toList } }

/-- BANK_SWITCH (R71): both halves switch at one slot 0, or at once while RUN is 0; the legs of the new timetable are decided. -/
def execBankSwitch (s : State) : Res :=
  if s.switchReady && s.switchable 0 && s.switchable 1 then
    let s := ((s.switchHalf 0).switchHalf 1).loadMcast
    let s := { s with disp := { s.disp with active := s.disp.staged.map (fun (x : Nat × Nat × Nat × Nat) => (x.1, x.2.1)), staged := none } }
    .next s.admitLegs
  else .next s

/-! ### Leg start (R109, R235) -/

/-- The slot 0 at which a leg starts: the one now, or the next that is at least 64 cycles away. -/
def State.startSlotOf (s : State) (l : LegEntry) : Nat :=
  let t := s.nowSlot 0
  if !l.scheduled || t % 4096 = 0 then t else (t + 64 + 4095) / 4096 * 4096

/-- A leg's porters are loaded with its code and arguments, and started (R235, R434). -/
def State.startPorters (s : State) (k i : Nat) (l : LegEntry) : State :=
  let la := s.launch k
  let img := s.imageOf k
  let args := leAt img (l.porOff + 8) 4
  let code := l.porterCode img
  let blk := l.argBlock img la.legs la.timetables
  let ps := loadPieces 0 (code.length / 64 + 1) code ++ loadPieces args (blk.length / 64 + 1) blk
  let list := l.porterList img
  list.zipIdx.foldl (fun (s : State) (x : Nat × Nat) =>
    let m : StartMsg := { launch := s.launchId k, slot := k, leg := i, entry := leAt img (l.porOff + 4) 4, args := args, pidx := x.2,
                          nporters := list.length, chip := s.fld (LNCH.CHIP k) LNCH.CHIP_RANK, nchips := s.fld (LNCH.CHIP k) LNCH.CHIP_COUNT,
                          seed := la.seed, step := la.step }
    (s.loadPorter x.1 ps).toPorter x.1 1 (.start m)) s

/-- LEG_START (R109, R110): an admitted leg whose clocks run. -/
def execLegStart (slot : BitVec 4) (leg : BitVec 12) (s : State) : Res :=
  let k := slot.toNat
  let i := leg.toNat
  let la := s.launch k
  match la.legs[i]?, la.runs[i]? with
  | some l, some r =>
    if s.slotState k ≠ 2 || la.killing || r.phase ≠ .admitted || (s.legDomains (s.imageOf k) l).any fun d => s.clock d != 2 then .next s
    else
      let cross := l.waits.any fun w => la.miles.any fun m => m.id == w && m.kind == 1
      let s := if cross then s.bump DISP.XCHIP_WAITS 1 else s
      let start := s.startSlotOf l
      let etc := s.etc
      let s := s.setRun k i fun r => { r with phase := .running, startEtc := etc, startSlot := start, timed := true }
      .next ((s.startPorters k i l).legCheck k i)
  | _, _ => .next s

/-! ### Blocks (R146, R147, R201) -/

/-- Whether a placement fits its hostel: free group slots, a free run of store units, a block slot. -/
def State.placeOk (s : State) (l : LegEntry) (p : Placement) : Bool :=
  let h := p.hostel.toNat
  let slots := p.slots.map (·.toNat)
  let lo := p.unit.toNat * 65536
  let hi := lo + l.alloc * 65536
  s.hostelUsable h && slots.length == l.groups && slots.eraseDups.length == slots.length && slots.all (fun g => !(s.group h g).used) &&
    decide (hi ≤ 0x1000000) && (List.range 8).all (fun b =>
      let o := s.blockAt h b
      !o.used || decide (hi ≤ o.alloc) || decide (o.alloc + o.size ≤ lo)) &&
    (List.range 8).any fun b => !(s.blockAt h b).used

/-- The free arrival counters of a hostel: 8 of its 64. -/
def State.freeCtrs (s : State) (h : Nat) : Nat :=
  ((List.range 8).find? fun c => !(List.range 8).any fun b => (s.blockAt h b).used && (s.blockAt h b).ctrBase == 8 * c).getD 0 * 8

/-- The instruction store of a hostel holds a leg's code, and all ones beyond it (R182). -/
def State.loadCode (s : State) (h : Nat) (code : List Byte) : State :=
  let old := s.hosStore.filter fun e => !(decide (h * 32768 ≤ e.1) && decide (e.1 < (h + 1) * 32768))
  let ones := BitVec.ofNat 64 (2 ^ 64 - 1)
  let ws := (List.range ((code.length + 7) / 8)).map fun i =>
    let l := cut code (8 * i) 8
    BitVec.ofNat 64 (leVal (l ++ List.replicate (8 - l.length) 0xFF))
  { s with hosStore := tabWrite ones old (h * 32768) ws }

/-- One block is placed: its allocation and tile registers cleared, its counters cleared, its groups at offset 0 (R146, R201). -/
def State.placeBlock (s : State) (k i b rank n first : Nat) (l : LegEntry) (p : Placement) : State :=
  let h := p.hostel.toNat
  let la := s.launch k
  let id := s.launchId k
  let bi := ((List.range 8).find? fun b => !(s.blockAt h b).used).getD 0
  let base := s.freeCtrs h
  let dpa := storeBase h + p.unit.toNat * 65536
  let bl : Block := {
    used := true, launch := id, slot := k, leg := i, rank := rank, cluster := 64 * i + first, nblocks := n, ngroups := l.groups,
    alloc := p.unit.toNat * 65536, size := l.alloc * 65536, ctrBase := base, blkid := BitVec.ofNat 32 b,
    chip := BitVec.ofNat 32 (s.fld (LNCH.CHIP k) LNCH.CHIP_RANK), nchips := BitVec.ofNat 32 (s.fld (LNCH.CHIP k) LNCH.CHIP_COUNT),
    segBase := BitVec.ofNat 64 (s.fld (LNCH.HSA k) LNCH.HSA_DVA + (dpa - 0x80000000)), seed := la.seed, step := la.step }
  let s := (s.clearBytes dpa (l.alloc * 65536)).setBlock h bi bl
  let s := (List.range 8).foldl (fun s c => s.setCtr h (base + c) 0) s
  let s := (p.slots.zipIdx).foldl (fun (s : State) g => s.setGroup h g.1.toNat
    { used := true, launch := id, block := bi, gidx := g.2, pc := 0, active := 0xFFFFFFFF, live := 0xFFFFFFFF,
      v := (s.group h g.1.toNat).v, p := (s.group h g.1.toNat).p }) s
  (s.loadCode h (l.hostelCode (s.imageOf k))).hosCount h

/-- Logical index of a leg's first block within its launch (R118). -/
def blkBase (legs : List LegEntry) (i : Nat) : Nat := ((legs.take i).map LegEntry.blocks).foldl (· + ·) 0

/-- BLOCK_PLACE (R146, R147): the next cluster of a running leg, every block of it or none. -/
def execBlockPlace (slot : BitVec 4) (leg : BitVec 12) (first : BitVec 6) (places : List Placement) (s : State) : Res :=
  let k := slot.toNat
  let i := leg.toNat
  let la := s.launch k
  match la.legs[i]?, la.runs[i]? with
  | some l, some r =>
    let f := first.toNat
    let hs := places.map fun p => p.hostel.toNat
    if s.slotState k ≠ 2 || la.killing || r.phase ≠ .running || f + r.blocksToPlace ≠ l.blocks || r.blocksToPlace = 0 ||
        places.length ≠ min l.cluster r.blocksToPlace || hs.eraseDups.length ≠ hs.length ||
        !(hs.all (fun h => h / 4 == 0) || hs.all (fun h => h / 4 == 1)) || !places.all (s.placeOk l) then .next s
    else
      let s := places.zipIdx.foldl (fun (s : State) (x : Placement × Nat) => s.placeBlock k i (blkBase la.legs i + f + x.2) x.2 places.length f l x.1) s
      .next (s.setRun k i fun r => { r with blocksToPlace := r.blocksToPlace - places.length })
  | _, _ => .next s

/-! ### Descriptors (R242) -/

/-- DISPATCHER_PUSH: descriptor `d` of a leg, after every earlier one of the same channel. The dispatcher writes its LAUNCH field. -/
def execDispatcherPush (slot : BitVec 4) (leg : BitVec 12) (d : BitVec 11) (s : State) : Res :=
  let k := slot.toNat
  let i := leg.toNat
  let la := s.launch k
  match la.legs[i]?, la.runs[i]? with
  | some l, some r =>
    let j := d.toNat
    let img := s.imageOf k
    let (c, ch, ws) := l.desc img j
    let before := (List.range j).filter fun m => (l.desc img m).1 == c && (l.desc img m).2.1 == ch
    if s.slotState k ≠ 2 || la.killing || la.closing && r.phase ≠ .running || r.phase = .ended || l.descs ≤ j || r.pushed.contains j ||
        !before.all r.pushed.contains then .next s
    else
      let w0 := BitVec.ofNat 64 (putBits (ws.headD 0).toNat 63 48 (s.launchId k).toNat)
      let s := s.setRun k i fun r => { r with pushed := r.pushed ++ [j] }
      .next (s.chanPush c ch { words := w0 :: ws.drop 1, by_ := .leg k i })
  | _, _ => .next s

end Sys2Proof.Machine
end

