-- ==== Sys2Proof/Machine/Miles.lean ====
section
/-!
DEFINITION. Sys2Proof/Machine/Miles.lean: milestones (R441, R442, R444), the messages between stewards (R443, Table 14.8), and
the notices that a steward receives (R413, R493).
-/

namespace Sys2Proof.Machine

/-! ### The milestones of a launch -/

def State.mileIdx (s : State) (k id : Nat) : Option Nat := listFind (fun m => m.id == id) (s.launch k).miles
def State.mileAt (s : State) (k j : Nat) : Option MileEntry := (s.launch k).miles[j]?
def State.mileRun (s : State) (k j : Nat) : MileRun := (s.launch k).mileRuns.getD j {}
def State.setMile (s : State) (k j : Nat) (f : MileRun → MileRun) : State :=
  let la := s.launch k
  s.setLaunch k { la with mileRuns := listUpd f la.mileRuns j }

/-- A MILESTONE entry: the identifier, the child ports that are missing, and whether RELEASE is. -/
def State.mileEvent (s : State) (l : BitVec 16) (id missing : Nat) (rel : Bool) : State :=
  s.event kMILESTONE 0 (srcOf 11 0) l id (leBytes 2 missing ++ [BitVec.ofNat 8 (b2n rel)])

/-- The message of Table 14.8. -/
def State.mileMsg (s : State) (k id : Nat) (release : Bool) : List Byte :=
  [if release then 0x11 else 0x10, 0] ++ leBytes 2 id ++ leBytes 4 (s.fld (LNCH.JOB k) LNCH.JOB_TAG) ++
    leBytes 8 (s.launch k).step.toNat ++ leBytes 2 (s.fld GLB.NODE_ID GLB.NODE_ID_NODE)

/-- RELEASE to every child port, lowest first. -/
def State.sendReleases (s : State) (k : Nat) (m : MileEntry) : State :=
  (ones 16 m.children).foldl (fun s x => s.stewardSend x (s.mileMsg k m.id true)) s

/-- A milestone releases in the current step: the deferrals that it held end (R415), the step milestone closes the step (R445), and
legs are decided (R411). -/
def State.mileRelease (s : State) (k j : Nat) (m : MileEntry) : State :=
  let s := s.setMile k j fun r => { r with released := true }
  let s := if m.kind = 1 then (s.sendReleases k m).deferRelease k m.id else s
  let s := if (s.launch k).stepMile = m.id then s.setLaunch k { s.launch k with closing := true } else s
  s.admitLegs

/-- A milestone releases, or its ARRIVE goes to the parent, once what it needs is there (R441, R442). -/
def State.mileCheck (s : State) (k j : Nat) : State :=
  match s.mileAt k j with
  | none => s
  | some m =>
    let r := s.mileRun k j
    if r.released || !r.complete then s
    else if m.kind = 0 then s.mileRelease k j m
    else if m.kind = 2 then (if r.hostRel then s.mileRelease k j m else s)
    else if Nat.land r.arrived m.children ≠ m.children then s
    else if m.parent = 0xFF then s.mileRelease k j m
    else if r.sent then s
    else (s.setMile k j fun r => { r with sent := true }).stewardSend m.parent (s.mileMsg k m.id false)

/-- The local part of a milestone is complete when its count equals EXPECT. -/
def State.mileComplete (s : State) (k j : Nat) : State :=
  match s.mileAt k j with
  | none => s
  | some m =>
    let r := s.mileRun k j
    if r.complete || r.released || r.count ≠ m.expect then s
    else
      let etc := s.etc
      (s.setMile k j fun r => { r with complete := true, doneEtc := etc }).mileCheck k j

/-- Whether a launch takes part in milestones: its slot is RUNNING and its context is not being killed. -/
def State.mileLive (s : State) (k : Nat) : Bool := s.slotState k == 2 && !(s.launch k).killing

/-- One arrival is counted; for an undeclared or a released milestone it is logged and ignored (R441). -/
def State.mileArrive (s : State) (k id : Nat) : State :=
  if !s.mileLive k then s
  else
    match s.mileIdx k id with
    | none => s.mileEvent (s.launchId k) id 0 false
    | some j =>
      if (s.mileRun k j).released then s.mileEvent (s.launchId k) id 0 false
      else (s.setMile k j fun r => { r with count := r.count + 1 }).mileComplete k j

/-- MILESTONE_ARRIVAL (R441): the next arrival of a hostel or of END_MILE, else the next MILE of a porter. -/
def execMilestoneArrival (s : State) : Res :=
  match s.mileMsgs with
  | m :: t => .next (({ s with mileMsgs := t } : State).mileArrive m.slot m.id)
  | [] =>
    match s.takeInbox stewardEnd (fun b => match b with | .mile _ _ => true | _ => false) with
    | some (.mile m id, s) => .next (if s.launchId m.slot = m.launch then s.mileArrive m.slot id else s)
    | _ => .next s

/-- HOST_RELEASE (R441): the release holds for the current step, or the write is ignored and logged. -/
def execHostRelease (v : BitVec 32) (s : State) : Res :=
  let id := bitsOf v.toNat 15 0
  let k := bitsOf v.toNat 19 16
  let bad := s.mileEvent (if s.slotState k = 2 then s.launchId k else 0) id 0 false
  if s.slotState k ≠ 2 then .next bad
  else
    match s.mileIdx k id with
    | none => .next bad
    | some j =>
      match s.mileAt k j with
      | none => .next bad
      | some m =>
        if m.kind ≠ 2 || (s.mileRun k j).released then .next bad
        else
          let s := s.setMile k j fun r => { r with hostRel := true }
          .next (if s.mileLive k then s.mileCheck k j else s)

/-- MILESTONE_PATIENCE (R444): a milestone whose local part is complete and that has not released is reported; the first report kills
the context when ABORT_ON_PATIENCE is 1. -/
def execMilestonePatience (slot : BitVec 4) (id : BitVec 16) (s : State) : Res :=
  let k := slot.toNat
  match s.mileIdx k id.toNat with
  | none => .next s
  | some j =>
    match s.mileAt k j with
    | none => .next s
    | some m =>
      let r := s.mileRun k j
      if !s.mileLive k || !r.complete || r.released then .next s
      else
        let l := s.launchId k
        let cross := m.kind == 1
        let missing := if cross then m.children - Nat.land m.children r.arrived else 0
        let s := (s.mileEvent l m.id missing (cross && m.parent != 0xFF)).raise iMILESTONE
        let s := s.setMile k j fun r => { r with reports := r.reports + 1 }
        .next (if m.abort && r.reports = 0 then s.startKill l cMILESTONE_PATIENCE (srcOf 11 0) m.id 0 0 0 else s)

/-! ### Messages between stewards (R442, R443) -/

/-- The launch that a job tag names: the first by GO of those that run (DESIGN CHOICE where several carry one tag). -/
def State.jobSlot (s : State) (job : Nat) : Option Nat :=
  s.runOrder.find? fun k => s.fld (LNCH.JOB k) LNCH.JOB_TAG == job

/-- A message acts on the milestone of the current step, or is logged and dropped. -/
def State.msgApply (s : State) (k : Nat) (h : HeldMsg) : State :=
  if (s.launch k).killing then s
  else
    let bad := s.mileEvent (s.launchId k) h.id 0 false
    match s.mileIdx k h.id with
    | none => bad
    | some j =>
      match s.mileAt k j with
      | none => bad
      | some m =>
        if m.kind ≠ 1 || (s.mileRun k j).released then bad
        else if h.release then
          if m.parent = h.port then s.mileRelease k j m else bad
        else if bitOf m.children h.port then
          (s.setMile k j fun r => { r with arrived := Nat.lor r.arrived (2 ^ h.port) }).mileCheck k j
        else bad

/-- The message at the head of a port's VC3, if it is of a type. -/
def State.stewardHead (s : State) (x ty : Nat) : Option (List Byte) :=
  match s.rxHead x 3 with
  | none => none
  | some p => if p.bad || leAt p.head 64 1 ≠ ty then none else some ((p.head.drop 64).take 64)

/-- A cross-chip message at the head of a port's VC3: applied, held, or logged and dropped; while the table of held messages is
full it stays, and its credits with it (R443). -/
def State.msgTake (s : State) (x ty : Nat) : State :=
  match s.stewardHead x ty with
  | none => s
  | some b =>
    let h : HeldMsg := { port := x, release := ty == 0x11, id := leAt b 2 2, job := leAt b 4 4, step := leAt b 8 8 }
    let hold := fun (s : State) => if 256 ≤ s.disp.held.length then s
      else ({ s with disp := { s.disp with held := s.disp.held ++ [h] } } : State).rxPop x 3
    match s.jobSlot h.job with
    | none => hold s
    | some k =>
      let now := (s.launch k).step.toNat
      if now < h.step then hold s
      else if h.step < now then (s.rxPop x 3).mileEvent (s.launchId k) h.id 0 false
      else (s.rxPop x 3).msgApply k h

/-- ARRIVE from a child port. -/
def execArrive (x : BitVec 4) (s : State) : Res := .next (s.msgTake x.toNat 0x10)
/-- RELEASE from the parent port. -/
def execRelease (x : BitVec 4) (s : State) : Res := .next (s.msgTake x.toNat 0x11)

/-- The held messages of a launch that has come to their step are applied; those of an earlier step are logged and dropped. -/
def State.heldApply (s : State) (k : Nat) : State :=
  let job := s.fld (LNCH.JOB k) LNCH.JOB_TAG
  let now := (s.launch k).step.toNat
  if s.jobSlot job ≠ some k then s
  else
    let mine := s.disp.held.filter fun h => h.job == job && decide (h.step ≤ now)
    let s := { s with disp := { s.disp with held := s.disp.held.filter fun h => !(h.job == job && decide (h.step ≤ now)) } }
    mine.foldl (fun (s : State) (h : HeldMsg) => if h.step < now then s.mileEvent (s.launchId k) h.id 0 false else s.msgApply k h) s

/-- A notice of a peer is written to the guestbook and raises PEER_NOTICE; nothing else changes (R413, R493). -/
def State.peerNotice (s : State) (x ty : Nat) : State :=
  match s.stewardHead x ty with
  | none => s
  | some b => ((s.rxPop x 3).event kPEER_NOTICE 0 (srcOf 11 0) 0 (leAt b 6 2) b).raise iPEER_NOTICE

/-- THERMAL_NOTICE. -/
def execThermalNotice (x : BitVec 4) (s : State) : Res := .next (s.peerNotice x.toNat 0x20)
/-- HEALTH_NOTICE. -/
def execHealthNotice (x : BitVec 4) (s : State) : Res := .next (s.peerNotice x.toNat 0x21)

end Sys2Proof.Machine
end

