-- ==== Sys2Proof/Machine/Launch.lean ====
section
/-!
DEFINITION. Sys2Proof/Machine/Launch.lean: launch slots (R436, R437), the ends of legs and steps (R440, R445), the kill of a
context (R446, R177), the semaphore word (R447), device failure (R492) and clock wakes (R25, R26, R110).
-/

namespace Sys2Proof.Machine

/-! ### The semaphore word (R447) -/

/-- The word's value. -/
def State.semWord (s : State) (k : Nat) : Nat :=
  (s.launch k).stepsDone % 2 ^ 48 + s.fld (LNCH.STATUS k) LNCH.STATUS_CAUSE * 2 ^ 48 + s.slotState k * 2 ^ 56

/-- The memories in which a semaphore word may lie. -/
def semReach (dpa : Nat) : Bool :=
  match targetOf dpa with
  | .buffer => true
  | .site _ _ => true
  | .hostWindow _ => true
  | _ => false

/-- The word is written whole, and the slot's vector raised when IRQ_ENABLE is 1. -/
def State.semaphore (s : State) (k : Nat) : State :=
  let a := s.fld (LNCH.SEM k) LNCH.SEM_DPA / 8 * 8
  let s := if semReach a then (s.writeNow a (leBytes 8 (s.semWord k))).1 else s
  if s.flag (LNCH.CTRL k) LNCH.CTRL_IRQ_ENABLE then s.msix (s.fld (LNCH.CTRL k) LNCH.CTRL_VECTOR) else s

/-- A slot enters DONE, FAILED or KILLED: its LAUNCH entry, its semaphore word and its vector (R437, R445, R446). -/
def State.launchEnd (s : State) (k state cause : Nat) : State :=
  let s := (s.setFld (LNCH.STATUS k) LNCH.STATUS_STATE state).setFld (LNCH.STATUS k) LNCH.STATUS_CAUSE cause
  (s.event kLAUNCH cause (srcOf 11 0) (s.launchId k) (s.reg (LNCH.STATUS k)).toNat [BitVec.ofNat 8 k]).semaphore k

/-! ### The kill of a context (R446) -/

/-- The porters that legs of a launch run on. -/
def State.launchPorters (s : State) (k : Nat) : List Nat :=
  let la := s.launch k
  let img := s.imageOf k
  (la.legs.zip la.runs).flatMap fun x => if x.2.phase == .running && x.2.portersLeft != 0 then x.1.porterList img else []

/-- Waiters leave the pending entries (R284); a porter's request among them is answered, so that its slot is free. -/
def State.faultWithdraw (s : State) (p : Lookup → Bool) : State :=
  let pend := (List.range 64).flatMap fun i => match s.pend i with
    | none => []
    | some f => f.waiters
  let ws := (s.ctu.waiting.map (·.1) ++ s.ctu.missed ++ pend).filter p
  ws.foldl (fun s q => match q.who with
    | .stop _ _ => (s.stallClear q).ctuAnswer q .abort
    | _ => s) (s.ctuWithdraw p)

/-- CONTEXT_KILL (R446): porters, couriers, fault waits and hostel blocks of the launch stop, and its milestones with them. The
slices close its reductions at REDUCE_CLOSE. -/
def State.contextKill (s : State) (k : Nat) : State :=
  let la := s.launch k
  if !la.killing || la.killSent then s
  else
    let l := s.launchId k
    let ps := s.launchPorters k
    let rows := ps.foldl (fun m n => Nat.lor m (2 ^ (n / 64))) 0
    let cols := ps.foldl (fun m n => Nat.lor m (2 ^ (n % 64))) 0
    let s := s.setLaunch k { la with killSent := true }
    let s := s.meshMulticast (BitVec.ofNat 64 rows) (BitVec.ofNat 64 cols) 1 (.kill l)
    let s := ((s.couriersStop l).faultWithdraw fun q => q.launch == l).stopHostels l
    { s with mileMsgs := s.mileMsgs.filter fun m => m.slot != k }

/-- Accesses on the caravan link that a context issued before it stopped. -/
def State.peersOut (s : State) (l : BitVec 16) : Bool := s.hosGroups.any fun g => g.2.used && g.2.launch == l && !g.2.peer.isEmpty

/-- The blocks of a context are gone: allocations and tile registers cleared, group slots free (Table 5.11). -/
def State.freeBlocks (s : State) (l : BitVec 16) : State :=
  (List.range 8).foldl (fun s h =>
    let mine := (List.range 8).filter fun b => (s.blockAt h b).used && (s.blockAt h b).launch == l
    if mine.isEmpty then s
    else
      let s := mine.foldl (fun s b => (s.clearBytes (storeBase h + (s.blockAt h b).alloc) (s.blockAt h b).size).setBlock h b {}) s
      let s := (List.range 64).foldl (fun s g => if (s.group h g).used && (s.group h g).launch == l then s.setGroup h g {} else s) s
      s.hosCount h) s

/-- A launch is killed with a cause and all of it stops at once. -/
def State.killNow (s : State) (k cause : Nat) : State := (s.startKill (s.launchId k) cause (srcOf 11 0) 0 0 0 0).contextKill k

/-- Whether a slot holds a launch that is checked or runs. -/
def State.slotBusy (s : State) (k : Nat) : Bool := s.slotState k == 1 || s.slotState k == 2

/-- Every launch is killed with a cause. -/
def State.killEach (s : State) (cause : Nat) : State :=
  (List.range 16).foldl (fun s k => if s.slotBusy k then s.killNow k cause else s) s

/-- KILLED (R236): a porter's notice starts the kill of its context. -/
def execKilled (s : State) : Res :=
  match s.takeInbox stewardEnd (fun b => match b with | .killed _ _ => true | _ => false) with
  | some (.killed _ l, s) => .next (match s.slotOf l with
    | some k => s.contextKill k
    | none => s)
  | _ => .next s

/-- KILL_COMPLETE (R177, R446, R447): once what the context had issued has taken effect, the slot enters KILLED. -/
def execKillComplete (slot : BitVec 4) (s : State) : Res :=
  let k := slot.toNat
  if !s.slotBusy k || !(s.launch k).killing then .next s
  else
    let l := s.launchId k
    let s := s.contextKill k
    if s.peersOut l then .next s
    else .next ((s.freeBlocks l).launchEnd k 5 (s.fld (LNCH.STATUS k) LNCH.STATUS_CAUSE))

/-- LAUNCH_ABORT (R446): CTRL.ABORT kills the launch. -/
def execLaunchAbort (slot : BitVec 4) (s : State) : Res :=
  .next (if s.slotBusy slot.toNat then s.killNow slot.toNat cLAUNCH_ABORTED else s)

/-- SLOT_RELEASE (Table 14.12): a DONE, FAILED or KILLED slot becomes FREE. -/
def execSlotRelease (slot : BitVec 4) (s : State) : Res :=
  let k := slot.toNat
  .next (if 3 ≤ s.slotState k then s.setFld (LNCH.STATUS k) LNCH.STATUS_STATE 0 else s)

/-! ### Steps (R445) -/

/-- A leg at the start of a step. -/
def LegEntry.fresh (l : LegEntry) : LegRun :=
  { blocksLeft := l.blocks, blocksToPlace := l.blocks, portersLeft := l.porters, descsLeft := l.descs }

/-- The contexts of the launch's streams are empty again; the checkpoint's is kept. -/
def State.streamReset (s : State) (k : Nat) : State :=
  let la := s.launch k
  la.streams.foldl (fun s e => if la.ckptLen ≠ 0 && e.ctx = la.ckptCtx then s else s.setHashCtx k e.ctx {}) s

/-- A step begins: every leg unstarted, every milestone unreleased, D_batch cleared (R133), a batch stream of length 0 closed
(R433), a milestone that expects nothing complete, and the messages held for the step applied (R443). -/
def State.stepBegin (s : State) (k : Nat) : State :=
  let la := s.launch k
  let s := s.setLaunch k { la with
    runs := la.legs.map LegEntry.fresh, mileRuns := la.miles.map fun _ => {}, dbatch := 0, closing := false, tallyRange := false }
  let s := (s.streamReset k).batchDigest k
  let s := (List.range la.miles.length).foldl (fun s j => s.mileComplete k j) s
  (s.heldApply k).admitLegs

/-- Whether an arrival of a launch has still to be counted. -/
def State.arrivalsOut (s : State) (k : Nat) : Bool :=
  s.mileMsgs.any (fun m => m.slot == k) || (s.inbox stewardEnd).any fun e => match e.2 with
    | .mile m _ => m.slot == k && m.launch == s.launchId k
    | _ => false

/-- STEP_END (R445): after the step milestone and the end of every running leg. -/
def execStepEnd (slot : BitVec 4) (s : State) : Res :=
  let k := slot.toNat
  let la := s.launch k
  if !s.mileLive k || !la.closing || la.runs.any LegRun.charged || s.arrivalsOut k then .next s
  else if la.runs.any fun r => r.phase != .ended then .next (s.startKill (s.launchId k) cSTEP_INCOMPLETE (srcOf 11 0) 0 0 0 0)
  else
    let n := la.stepsDone + 1
    let s := (s.setLaunch k { la with stepsDone := n, step := la.step + 1 }).setFld (LNCH.STATUS k) LNCH.STATUS_STEPS_DONE n
    if n = max 1 (s.fld (LNCH.STEPS k) LNCH.STEPS_COUNT) then .next (s.launchEnd k 3 0)
    else .next ((s.stepBegin k).semaphore k)

/-! ### Starting a launch (R436, R437) -/

/-- Whether a slot that is not FREE holds an identifier. -/
def State.idHeld (s : State) (l : BitVec 16) : Bool := (List.range 16).any fun k => s.slotState k != 0 && s.launchId k == l

/-- The next identifier from `l` on that is neither 0 nor held. -/
def State.pickId (s : State) : Nat → BitVec 16 → BitVec 16
  | 0, l => l
  | n + 1, l => if l = 0 || s.idHeld l then s.pickId n (l + 1) else l

/-- GO (R436): an identifier is assigned and the checks begin. Before SERVICE the write is ignored (R463); on a
device that has failed, in stage or in health, the slot fails at once (R459, R492). -/
def execGo (slot : BitVec 4) (s : State) : Res :=
  let k := slot.toNat
  if s.slotState k ≠ 0 then .next s
  else if s.fld BRG.STATUS BRG.STATUS_STAGE < 3 then .next s
  else
    let l := s.pickId 18 s.nextLaunch
    let t := (s.setReg (LNCH.STATUS k) 0).setFld (LNCH.STATUS k) LNCH.STATUS_LAUNCH l.toNat
    let t := { t with nextLaunch := l + 1 }
    if s.fld GB.HEALTH GB.HEALTH_STATE = 2 ∨ s.fld BRG.STATUS BRG.STATUS_STAGE ≠ 3 then .next ((t.setLaunch k {}).launchEnd k 4 cDEVICE_FAILED)
    else
      let t := { t.setFld (LNCH.STATUS k) LNCH.STATUS_STATE 1 with goOrder := s.goOrder + 1 }
      .next (t.setLaunch k { order := t.goOrder, image := t.fld (LNCH.ITIN k) LNCH.ITIN_DPA })

/-- LAUNCH_CHECK_DONE (R436, R437): the slot fails with a cause of Table 14.7, or enters RUNNING and its first step begins. -/
def execLaunchCheckDone (slot : BitVec 4) (s : State) : Res :=
  let k := slot.toNat
  let o := s.launch k
  if s.slotState k ≠ 1 || o.killing then .next s
  else
    let (s, img) := s.readImage o.image
    match img with
    | none => .next (s.launchEnd k 4 cIMAGE_FORMAT)
    | some img =>
      match parseImage img with
      | none => .next (s.launchEnd k 4 cIMAGE_FORMAT)
      | some la =>
        let c := s.launchCause img la
        if c ≠ 0 then .next (s.launchEnd k 4 c)
        else
          let s := s.setLaunch k { la with
            order := o.order, image := o.image, step := s.reg (LNCH.STEP k), dprog := digOf img, dckpt := s.lastCkpt }
          let s := (List.range 16).foldl (fun s h => s.setHashCtx k h {}) s
          .next ((s.setFld (LNCH.STATUS k) LNCH.STATUS_STATE 2).stepBegin k)

/-! ### Porters' messages (R235, R238, R440) -/

/-- DONE (R440): a porter's part of its leg has ended, and its flags join the leg's (R232). -/
def execDone (s : State) : Res :=
  match s.takeInbox stewardEnd (fun b => match b with | .done _ _ => true | _ => false) with
  | some (.done m f, s) =>
    if !s.mileLive m.slot || s.launchId m.slot ≠ m.launch then .next s
    else .next ((s.setRun m.slot m.leg fun r =>
      { r with portersLeft := r.portersLeft - 1, flags := Nat.lor r.flags f.toNat }).legCheck m.slot m.leg)
  | _ => .next s

/-- IMAGE_BAD (R238): the steward learns of a load that failed; the porter's IMAGE_OK stays 0, and its START is refused. -/
def execImageBad (s : State) : Res :=
  match s.takeInbox stewardEnd (fun b => match b with | .imageBad _ => true | _ => false) with
  | some (_, s) => .next s
  | none => .next s

/-- START_REFUSED (R235, R437): the launch fails with PORTER_REFUSED, and all of it stops. -/
def execStartRefused (s : State) : Res :=
  match s.takeInbox stewardEnd (fun b => match b with | .startRefused _ _ => true | _ => false) with
  | some (.startRefused _ m, s) =>
    if !s.mileLive m.slot || s.launchId m.slot ≠ m.launch then .next s
    else
      let la := s.launch m.slot
      let s := (s.setLaunch m.slot { la with killing := true }).contextKill m.slot
      .next ((s.freeBlocks m.launch).launchEnd m.slot 4 cPORTER_REFUSED)
  | _ => .next s

/-- LEG_WATCHDOG (R440): a leg that has not ended by its watchdog kills the context. -/
def execLegWatchdog (slot : BitVec 4) (leg : BitVec 12) (s : State) : Res :=
  let k := slot.toNat
  if s.mileLive k && (s.run k leg.toNat).phase == .running then
    .next (s.startKill (s.launchId k) cLEG_WATCHDOG (srcOf 11 0) leg.toNat 0 0 0)
  else .next s

/-! ### Device failure (R491, R492) -/

/-- A failed reason arises: its bit and the state; on entry every launch is killed and every Oxlux port fenced. -/
def State.deviceFail (s : State) (bit : Nat) : State :=
  let s := s.setReg GB.HEALTH (s.reg GB.HEALTH ||| BitVec.ofNat 64 (2 ^ bit))
  if s.fld GB.HEALTH GB.HEALTH_STATE = 2 then s
  else
    let s := (s.setFld GB.HEALTH GB.HEALTH_STATE 2).killEach cDEVICE_FAILED
    let s := (List.range 16).foldl (fun s x => if s.oxHere x then s.fenceOx x else s) s
    s.healthChanged

/-! ### Gated clocks (R25, R26, R110) -/

/-- Whether a running or eligible leg needs a domain. -/
def State.domainNeeded (s : State) (d : Nat) : Bool :=
  s.runOrder.any fun k =>
    let la := s.launch k
    (la.legs.zip la.runs).any fun x => (x.2.charged || s.eligible k x.1 x.2) && (s.legDomains (s.imageOf k) x.1).contains d

/-- CLOCK_GATE_IDLE (R26): a domain that no running or eligible leg needs stops. -/
def execClockGateIdle (d : Domain) (s : State) : Res :=
  .next (if s.domainNeeded (domainNum d) then s else s.setClock (domainNum d) 0)

/-- The porters of a half. -/
def halfPorters (e : Nat) : List Nat := (List.range 4096).filter fun n => n % 64 / 32 == e

/-- A hostel is fenced. -/
def State.fenceHostelBits (s : State) (h : Nat) : State :=
  (s.setFlag (HOS.CTRL h) HOS.CTRL_FENCE true).setFlag (HOS.STATUS h) HOS.STATUS_FENCED true

/-- The units of a domain are fenced after its PLL failed to lock; the fabric's failure is the device's (Tables 16.8, 16.9). -/
def State.pllFence (s : State) : Domain → State
  | .fabric _ => s.deviceFail 18
  | .hostel h => (s.fenceHostelBits h.toNat).degrade 12
  | .porter east => ((halfPorters (b2n east)).foldl (fun s n =>
      if s.flag (POR.STATUS n) POR.STATUS_PRESENT then
        (s.setFlag (POR.CTRL n) POR.CTRL_FENCE true).setFlag (POR.STATUS n) POR.STATUS_FENCED true
      else s) s).degrade 12
  | .upper u => s.fenceUpper u.toNat
  | .site i => s.fenceSite i.toNat
  | .oxlux x => s.fenceOx x.toNat

/-- The source and register of a domain's unit, for its UNIT entry. -/
def domainUnit : Domain → Nat × Nat
  | .fabric east => (srcOf 2 (b2n east), BRG.STATUS)
  | .hostel h => (srcOf 4 h.toNat, HOS.STATUS h.toNat)
  | .porter east => (srcOf 3 (32 * b2n east), POR.STATUS (32 * b2n east))
  | .upper u => (srcOf 10 u.toNat, UP.STATUS u.toNat)
  | .site i => (srcSite i.toNat, MEM.STATUS i.toNat)
  | .oxlux x => (srcOf 9 x.toNat, OX.STATUS x.toNat)

/-- CLOCK_WAKE_END (R110): the domain runs; or its PLL has not locked: the fault is logged, its units are fenced, and the contexts
whose legs wait for it are killed. -/
def execClockWakeEnd (d : Domain) (locked : Bool) (s : State) : Res :=
  let n := domainNum d
  if s.clock n ≠ 1 then .next s
  else if locked then .next (s.setClock n 2)
  else
    let (src, r) := domainUnit d
    let users := s.runOrder.filter fun k =>
      let la := s.launch k
      (la.legs.zip la.runs).any fun x => (x.2.phase == .admitted || s.eligible k x.1 x.2) && (s.legDomains (s.imageOf k) x.1).contains n
    let s := (s.setClock n 0).unitEvent src (s.reg r).toNat 4
    let s := users.foldl (fun s k => s.startKill (s.launchId k) cPLL_LOCK src 0 0 0 0) s
    .next (s.pllFence d)

end Sys2Proof.Machine
end

