-- ==== Sys2Proof/Machine/Pcie.lean ====
section
/-!
DEFINITION. Sys2Proof/Machine/Pcie.lean: the PCIe port (R448-R453): configuration, BAR2, completions and resets of the function.
-/

namespace Sys2Proof.Machine

/-! ### MSI-X (R452) -/

/-- Pending vectors that are no longer masked are sent. -/
def State.msixFlush (s : State) : State :=
  if !s.pcie.msixEnable || s.pcie.msixFuncMask then s
  else (ones 64 s.pcie.pba.toNat).foldl (fun s v =>
    if (s.msixWord (4 * v + 3)).getLsbD 0 then s
    else ({ s with pcie := { s.pcie with pba := s.pcie.pba &&& ~~~ BitVec.ofNat 64 (2 ^ v) } } : State).msix v) s

/-! ### Configuration space (Table 14.9). Its capability offsets and write masks are the PCIe family's (PRESUMED, assumption 27) -/

/-- The fixed bits of a double word. -/
def State.configBase (s : State) (r : Nat) : Nat :=
  match r with
  | 0 => 0x0B20 * 65536 + Config.vendorId.toNat
  | 1 => 0x00100000
  | 2 => 0x120000A1
  | 4 => 0x4
  | 6 => 0xC
  | 13 => 0x40
  | 16 => 0x00028010
  | 17 => 0x10008022
  | 19 => 0x00000046
  | 20 => (s.fld PCIE.STATUS PCIE.STATUS_GEN + 16 * s.fld PCIE.STATUS PCIE.STATUS_WIDTH) * 65536
  | 32 => 0x00039001
  | 36 => 0x003F0011
  | 37 => 0x00501000
  | 38 => 0x00501800
  | 64 => 0x15020001
  | 84 => 0x16010003
  | 85 => s.fld GLB.SERIAL GLB.SERIAL_SERIAL % 2 ^ 32
  | 86 => s.fld GLB.SERIAL GLB.SERIAL_SERIAL / 2 ^ 32
  | 88 => 0x17010025
  | 92 => 0x1B010026
  | 108 => 0x1E01002A
  | 120 => 0x00010031
  | _ => 0

/-- The bits of a double word that a write sets. -/
def configMask (r : Nat) : W32 :=
  match r with
  | 1 => 0x00000546
  | 3 => 0x000000FF
  | 4 => 0xFC000000
  | 5 => 0xFFFFFFFF
  | 6 => 0xC0000000
  | 7 => 0xFFFFFFFF
  | 15 => 0x000000FF
  | 18 => 0x00007FFF
  | 33 => 0x00000003
  | 36 => 0xC0000000
  | _ => 0

/-- A double word of the configuration space; the MSI-X enable and mask are the port's own bits. -/
def State.configWord (s : State) (r : Nat) : W32 :=
  let stored := tabGet 0 s.pcie.config r
  let v := if r = 36 then BitVec.ofNat 32 (b2n s.pcie.msixEnable * 2 ^ 31 + b2n s.pcie.msixFuncMask * 2 ^ 30)
    else if r = 1 then putBits stored.toNat 2 2 (b2n (s.flag PCIE.STATUS PCIE.STATUS_BME)) else stored
  BitVec.ofNat 32 (s.configBase r) ||| (v &&& configMask r)

/-- A write of a double word. -/
def State.configPut (s : State) (r : Nat) (v : W32) : State :=
  let s := { s with pcie := { s.pcie with config := tabSet 0 s.pcie.config r (v &&& configMask r) } }
  if r = 1 then s.setFlag PCIE.STATUS PCIE.STATUS_BME (v.getLsbD 2)
  else if r = 36 then
    ({ s with pcie := { s.pcie with msixEnable := v.getLsbD 31, msixFuncMask := v.getLsbD 30 } } : State).msixFlush
  else s

/-- CONFIG_REQUEST (R448, R449): Request Retry Status until ready. -/
def execConfigRequest (write : Bool) (reg : BitVec 10) (v : BitVec 32) (s : State) : Res :=
  if !s.flag GLB.STATUS GLB.STATUS_READY then .next (s.pcieSend .configRetry)
  else if write then .next ((s.configPut reg.toNat v).pcieSend (.completion true []))
  else .next (s.pcieSend (.configData (s.configWord reg.toNat)))

/-! ### BAR2 (R450) -/

/-- The pieces of a range at boundaries of `g` bytes: offset into the range and length. -/
def rangePieces (g : Nat) : Nat → Nat → Nat → Nat → List (Nat × Nat)
  | 0, _, _, _ => []
  | f + 1, a, off, n => if n = 0 then [] else
    let m := min n (g - a % g)
    (off, m) :: rangePieces g f (a + m) (off + m) (n - m)

/-- The path of a DPA range: crossroads port 217 for the buffer, the mesh for sites and porter memory; none is refused. -/
inductive Bar2Path where
  | buffer
  | site (i : Nat)
  | porter (n : Nat)
  | none
  deriving DecidableEq, Repr

def State.bar2Path (s : State) (dpa n : Nat) : Bar2Path :=
  match targetOf dpa with
  | .buffer => if dpa + n ≤ 0x30000000 then .buffer else .none
  | .site i off => if off + n ≤ s.siteBytes i && s.siteEnabled i then .site i else .none
  | .porterMem p => if dpa % 65536 + n ≤ 65536 then .porter p else .none
  | _ => .none

/-- The cause of a refused access: UNREACHABLE for a range that is there and has no path, DECODE for any other (R32, R33). -/
def bar2Cause (dpa : Nat) : Nat :=
  match targetOf dpa with
  | .csr _ => cUNREACHABLE
  | .hostelStore _ => cUNREACHABLE
  | .hostWindow _ => cUNREACHABLE
  | .remote _ _ => cUNREACHABLE
  | _ => cDECODE

/-- A BAR2 access begins: its record and its parts, each sent on its way. -/
def State.bar2Start (s : State) (dpa n : Nat) (data : Option (List Byte)) : State :=
  let path := s.bar2Path dpa n
  let write := data.isSome
  if path = .none || n = 0 then s.bar2Fail dpa (bar2Cause dpa) write
  else
    let id := (s.pcie.bar2.map Bar2.id).foldl max 0 + 1
    let ps := rangePieces (if path = .buffer then 256 else 64) (n / 64 + 2) dpa 0 n
    let s := { s with pcie := { s.pcie with bar2 := s.pcie.bar2 ++ [{ id := id, write := write, dpa := dpa, left := ps.length }] } }
    ps.zipIdx.foldl (fun (s : State) (p : (Nat × Nat) × Nat) =>
      let a := dpa + p.1.1
      let d := ((data.getD []).drop p.1.1).take p.1.2
      let who := Asker.host id p.2
      let q : MemReq := { op := if write then .write else .read, dpa := a, n := p.1.2, data := d, who := who, back := stewardEnd }
      match path with
      | .buffer => if write then s.bgWrite .host a d who else s.bgRead .host a p.1.2 who
      | .site i => s.meshSend 3 stewardEnd (.one (siteEnd i)) (1 + payFlits d.length) (.req q)
      | .porter m => s.meshSend 3 stewardEnd (.one (coreEnd m)) (1 + payFlits d.length) (.req q)
      | .none => s) s

/-- The DPA of a BAR2 offset. -/
def State.bar2Dpa (s : State) (off : Nat) : Nat := s.pcie.window * 2 ^ 30 + off

/-- BAR2_READ: a length of 0 stands for 4,096 B (DESIGN CHOICE: the operand's width). -/
def execBar2Read (off : BitVec 30) (len : BitVec 12) (s : State) : Res :=
  .next (s.bar2Start (s.bar2Dpa off.toNat) (if len = 0 then 4096 else len.toNat) none)

/-- BAR2_WRITE. -/
def execBar2Write (off : BitVec 30) (data : List (BitVec 8)) (s : State) : Res :=
  .next (s.bar2Start (s.bar2Dpa off.toNat) data.length (some data))

/-- BAR2_WINDOW_WRITE (R450): the window of the accesses received from now on. -/
def execBar2WindowWrite (v : BitVec 64) (s : State) : Res :=
  let w := bitsOf v.toNat 47 30
  .next { s.setFld PCIE.BAR2_WINDOW PCIE.BAR2_WINDOW_BASE w with pcie := { s.pcie with window := w } }

/-! ### The host window (R451) -/

/-- A read of the host window ends. -/
def State.hostEnd (s : State) (h : HostAcc) (cause : Nat) (data : List Byte) : State :=
  let s := { s with pcie := { s.pcie with host := s.pcie.host.filter fun x => x.tag != h.tag } }
  let s := if cause = 0 then s else s.busError cause (srcOf 13 0) 0 h.addr
  (s.answer h.who cause data).hostPump

/-- HOST_COMPLETION: data of a read, which ends with its last byte; an error completion ends it with HOST_ABORT. -/
def execHostCompletion (tag : BitVec 10) (ok : Bool) (data : List (BitVec 8)) (s : State) : Res :=
  match s.pcie.host.find? fun h => h.tag == some tag.toNat with
  | none => .next s
  | some h =>
    if !ok then .next (s.hostEnd h cHOST_ABORT [])
    else
      let d := h.data ++ data
      if h.n ≤ d.length then .next (s.hostEnd h 0 (d.take h.n))
      else .next { s with pcie := { s.pcie with host := s.pcie.host.map fun x => if x.tag = h.tag then { x with data := d } else x } }

/-- COMPLETION_TIMEOUT (R451). -/
def execCompletionTimeout (tag : BitVec 10) (s : State) : Res :=
  match s.pcie.host.find? fun h => h.tag == some tag.toNat with
  | none => .next s
  | some h => .next (s.hostEnd h cHOST_ABORT [])

/-! ### Resets of the function (R453) -/

/-- Every launch is killed and its slot becomes FREE; the window, the host base, MSI-X and the fault queue's enable return to 0. -/
def State.functionReset (s : State) : State :=
  let s := (List.range 16).foldl (fun s k =>
    let s := if s.slotBusy k then
        let l := s.launchId k
        let s := s.killNow k cLAUNCH_ABORTED
        (s.freeBlocks l).launchEnd k 5 (s.fld (LNCH.STATUS k) LNCH.STATUS_CAUSE)
      else s
    s.setFld (LNCH.STATUS k) LNCH.STATUS_STATE 0) s
  let s := (s.setReg PCIE.BAR2_WINDOW 0).setReg PCIE.HOST_BASE 0
  let s := { s with pcie := { s.pcie with msixEnable := false, window := 0 } }
  s.setFlag CTU.FQ_CTRL CTU.FQ_CTRL_ENABLE false

def execFunctionLevelReset (s : State) : Res := .next s.functionReset
def execHotReset (s : State) : Res := .next s.functionReset
/-- PCIE_LINK_DOWN: the link is no longer trained. -/
def execPcieLinkDown (s : State) : Res :=
  .next ((s.functionReset).setReg PCIE.STATUS (s.reg PCIE.STATUS &&& ~~~ BitVec.ofNat 64 0xFF))
def execD3hotEntry (s : State) : Res := .next s.functionReset

/-! ### BAR0 (R449) -/

/-- BAR0_MISALIGNED_ACCESS: an access that is 4 B or 8 B and aligned is none. The log's cause is 0: Table 16.2 has none for it. -/
def execBar0MisalignedAccess (off : BitVec 26) (len : Nat) (write : Bool) (s : State) : Res :=
  if (len = 4 || len = 8) && off.toNat % len = 0 then .next s
  else
    let s := s.pcieLog off.toNat 0 0 write
    .next (if write then s else s.pcieSend (.completion false []))

end Sys2Proof.Machine
end

