-- ==== Sys2Proof/Machine/Power.lean ====
section
/-!
DEFINITION. Sys2Proof/Machine/Power.lean: rails (R394-R396), sensors and zones (R398-R402, R414-R418), current limits (R407), the
energy budget (R408-R412) and the seals of the power block (R421).
-/

namespace Sys2Proof.Machine

/-! ### Sensors (R398, R400) -/

/-- Whether a quarter-degree reading lies from −40 °C to 150 °C. -/
def sensorRange (q : Int) : Bool := decide (-160 ≤ q) && decide (q ≤ 600)

/-- Thresholds in quarter degrees. -/
def State.tripQ (s : State) (z : Nat) (f : Fld) : Int := 4 * (s.fld (PT.ZONE_THRESH z) f : Int)
def State.shutQ (s : State) (z : Nat) : Int := 4 * (s.fld (PT.ZONE_LIMIT z) PT.ZONE_LIMIT_SHUTDOWN : Int)
/-- What a broken sensor reads as. -/
def State.brokenQ (s : State) (z : Nat) : Int := s.tripQ z PT.ZONE_THRESH_THR_TRIP + 4

def State.dieBroken (s : State) (z k : Nat) : Bool := bitOf (s.fld (PT.ZONE_BROKEN z) PT.ZONE_BROKEN_DIE) k
def State.extBroken (s : State) (z k : Nat) : Bool := bitOf (s.fld (PT.ZONE_BROKEN z) PT.ZONE_BROKEN_EXT) k

/-- A die sensor is marked broken or good. -/
def State.dieMark (s : State) (z k : Nat) (b : Bool) : State :=
  (s.setFld (PT.ZONE_BROKEN z) PT.ZONE_BROKEN_DIE (putBits (s.fld (PT.ZONE_BROKEN z) PT.ZONE_BROKEN_DIE) k k (b2n b))).updZone z
    fun v => { v with dieGood := tabSet 0 v.dieGood k 0 }

/-- One die sensor of a sample: a reading that is out of range, or missing, breaks it. -/
def State.dieSample (s : State) (z : Nat) (v : List (BitVec 12)) (k : Nat) : State × Int :=
  let q : Int := match v[k]? with
    | some b => b.toInt
    | none => 1000
  let s := if sensorRange q then s else s.dieMark z k true
  (s, if s.dieBroken z k then s.brokenQ z else q)

/-- The HBM sites whose stacks belong to a zone. -/
def zoneSite (z k : Nat) : Nat := 8 * (z / 12) + 2 * (z % 12) + k

/-- One stack's readout: a failed, impossible or stuck reading breaks it, and ten good readings in a row return it (R321, R400). -/
def State.stackSample (s : State) (z : Nat) (v : List (Option (BitVec 12))) (k : Nat) : State × Option Int :=
  let i := zoneSite z k
  if !s.siteHere i then (s, none)
  else
    let r := MEM.TEMP i
    let (s, good, q) : State × Bool × Int := match (v[k]?).getD none with
      | none => (s.setFlag r MEM.TEMP_VALID false, false, 0)
      | some b =>
        let c := b.toInt / 4
        let code := wrapTo 8 c
        let (o, n) := tabGet (0, 0) (s.zone z).extSame k
        let n := if n ≠ 0 && o = code then n + 1 else 1
        let s := s.updZone z fun v => { v with extSame := tabSet (0, 0) v.extSame k (code, n) }
        let s := (s.setFld r MEM.TEMP_CELSIUS code).setFlag r MEM.TEMP_VALID true
        (s, sensorRange (4 * c) && decide (n < 60000), 4 * c)
    let s := if good then s.extGoodReading z k else s.extBreak z k
    (s, some (if s.extBroken z k then s.brokenQ z else q + 4 * (s.fld (PT.ZONE_LIMIT z) PT.ZONE_LIMIT_EXT_OFFSET : Int)))

/-- The compute die whose interface lies in a zone, once it is in service and has sent THERMAL, or is broken. -/
def State.dieExt (s : State) (z : Nat) : Option Int :=
  let u := zoneUpper z
  if (s.upper u).phase < 4 then none
  else if s.extBroken z 0 then some (s.brokenQ z)
  else if s.flag (UP.TEMP u) UP.TEMP_VALID then
    some (4 * sextOf 8 (s.fld (UP.TEMP u) UP.TEMP_CELSIUS) + 4 * (s.fld (PT.ZONE_LIMIT z) PT.ZONE_LIMIT_EXT_OFFSET : Int))
  else none

/-- The sensors of a zone are read in ascending index; the reading is the largest, and SHUTDOWN's threshold when every sensor is
broken (R398, R400). -/
def State.zoneRead (s : State) (v : ZoneSample) : State :=
  let z := v.zone.toNat
  let (s, die) := (List.range 4).foldl (fun (a : State × List Int) k => let r := a.1.dieSample z v.die k; (r.1, a.2 ++ [r.2])) (s, [])
  let (s, ext) := if hbmZone z then
      (List.range 2).foldl (fun (a : State × List Int) k => let r := a.1.stackSample z v.ext k; (r.1, a.2 ++ r.2.toList)) (s, [])
    else if faceZone z then (s, (s.dieExt z).toList) else (s, [])
  let all := die ++ ext
  let dead := (List.range 4).all (s.dieBroken z) && (List.range ext.length).all (s.extBroken z)
  let q := if dead then s.shutQ z else all.foldl max (all.headD 0)
  s.setFld (PT.ZONE_STATUS z) PT.ZONE_STATUS_READING (wrapTo 12 q)

/-- Whether every sensor of a zone is broken. -/
def State.zoneDead (s : State) (z : Nat) : Bool :=
  (List.range 4).all (s.dieBroken z) &&
    (if hbmZone z then (List.range 2).all fun k => !s.siteHere (zoneSite z k) || s.extBroken z k
     else if faceZone z then (match s.dieExt z with
       | some _ => s.extBroken z 0
       | none => true)
     else true)

/-! ### Sampling rate (R399, R414) -/

/-- The HBM zones whose heat couples to a zone: its partner, or for an interface zone both zones of its site. -/
def coupledTo (z : Nat) : List Nat :=
  let w := 12 * (z / 12)
  if hbmZone z then [w + (if z % 2 = 0 then z % 12 + 1 else z % 12 - 1)]
  else if faceZone z then [w + 2 * (z % 12 - 8), w + 2 * (z % 12 - 8) + 1] else []

def State.coupled (s : State) (z : Nat) : Bool := (coupledTo z).any fun y => s.zoneState y == zWARNING || s.zoneState y == zTHROTTLE

/-- Fast sampling begins near the throttle threshold, and ends after ten samples below it, unless a coupling or a deferral holds
it; the last fast samples are kept for the slope. -/
def State.zoneRate (s : State) (z : Nat) : State :=
  let q := s.zoneReading z
  let st := PT.ZONE_STATUS z
  let near := decide (s.tripQ z PT.ZONE_THRESH_THR_TRIP - 20 ≤ q)
  let fast := s.flag st PT.ZONE_STATUS_FAST
  let s := s.updZone z fun v => { v with below := if near then 0 else v.below + 1, history := if fast then (q :: v.history).take 9 else [q] }
  if near || s.coupled z || s.zoneDeferred z then s.setFlag st PT.ZONE_STATUS_FAST true
  else if fast && decide (10 ≤ (s.zone z).below) then s.setFlag st PT.ZONE_STATUS_FAST false
  else s

/-- The zones that a zone couples to sample fast from now on. -/
def State.coupleFast (s : State) (z : Nat) : State :=
  if !hbmZone z then s
  else ((List.range 24).filter fun y => (coupledTo y).contains z).foldl (fun s y =>
    (s.setFlag (PT.ZONE_STATUS y) PT.ZONE_STATUS_FAST true).updZone y fun v => { v with below := 0 }) s

/-! ### Shutdown (R417-R419) -/

/-- Rails in the reverse order of R394, VUPn, VHOSn and VPOR first (Table 13.8). -/
def shutOrder : List Nat := [21, 20, 19, 18, 25, 24, 23, 22, 10, 9, 8, 7, 6, 5, 4, 3, 12, 11, 17, 16, 15, 14, 13, 2, 1, 0]

/-- Every regulator is off, and with them the supplies of the upper sites. -/
def State.allOff (s : State) : State := (List.range 4).foldl State.vupOff (s.railsOff shutOrder)

/-- The change of a zone's reading over its last 8 fast samples, in quarter degrees per 250 µs; free where it has not been sampled
fast for so long (assumption 28). -/
def State.slope (s : State) (z : Nat) : State × Int :=
  match (s.zone z).history with
  | a :: t => (match t[7]? with
    | some b => (s, a - b)
    | none =>
      let (i, s) := s.takeFree
      (s, sextOf 12 (Config.freeWord i).toNat))
  | [] =>
    let (i, s) := s.takeFree
    (s, sextOf 12 (Config.freeWord i).toNat)

/-- ORDERLY_SHUTDOWN (R418, Table 13.8), but for the rails, which go off by the deadline. -/
def State.orderly (s : State) (z : Nat) (d : Int) : State :=
  if s.flag PT.STATUS PT.STATUS_SHUTDOWN_PENDING then s
  else
    let s := s.setFlag PT.STATUS PT.STATUS_SHUTDOWN_PENDING true
    let s := (s.putFree (-(s.charges : Int))).updPower fun p => { p with thermAlarm := true }
    let s := (if s.flag PT.CTRL PT.CTRL_NOTICE_ENABLE then s.stewardSendAll (s.noticeBytes z 6) else s).raise iTHERMAL
    let s := s.killEach cTHERMAL_SHUTDOWN
    let s := (List.range 4).foldl (fun s u => if s.upHere u then (s.fenceUpper u).putThr u else s) s
    let s := (List.range 16).foldl (fun s x => if s.oxHere x then s.fenceOx x else s) s
    s.event kSHUTDOWN 0 (srcOf 12 z) 0 (wrapTo 16 (s.zoneReading z)) (leBytes 4 (wrapTo 32 (4 * d)))

/-- IMMEDIATE_SHUTDOWN (R419). -/
def State.immediate (s : State) : State := s.allOff.updPower fun p => { p with thermAlarm := true }

/-- A zone enters SHUTDOWN (R417). -/
def State.zoneShuts (s : State) (z : Nat) : State :=
  let dead := s.zoneDead z
  let s := ((s.setFld (PT.ZONE_STATUS z) PT.ZONE_STATUS_STATE zSHUTDOWN).deferDrop z)
  let q := s.zoneReading z
  let abs := s.shutQ z + 4 * (max 1 (s.fld (PT.ZONE_LIMIT z) PT.ZONE_LIMIT_SHUT_MARGIN) : Int)
  if dead then s.orderly z 0
  else if abs ≤ q then s.immediate
  else
    let (s, d) := s.slope z
    if d ≤ 0 || 8 * d ≤ abs - q then s.orderly z d else s.immediate

/-! ### Zone states (R402, R403, R415) -/

/-- The cross-chip milestones that a running leg's launch has pending. -/
def State.pendingCross (s : State) : List (Nat × Nat) :=
  s.runOrder.flatMap fun k =>
    let la := s.launch k
    if la.runs.any fun r => r.phase == .running then
      (la.miles.zip la.mileRuns).filterMap fun x => if x.1.kind == 1 && !x.2.released then some (k, x.1.id) else none
    else []

/-- A zone enters THROTTLE, deferred where R415 says so. -/
def State.zoneThrottles (s : State) (z : Nat) : State :=
  let st := PT.ZONE_STATUS z
  let s := (s.setFld st PT.ZONE_STATUS_STATE zTHROTTLE).setFld st PT.ZONE_STATUS_LEVEL (max 1 (s.fld (PT.ZONE_LIMIT z) PT.ZONE_LIMIT_START_LEVEL))
  let miles := s.pendingCross
  if hbmZone z && s.flag PT.CTRL PT.CTRL_DEFER_ENABLE && !miles.isEmpty then
    let etc := s.etc
    let s := ((s.setFlag st PT.ZONE_STATUS_DEFERRED true).setFld PT.DEFER PT.DEFER_ZONE z).updZone z fun v => { v with deferAt := etc, deferMiles := miles }
    ((s.setFlag st PT.ZONE_STATUS_FAST true).coupleFast z).zoneNotice z 3
  else (s.coupleFast z).zoneNotice z 2

/-- One zone decides at a sample; `ms`: the sample is a millisecond tick. -/
def State.zoneDecide (s : State) (ms : Bool) (z : Nat) : State :=
  let st := PT.ZONE_STATUS z
  let q := s.zoneReading z
  let cur := s.zoneState z
  let alarm := s.flag st PT.ZONE_STATUS_ALARM
  let trip := decide (s.tripQ z PT.ZONE_THRESH_THR_TRIP ≤ q) || alarm
  let level := s.fld st PT.ZONE_STATUS_LEVEL
  if cur = zSHUTDOWN then s
  else if s.shutQ z ≤ q then s.zoneShuts z
  else if cur = zTHROTTLE then
    if !ms then s
    else if trip then s.setFld st PT.ZONE_STATUS_LEVEL (min 7 (level + 1))
    else if s.tripQ z PT.ZONE_THRESH_THR_CLEAR ≤ q then s
    else if 1 < level then s.setFld st PT.ZONE_STATUS_LEVEL (level - 1)
    else
      let next := if s.tripQ z PT.ZONE_THRESH_WARN_CLEAR ≤ q then zWARNING else zNORMAL
      (((s.setFld st PT.ZONE_STATUS_LEVEL 0).setFld st PT.ZONE_STATUS_STATE next).deferDrop z).zoneNotice z 5
  else if trip then s.zoneThrottles z
  else if cur = zNORMAL then
    if s.tripQ z PT.ZONE_THRESH_WARN_TRIP ≤ q then ((s.setFld st PT.ZONE_STATUS_STATE zWARNING).coupleFast z).zoneNotice z 1 else s
  else if q < s.tripQ z PT.ZONE_THRESH_WARN_CLEAR then s.setFld st PT.ZONE_STATUS_STATE zNORMAL
  else s

/-- Samples in ascending zone index. -/
def sampleOrder (l : List ZoneSample) : List ZoneSample := l.mergeSort fun a b => decide (a.zone.toNat ≤ b.zone.toNat)

/-- THERMAL_SAMPLE (R399, R402): at a millisecond tick every zone, else the zones in fast sampling; sensors first, then decisions.
A shutdown that has taken place leaves nothing to decide. -/
def execThermalSample (readings : List ZoneSample) (s : State) : Res :=
  let ms := decide (s.etc % 1000000 < 80)
  let due := sampleOrder (readings.filter fun v => decide (v.zone.toNat < 24) && (ms || s.flag (PT.ZONE_STATUS v.zone.toNat) PT.ZONE_STATUS_FAST))
  let s := due.foldl (fun s v => (s.zoneRead v).zoneRate v.zone.toNat) s
  .next (due.foldl (fun s v => s.zoneDecide ms v.zone.toNat) s).zoneView

/-- SENSOR_SELF_CHECK (R400): a failed check breaks a die sensor; ten passed checks in a row return it. Bit 4z + k is sensor k of
zone z. -/
def execSensorSelfCheck (pass : BitVec 96) (s : State) : Res :=
  .next ((List.range 96).foldl (fun s i =>
    let z := i / 4
    let k := i % 4
    if !pass.getLsbD i then s.dieMark z k true
    else if !s.dieBroken z k then s
    else
      let n := tabGet 0 (s.zone z).dieGood k + 1
      if n = 10 then s.dieMark z k false else s.updZone z fun v => { v with dieGood := tabSet 0 v.dieGood k n }) s)

/-- DEFER_TIMEOUT (R415): a deferral ends 5 ms after its entry. -/
def execDeferTimeout (z : BitVec 5) (s : State) : Res := .next (s.deferApply z.toNat)

/-- SHUTDOWN_DEADLINE (R418): the rails are off 2.0 ms after the deciding sample. -/
def execShutdownDeadline (s : State) : Res := .next (if s.flag PT.STATUS PT.STATUS_SHUTDOWN_PENDING then s.allOff else s)

/-! ### Current limits (R407) -/

/-- CURRENT_LIMIT_UPDATE: the limit follows the THR level that has risen. -/
def execCurrentLimitUpdate (u : BitVec 2) (s : State) : Res :=
  let l := s.thrLevel u.toNat
  .next (s.updPower fun p => { p with limLevel := tabSet 0 p.limLevel u.toNat l })

/-- I_limit in mA: 1.1 × ((8 − L) ÷ 8) × GRANTED_W ÷ CORE_MV. -/
def State.limitMa (s : State) (u : Nat) : Nat :=
  let mv := s.fld (UP.POWER u) UP.POWER_CORE_MV
  if mv = 0 then 0 else 11 * (8 - tabGet 0 s.power.limLevel u) * s.fld (UP.POWER u) UP.POWER_GRANTED_W * 1000000 / (80 * mv)

/-- CURRENT_LIMIT_REACHED: LIMITING follows the draw; the count of 1 ms begins, or is broken. -/
def execCurrentLimitReached (u : BitVec 2) (limiting : Bool) (s : State) : Res :=
  let r := PT.RAIL (rCore u.toNat)
  if !s.railOn (rCore u.toNat) then .next s
  else
    let etc := s.etc
    let had := s.flag r PT.RAIL_LIMITING
    let s := s.setFlag r PT.RAIL_LIMITING limiting
    let mark := fun (l : Tab Nat) => if limiting then (if had then l else tabInsert l u.toNat etc) else tabErase l u.toNat
    .next (s.updPower fun p => { p with limitSince := mark p.limitSince })

/-- SITE_SWITCH_OFF (R407): steps 1 to 3 of R384, the entry, the interrupt, and the degraded reason. -/
def execSiteSwitchOff (u : BitVec 2) (s : State) : Res :=
  let n := u.toNat
  if !s.flag (PT.RAIL (rCore n)) PT.RAIL_LIMITING then .next s
  else .next ((((s.upSwitchOff n).upEvent n 5).raise iUP_FAULT).degrade 11)

/-! ### The budget (R408-R412) -/

/-- B_w in µJ. -/
def State.budget (s : State) : Nat :=
  let cap := min 1200 (s.fld PT.BUDGET_CFG PT.BUDGET_CFG_CAP_W)
  if s.flag PT.STATUS PT.STATUS_SHUTDOWN_PENDING then 0
  else if (List.range 24).any fun z => s.zoneState z == zTHROTTLE then 50 * cap
  else if (List.range 24).any fun z => s.zoneState z == zWARNING then 75 * cap
  else 100 * cap

/-- The limiter's next level. -/
def limiterNext (level draw limit : Nat) : Nat :=
  if limit < draw then min 7 (level + 1) else if 10 * draw ≤ 9 * limit then level - 1 else level

/-- BUDGET_WINDOW (R408, R409, R411): the draws of the last window are published and limit the next; F starts anew from the legs that
still run; and legs are decided. -/
def execBudgetWindow (baseW upW : BitVec 11) (s : State) : Res :=
  let lim := min 1200 (s.fld PT.POWER_LIMIT PT.POWER_LIMIT_LIMIT_W)
  let level := limiterNext (s.fld PT.LEVELS PT.LEVELS_LIMITER) baseW.toNat lim
  let s := (s.setFld PT.POWER PT.POWER_BASE_W baseW.toNat).setFld PT.POWER PT.POWER_UP_W upW.toNat
  let s := (s.setFld PT.LEVELS PT.LEVELS_LIMITER level).setFlag PT.STATUS PT.STATUS_LIMITING (level != 0)
  let s := s.setFld PT.BUDGET PT.BUDGET_WINDOW (s.etc / 100000)
  .next (s.putFree ((s.budget : Int) - s.charges)).admitLegs

/-- FIXED_DISPATCH_WRITE (R412): ignored while a launch runs when it changes the mode. -/
def execFixedDispatchWrite (on : Bool) (s : State) : Res :=
  if !s.runOrder.isEmpty && s.flag PT.CTRL PT.CTRL_FIXED_DISPATCH != on then .next s
  else .next ((s.setFlag PT.CTRL PT.CTRL_FIXED_DISPATCH on).setFlag PT.STATUS PT.STATUS_BUDGET_MODE (!on)).admitLegs

/-- PT_SEAL (R421): the RWL fields of the block are sealed until the next power-good. -/
def execPtSeal (s : State) : Res := .next ((s.setFlag PT.CTRL PT.CTRL_SEAL true).setFlag GLB.SEALS GLB.SEALS_PT true)

/-! ### Rails (R394-R396) -/

/-- The rails of a base die in the order of R394; step 5 takes the hostels that the fuse map marks good. -/
def State.railOrder (s : State) : List Nat :=
  [0, 1, 2, 13, 14, 15, 16, 17] ++ ((List.range 8).filter fun h => !s.fuses.badHostels.getLsbD h).map (3 + ·) ++ [11, 12]

/-- The rail that follows another in an order. -/
def railAfter (r : Nat) : List Nat → Option Nat
  | a :: b :: t => if a = r then some b else railAfter r (b :: t)
  | _ => none

/-- The islands of the porters of a half that the fuse map marks good. -/
def State.porterIslands (s : State) (e : Nat) : State :=
  (halfPorters e).foldl (fun s n => if s.fuses.badPorters.getLsbD n then s else s.setFlag (POR.STATUS n) POR.STATUS_POWERED true) s

/-- RAIL_IN_REGULATION (R394, Table 12.5): the rail is on, and the next of its sequence is enabled. -/
def execRailInRegulation (r : BitVec 5) (mv : BitVec 10) (s : State) : Res :=
  let i := r.toNat
  if !s.railEnabled i || s.railOn i then .next s
  else
    let s := ((s.setFlag (PT.RAIL i) PT.RAIL_ON true).setFld (PT.RAIL i) PT.RAIL_MV mv.toNat).setFld (PT.RAIL i) PT.RAIL_PHASES 1
    if 22 ≤ i then .next (s.railEnable (rCore (i - 22)))
    else if 18 ≤ i then
      let u := i - 18
      .next (((s.setCoreMv u mv.toNat).updUpper u fun v => { v with phase := 1, pg := true }).setFlag (UP.STATUS u) UP.STATUS_POWERED true)
    else
      let s := if 3 ≤ i && i ≤ 10 then s.setFlag (HOS.STATUS (i - 3)) HOS.STATUS_POWERED true
        else if i = 11 then s.porterIslands 0 else if i = 12 then s.porterIslands 1 else s
      .next (match railAfter i s.railOrder with
        | some n => s.railEnable n
        | none => s)

/-- AVS_STEP (R395): 5 mV up or down, inside the fused limits of the rail (650 mV to 900 mV where the fuses hold none). -/
def execAvsStep (r : BitVec 5) (up : Bool) (s : State) : Res :=
  let i := r.toNat
  let mv := s.fld (PT.RAIL i) PT.RAIL_MV
  let v := if up then mv + 5 else mv - 5
  if !railAdaptive i || !s.railOn i || v < tabGet 650 s.fuses.railMin i || tabGet 900 s.fuses.railMax i < v then .next s
  else .next (s.setFld (PT.RAIL i) PT.RAIL_MV v)

/-- PHASE_CHANGE (R396): one phase more above 25 A a phase, one fewer below 10 A. -/
def execPhaseChange (r : BitVec 5) (amps : BitVec 11) (s : State) : Res :=
  let i := r.toNat
  if 26 ≤ i || !s.railOn i then .next s
  else
    let n := s.fld (PT.RAIL i) PT.RAIL_PHASES
    let a := amps.toNat
    let m := if 25 * n < a then min (railPhases i) (n + 1) else if a < 10 * n then max 1 (n - 1) else n
    .next ((s.setFld (PT.RAIL i) PT.RAIL_AMPS a).setFld (PT.RAIL i) PT.RAIL_PHASES m)

end Sys2Proof.Machine
end

