-- ==== Sys2Proof/Machine/Boot.lean ====
section
/-!
DEFINITION. Sys2Proof/Machine/Boot.lean: power-good and the power-on stages (R394, R457-R459), the fuse map and the tests (R59-R61,
R460, R461), training results (R296, R297), the enabled set (R4-R7, R468), the floor-plan record (R462), ready, and what survives
a loss of power (R420, R489).
-/

namespace Sys2Proof.Machine

/-! ### Power-good (R394, R457) -/

/-- The device without power: what is left are the fuses, the retention ring, and the pins. -/
def State.powerReset (s : State) : State :=
  let pin := s.fld SBX.STATUS SBX.STATUS_FUSE_SUPPLY
  let ups : Tab Upper := tabMap {} (fun _ v => { presentN := v.presentN }) s.uppers
  ({ State.reset with
      pending := s.pending, free := s.free, fuses := s.fuses, uppers := ups,
      guestbook := { retained := s.guestbook.retained } }).setFld SBX.STATUS SBX.STATUS_FUSE_SUPPLY pin

/-- Free bytes put in consecutive 64-bit registers: 48 of SBX.NONCE, 97 of SBX.KA_PUB. -/
def State.freeRegs (s : State) (r : Nat → Nat) (n : Nat) : State :=
  let (i, s) := s.takeFree
  let l := padTo n (Config.freeBytes i n)
  (List.range ((n + 7) / 8)).foldl (fun s k => s.setReg (r k) (BitVec.ofNat 64 (leAt l (8 * k) 8))) s

/-- The strongbox replaces its nonce (R466). -/
def State.newNonce (s : State) : State := s.freeRegs SBX.NONCE 48

/-- Power-good is high: stage 1, and the first rail of stage 2. The strongbox makes its nonce and its key pair (R466, R469). -/
def State.powerUp (s : State) : State :=
  let s := s.powerReset.updPower fun p => { p with good := true }
  (s.newNonce.freeRegs SBX.KA_PUB 97).railEnable 0

/-- POWER_GOOD_RISE. -/
def execPowerGoodRise (s : State) : Res := .next (if s.power.good then s else s.powerUp)

/-- POWER_GOOD_FALL: every rail is off, and THERM_ALARM_N is released (R420). -/
def execPowerGoodFall (s : State) : Res := .next s.powerReset

/-- RESET_N_ASSERT: as a fall and a rise of power-good; without effect after a thermal shutdown. -/
def execResetNAssert (s : State) : Res := .next (if s.power.good && !s.power.thermAlarm then s.powerUp else s)

/-- VAON_FALL (R489): the retention ring is lost with the always-on domain. -/
def execVaonFall (s : State) : Res :=
  let t := s.powerReset
  .next { t with guestbook := {} }

/-- FUSE_SUPPLY_CHANGE (R471). -/
def execFuseSupplyChange (present : Bool) (s : State) : Res := .next (s.setFlag SBX.STATUS SBX.STATUS_FUSE_SUPPLY present)

/-! ### New defects (R461) -/

/-- The register whose value a UNIT entry of a family gives. -/
def unitReg (family i : Nat) : Nat :=
  match family with
  | 1 => SLICE.STATUS i
  | 3 => POR.STATUS i
  | 4 => HOS.STATUS i
  | 5 => COUR.STATUS i
  | 7 => MEM.STATUS i
  | 8 => MEM.STATUS (16 + i)
  | 9 => OX.STATUS i
  | 10 => UP.STATUS i
  | _ => BRG.STATUS

/-- A unit that is fused good fails: it leaves the floor plan, loses its power, and is logged as a new defect. -/
def State.newDefect (s : State) (family i reason : Nat) : State :=
  if s.unitBad family i then s
  else
    let s := { s with boot := { s.boot with defects := s.boot.defects ++ [Defect.mk family i reason] } }
    let s := match family with
      | 3 => s.setFlag (POR.STATUS i) POR.STATUS_POWERED false
      | 4 => (s.railOff (3 + i)).setFlag (HOS.STATUS i) HOS.STATUS_POWERED false
      | 9 => s.oxEnter i 0
      | 10 => s.vupOff i
      | _ => s
    s.unitEvent (srcOf family i) (s.reg (unitReg family i)).toNat 0

/-! ### Stage 3: the fuse map (R460) -/

/-- The lowest HSS block whose fuse is not blown (R471). -/
def Fuses.block (f : Fuses) : Option Nat := (List.range 1024).find? fun b => !f.hssBlocks.getLsbD b

/-- SBX.LMS_INDEX at the start of a block. -/
def State.lmsStart (s : State) : State :=
  let left := 1024 - popCount 1024 s.fuses.hssBlocks.toNat
  (s.setFld SBX.LMS_INDEX SBX.LMS_INDEX_NEXT_LEAF (1024 * (s.fuses.block).getD 0)).setFld SBX.LMS_INDEX SBX.LMS_INDEX_BLOCKS_LEFT left

/-- What the fuses put into registers. -/
def State.fuseRegs (s : State) : State :=
  let f := s.fuses
  let s := (s.setReg GLB.SERIAL f.serial).setReg SBX.FUSE_GEN f.gens
  ((s.setFlag SBX.STATUS SBX.STATUS_DEBUGGED f.debugged).setFlag SBX.STATUS SBX.STATUS_FIELD f.field).lmsStart

/-- A site's generation fuses: of HBM site or LPDDR port. -/
def Fuses.gen (f : Fuses) (i : Nat) : Nat := bitsOf f.gens.toNat (2 * i + 1) (2 * i)

/-- FUSE_READ_DONE (R458, R460, R461, R381, R330): every engine starts at once; a map that cannot be read leads to FAILED. -/
def execFuseReadDone (rereads : Nat) (readable : Bool) (s : State) : Res :=
  if !s.power.good || s.boot.training || s.boot.mapBad || s.boot.ready then .next s
  else
    let s := s.setFld STW.STATUS STW.STATUS_CORES_UP 15
    if !readable then .next { s with boot := { s.boot with mapBad := true, rereads := rereads } }
    else
      let s := { s.fuseRegs with boot := { s.boot with training := true, rereads := rereads } }
      let s := (List.range 16).foldl (fun s x =>
        if s.fuses.badOxlux.getLsbD x || !s.flag (OX.CTRL x) OX.CTRL_ENABLE then s else s.oxDetect x) s
      let s := (List.range 4).foldl (fun s u => if s.fuses.badUppers.getLsbD u then s else s.upBringUp u) s
      .next ((List.range 32).foldl (fun s i => if s.fuses.gen i = 0 then s.newDefect (7 + i / 16) (i % 16) 2 else s) s)

/-! ### Stage 4: tests and training -/

/-- A row of a slice with no spare left is retired in every sub-array (R61). -/
def State.retireSramRow (s : State) (sl row : Nat) : State :=
  let r := SLICE.RETIRED_ROWS sl (row / 64)
  let s := (s.setReg r (s.reg r ||| BitVec.ofNat 64 (2 ^ (row % 64)))).setFlag (SLICE.REPAIR sl) SLICE.REPAIR_REPAIR_FAILED true
  let rows := ((List.range 16).map fun i => popCount 64 (s.reg (SLICE.RETIRED_ROWS sl i)).toNat).foldl (· + ·) 0
  (s.setFld (SLICE.STATUS sl) SLICE.STATUS_RETIRED_COUNT (2 * rows)).setFlag (SLICE.STATUS sl) SLICE.STATUS_TILES_RETIRED true

/-- One fault of SRAM self-test (R59, R61, R461), with the spare rows and columns in use so far. -/
def State.sramFault (s : State) (rows cols : Tab Nat) : SramFault → State × Tab Nat × Tab Nat
  | .row sl sub row =>
    let k := 64 * sl.toNat + sub.toNat
    if 96 ≤ sl.toNat || s.unitBad 1 sl.toNat then (s, rows, cols)
    else if tabGet 0 rows k < 16 then (s, tabSet 0 rows k (tabGet 0 rows k + 1), cols)
    else (s.retireSramRow sl.toNat row.toNat, rows, cols)
  | .column sl sub =>
    let k := 64 * sl.toNat + sub.toNat
    if 96 ≤ sl.toNat || s.unitBad 1 sl.toNat then (s, rows, cols)
    else if tabGet 0 cols k < 2 then (s, rows, tabSet 0 cols k (tabGet 0 cols k + 1))
    else ((s.setFlag (SLICE.REPAIR sl.toNat) SLICE.REPAIR_REPAIR_FAILED true).newDefect 1 sl.toNat 1, rows, cols)
  | .array u =>
    let s := match u.family.toNat with
      | 2 => { s with boot := { s.boot with xrOk := false } }
      | 6 => { s with boot := { s.boot with ctuOk := false } }
      | f => s.newDefect f u.index.toNat 1
    (s, rows, cols)

/-- Spares in use in a slice's 32 sub-arrays. -/
def sparesUsed (t : Tab Nat) (sl : Nat) : Nat := ((List.range 32).map fun j => tabGet 0 t (64 * sl + j)).foldl (· + ·) 0

/-- Whether stage 4 runs and an engine has still to report. -/
def State.engine (s : State) (reported : Bool) : Bool := s.power.good && s.boot.training && !s.boot.ready && !reported

/-- SRAM_SELF_TEST_DONE. -/
def execSramSelfTestDone (faults : List SramFault) (s : State) : Res :=
  if !s.engine s.boot.sram then .next s
  else
    let r := faults.foldl (fun (x : State × Tab Nat × Tab Nat) f => x.1.sramFault x.2.1 x.2.2 f) (s, s.fuses.rows, s.fuses.columns)
    let s := (List.range 96).foldl (fun s sl =>
      (s.setFld (SLICE.REPAIR sl) SLICE.REPAIR_ROW_SPARES_USED (sparesUsed r.2.1 sl)).setFld (SLICE.REPAIR sl)
        SLICE.REPAIR_COLUMN_SPARES_USED (sparesUsed r.2.2 sl)) r.1
    .next { s with boot := { s.boot with sram := true } }

/-- LOGIC_SELF_TEST_DONE: units that fail are removed. A failure of the CTU or of a crossroads core fails the device (R459). -/
def execLogicSelfTestDone (failed : List UnitRef) (ctuOk xrOk : Bool) (s : State) : Res :=
  if !s.engine s.boot.logic then .next s
  else
    let s := failed.foldl (fun s u => s.newDefect u.family.toNat u.index.toNat 1) s
    .next { s with boot := { s.boot with logic := true, ctuOk := s.boot.ctuOk && ctuOk, xrOk := s.boot.xrOk && xrOk } }

/-- KNOWN_ANSWER_TESTS_DONE. -/
def execKnownAnswerTestsDone (ok : Bool) (s : State) : Res :=
  .next (if s.engine s.boot.tests.isSome then { s with boot := { s.boot with tests := some ok } } else s)

/-- PCIE_LINK_TRAINED (R448, R458). -/
def execPcieLinkTrained (link : Option PcieLink) (s : State) : Res :=
  if !s.power.good then .next s
  else
    let r := PCIE.STATUS
    let s := { s with boot := { s.boot with pcie := true } }
    .next (match link with
      | some l => (((s.setFlag r PCIE.STATUS_LINK_UP true).setFld r PCIE.STATUS_GEN l.gen.toNat).setFld r PCIE.STATUS_WIDTH l.width.toNat).setFlag
          r PCIE.STATUS_FLIT l.flit
      | none => s.setFlag r PCIE.STATUS_LINK_UP false)

/-- A site that has trained: what it reports (R297, R301, R316). -/
def State.siteTrained (s : State) (i rate : Nat) (t : SiteTraining) : State :=
  let m := MEM.STATUS i
  let s := (((s.setFlag m MEM.STATUS_PRESENT true).setFlag m MEM.STATUS_TRAINED true).setFld m MEM.STATUS_GEN t.gen.toNat).setFld m MEM.STATUS_RATE rate
  let s := (s.setFld (MEM.CAPACITY i) MEM.CAPACITY_MIB t.capacityMib.toNat).setFld (MEM.PHY_LATENCY i) MEM.PHY_LATENCY_CYCLES t.phyLat.toNat
  let s := (s.setFld (MEM.READ_BOUND i) MEM.READ_BOUND_SLOTS t.readBound.toNat).setFld (MEM.BUDGET i) MEM.BUDGET_UNITS t.units.toNat
  (s.setFld (MEM.BUDGET i) MEM.BUDGET_MESH_FLOOR t.meshFloor.toNat).setFld (MEM.REPAIR i) MEM.REPAIR_SPARES_LEFT_MIN t.sparesLeftMin.toNat

/-- SITE_TRAINING_DONE (R296, R297, R461): removed when the identity differs from the recorded generation, or no rate trains. -/
def execSiteTrainingDone (site : BitVec 5) (r : SiteTraining) (s : State) : Res :=
  let i := site.toNat
  let (f, j) := (7 + i / 16, i % 16)
  if !s.engine (s.boot.sites.getLsbD i) || s.unitBad f j then .next s
  else
    let s := { s with boot := { s.boot with sites := s.boot.sites ||| BitVec.ofNat 32 (2 ^ i) } }
    if r.populated && (!r.identityOk || r.gen.toNat ≠ s.fuses.gen i) then .next (s.newDefect f j 3)
    else match r.populated, r.rate with
      | true, some v => .next (s.siteTrained i v.toNat r)
      | _, _ => .next (s.newDefect f j 1)

/-! ### The enabled set (R4-R7, R468) -/

/-- The mask of the first `k` present units of each of two halves of `n` units (R6, R7). -/
def halfShare (present : Nat → Bool) (n k : Nat) : Nat :=
  let pick := fun lo => (((List.range n).map (lo + ·)).filter present).take k
  ((pick 0) ++ pick n).foldl (fun m i => m + 2 ^ i) 0

/-- BRG.ENABLED for the values of a licence. -/
def State.setEnabled (s : State) (l : Licence) : State :=
  let r := BRG.ENABLED
  let s := (s.setFld r BRG.ENABLED_HBM (halfShare (fun i => s.flag (MEM.STATUS i) MEM.STATUS_PRESENT) 8 (l.hbm / 2))).setFld r BRG.ENABLED_LPDDR
    (halfShare (fun i => s.flag (MEM.STATUS (16 + i)) MEM.STATUS_PRESENT) 8 (l.lpddr / 2))
  let s := (s.setFld r BRG.ENABLED_OXLUX (halfShare (s.planned 9) 8 (l.oxlux / 2))).setFld r BRG.ENABLED_HOSTELS
    (halfShare (s.planned 4) 4 (l.hostels / 2))
  (s.setFlag r BRG.ENABLED_MX l.mx).setFlag r BRG.ENABLED_TALLY l.tally

/-- A unit's fence, held or released without a service of its own (R468). -/
def State.holdSite (s : State) (i : Nat) (b : Bool) : State :=
  ((s.setFlag (MEM.CTRL i) MEM.CTRL_FENCE b).setFlag (MEM.STATUS i) MEM.STATUS_FENCED b).updSite i fun v => { v with selfRefresh := b }
def State.holdOx (s : State) (x : Nat) (b : Bool) : State :=
  ((s.setFlag (OX.CTRL x) OX.CTRL_FENCE b).setFlag (OX.STATUS x) OX.STATUS_FENCED b).setFlag (OX.STATUS x) OX.STATUS_PRESENT (!b)
def State.holdHostel (s : State) (h : Nat) (b : Bool) : State :=
  ((s.setFlag (HOS.CTRL h) HOS.CTRL_FENCE b).setFlag (HOS.STATUS h) HOS.STATUS_FENCED b).setFlag (HOS.STATUS h) HOS.STATUS_PRESENT (!b)

/-- Every unit of the floor plan is held fenced or released as the enabled set says, where that changes from `old`. -/
def State.holdUnits (s : State) (old : State) (first : Bool) : State :=
  let s := (List.range 32).foldl (fun s i =>
    if s.siteHere i && (first || s.siteEnabled i != old.siteEnabled i) then s.holdSite i (!s.siteEnabled i) else s) s
  let s := (List.range 16).foldl (fun s x =>
    if s.planned 9 x && (first || s.oxEnabled x != old.oxEnabled x) then s.holdOx x (!s.oxEnabled x) else s) s
  (List.range 8).foldl (fun s h =>
    if s.planned 4 h && (first || s.hostelEnabled h != old.hostelEnabled h) then s.holdHostel h (!s.hostelEnabled h) else s) s

/-! ### The floor-plan record (R462, Table 15.4) -/

/-- The mask of the units below `n` that meet `p`. -/
def maskOf (n : Nat) (p : Nat → Bool) : Nat := (List.range n).foldl (fun m i => if p i then m + 2 ^ i else m) 0

/-- The entry of an upper site. -/
def State.planUpper (s : State) (u : Nat) : List Byte :=
  leBytes 8 (s.fld (UP.PORTS u) UP.PORTS_ACTIVE + (if s.upHere u then 2 ^ 20 else 0))

def State.planSite (s : State) (i : Nat) : List Byte :=
  leBytes 4 (if s.siteHere i then bitsOf (s.reg (MEM.STATUS i)).toNat 5 0 + 64 * s.fld (MEM.CAPACITY i) MEM.CAPACITY_MIB else 0)

def Defect.bytes (d : Defect) : List Byte := padTo 8 ([BitVec.ofNat 8 d.family, 0] ++ leBytes 2 d.index ++ [BitVec.ofNat 8 d.reason])

/-- Bytes 0x020 to 0x027. -/
def State.planUnits (s : State) : Nat :=
  maskOf 32 s.siteHere + 2 ^ 32 * maskOf 16 (fun x => s.planned 9 x && s.oxState x != 7) + 2 ^ 48 * maskOf 4 s.upHere +
    2 ^ 52 * maskOf 8 (s.planned 4)

/-- The record's bytes below its digest. -/
def State.planBytes (s : State) : List Byte :=
  let a := padTo 0x40 (leBytes 4 1 ++ leBytes 4 4096 ++ leBytes 8 (s.reg GLB.SERIAL).toNat ++ leBytes 16 (maskOf 96 s.sliceHere) ++
    leBytes 8 s.planUnits ++ leBytes 4 (maskOf 32 (s.planned 5)) ++ leBytes 8 (maskOf 64 (s.planned 15)))
  let b := leBytes 512 (maskOf 4096 (s.planned 3)) ++ (List.range 32).flatMap s.planSite ++
    (List.range 16).flatMap (fun x => leBytes 4 ((s.reg (OX.TRAIN x)).toNat % 2 ^ 27))
  let c := (List.range 4).flatMap s.planUpper ++ (List.range 96).flatMap (fun sl => leBytes 4 (s.reg (SLICE.REPAIR sl)).toNat)
  let n := min 256 s.boot.defects.length
  padTo 0xFD0 (a ++ b ++ c ++ leBytes 4 n ++ leBytes 4 s.boot.rereads ++ leBytes 8 0 ++ (s.boot.defects.take 256).flatMap Defect.bytes)

/-- A record with its digest. -/
def State.putPlan (s : State) (l : List Byte) : State :=
  { s with boot := { s.boot with record := tabWrite 0 [] 0 (l ++ sha384 l) } }

/-- The record after a compute-part reset: the upper-site entries and the digest change. -/
def State.replan (s : State) : State :=
  let l := tabRange 0 s.boot.record 0 0xFD0
  let w := putBits (leAt l 0x20 8) 51 48 (maskOf 4 s.upHere)
  s.putPlan (l.take 0x20 ++ leBytes 8 w ++ (l.drop 0x28).take (0x300 - 0x28) ++ (List.range 4).flatMap s.planUpper ++ l.drop 0x320)

def State.planDigest (s : State) : List Byte := tabRange 0 s.boot.record 0xFD0 48

/-! ### Ready (R459, R461, R463, R489) -/

/-- The BOOT entry: the floor-plan digest, the new defects, the fuse rereads, and the licence's RESULT, 0xFF when none was supplied. -/
def State.bootEntry (s : State) : State :=
  s.event kBOOT 0 (srcOf 0 0) 0 (s.reg BRG.STATUS).toNat
    (s.planDigest ++ leBytes 4 s.boot.defects.length ++ leBytes 4 s.boot.rereads ++
      [BitVec.ofNat 8 (if s.sbx.licence.isSome then 0 else s.sbx.licenceResult)])

/-- BRG.STATUS.STAGE and what copies it. -/
def State.setStage (s : State) (n : Nat) : State :=
  ((s.setFld BRG.STATUS BRG.STATUS_STAGE n).setFlag GLB.STATUS GLB.STATUS_SERVICE (n == 3)).setFlag GLB.STATUS GLB.STATUS_BOOT_FAILED (n == 4)

/-- The retained entries come first in the guestbook, with PRIOR = 1, their stamps, and SEQ from 0 (R489). -/
def State.gbPrior (s : State) : State :=
  let l := s.guestbook.retained
  let entry := fun (x : GbEntry × Nat) => (x.2, { x.1 with seq := BitVec.ofNat 32 x.2, flags := Nat.lor x.1.flags 2 })
  let s := { s with guestbook := { s.guestbook with ring := l.zipIdx.map entry } }
  (s.setFld GB.STATUS GB.STATUS_PRIOR_COUNT l.length).setFld GB.HEAD_SEQ GB.HEAD_SEQ_SEQ l.length

/-- Links, sites and upper sites that have not come up by the end of stage 4 are reported as failed (R458). -/
def State.closeTraining (s : State) : State :=
  let s := (List.range 16).foldl (fun s x => if 1 ≤ s.oxState x && s.oxState x ≤ 5 then s.oxDown x else s) s
  let s := (List.range 32).foldl (fun s i => if s.boot.sites.getLsbD i then s else s.newDefect (7 + i / 16) (i % 16) 1) s
  (List.range 4).foldl (fun s u =>
    let v := s.upper u
    if v.phase = 3 then (s.updUpper u fun v => { v with phase := 4 }).sendActive u
    else if v.phase = 1 || v.phase = 2 || s.railEnabled (rIo u) then (if v.phase = 4 then s else s.upFails u) else s) s

/-- PRESENT of slices and porters, and the memories of R28 and R47 cleared. Hostels and Oxlux ports follow the enabled set. -/
def State.present (s : State) : State :=
  let s := (List.range 96).foldl (fun s sl => s.setFlag (SLICE.STATUS sl) SLICE.STATUS_PRESENT (s.planned 1 sl)) s
  let s := (List.range 4096).foldl (fun s n => s.setFlag (POR.STATUS n) POR.STATUS_PRESENT (s.planned 3 n)) s
  { s with mem := s.mem.filter fun c => decide (0x10000000000 ≤ c.1), wordErr := s.wordErr.filter fun c => decide (0x2000000000 ≤ c.1),
           tiles := [], porters := [], hosGroups := [], hosBlocks := [], hosStore := [], hosCtrs := [], hosArray := [] }

/-- The cause for which the device fails at boot (Table 15.13), 0 for none. -/
def Boot.failCause (b : Boot) : Nat :=
  if b.mapBad then 1 else if b.tests == some false then 2 else if !b.ctuOk then 3 else if !b.xrOk then 4 else 0

/-- Whether the last engine with a verdict of its own has reported, or no engine has started. -/
def Boot.reported (b : Boot) : Bool := b.mapBad || (b.training && b.sram && b.logic && b.tests.isSome)

/-- READY. -/
def execReady (s : State) : Res :=
  if !s.power.good || s.boot.ready || !s.boot.reported then .next s
  else
    let s := if s.boot.mapBad then s else s.closeTraining
    let s := { s with boot := { s.boot with ready := true, training := false } }
    let s := s.present.setEnabled {}
    let s := s.holdUnits s true
    let s := s.putPlan s.planBytes
    let s := s.gbPrior.setReg BRG.READY_TIME (BitVec.ofNat 64 s.etc)
    let s := (s.setFlag GLB.STATUS GLB.STATUS_READY true).setFlag SBX.STATUS SBX.STATUS_UDS_LOCKED true
    let c := s.boot.failCause
    if c = 0 then .next (s.setStage 1)
    else .next (((s.setFld BRG.STATUS BRG.STATUS_FAIL_CAUSE c).setStage 4).bootEntry.deviceFail 16)

end Sys2Proof.Machine
end

