-- ==== Sys2Proof/Machine/Secure.lean ====
section
/-!
DEFINITION. Sys2Proof/Machine/Secure.lean: the strongbox (R463-R474): submissions and their checks, licences, firmware, the debug token,
fuse commands, keys of the memory sites, the nonce, and attestation. What a signature or an unwrap yields is an operand of the command.
-/

namespace Sys2Proof.Machine

def State.updSbx (s : State) (f : Strongbox → Strongbox) : State := { s with sbx := f s.sbx }
def State.stage (s : State) : Nat := s.fld BRG.STATUS BRG.STATUS_STAGE
def State.fuseSupply (s : State) : Bool := s.flag SBX.STATUS SBX.STATUS_FUSE_SUPPLY

/-! ### RESULT (Table 15.13) -/

def zFORMAT : Nat := 1
def zSIGNATURE_EC : Nat := 2
def zSIGNATURE_LMS : Nat := 3
def zKEY_REVOKED : Nat := 4
def zSVN : Nat := 5
def zBINDING : Nat := 6
def zNONCE : Nat := 7
def zSTAGE : Nat := 8
def zLICENCE_VALUE : Nat := 9
def zFUSE_SUPPLY : Nat := 10
def zLMS_EXHAUSTED : Nat := 11
def zBUS_ERROR : Nat := 12

/-! ### The container (Table 15.6) -/

def magicBytes (s : String) : List Byte := s.toList.map fun c => BitVec.ofNat 8 c.toNat

/-- A key-load record (R469). -/
def isKeyRecord (l : List Byte) : Bool := l.take 4 == magicBytes "TZKL"
def boxType (l : List Byte) : Nat := leAt l 6 2
def boxLen (l : List Byte) : Nat := leAt l 8 4
def boxSvn (l : List Byte) : Nat := leAt l 12 4
def boxSlot (l : List Byte) : Nat := byteAt l 72
def boxPayload (l : List Byte) : List Byte := (l.drop 128).take (boxLen l)
/-- D: SHA-384 of header and payload (R465). -/
def boxDigest (l : List Byte) : List Byte := sha384 (l.take (128 + boxLen l))
/-- Where the keys and signatures begin. -/
def boxTail (l : List Byte) : Nat := (128 + boxLen l + 7) / 8 * 8

/-- Check 1 of Table 15.7: magic, version, type, lengths and reserved fields. -/
def boxFormat (l : List Byte) : Bool :=
  let t := boxType l
  let n := boxLen l
  let sig := leAt l (boxTail l + 245) 4
  l.take 4 == magicBytes "TZSC" && leAt l 4 2 == 1 && decide (1 ≤ t) && decide (t ≤ 5) &&
    (if t = 1 then decide (n ≤ 0x100000) else if t = 2 then decide (n ≤ 0x4000) else n == 32) && decide (boxSlot l ≤ 3) &&
    ((l.drop 73).take 55).all (· == 0) && (decide (4 ≤ t) || ((l.drop 24).take 48).all (· == 0)) && decide (sig ≤ 8192) &&
    decide (boxTail l + 249 + sig ≤ l.length)

/-- The reserved fields, length and slot of a key-load record. -/
def keyFormat (l : List Byte) : Bool :=
  l.length == 184 && decide (1 ≤ byteAt l 4) && decide (byteAt l 4 ≤ 63) && leAt l 5 3 == 0 && leAt l 105 7 == 0

/-- No launch is RUNNING. -/
def State.noneRuns (s : State) : Bool := (List.range 16).all fun k => s.slotState k != 2

/-- What each stage accepts (Table 15.5): a type, or 0 for a key-load record. -/
def State.stageTakes (s : State) (t : Nat) : Bool :=
  s.stage == 1 || (s.stage == 3 && (t == 0 || t == 2 || t == 4) && s.noneRuns)

/-- SBX.NONCE as bytes. -/
def State.nonceBytes (s : State) (r : Nat → Nat) : List Byte := (List.range 6).flatMap fun k => leBytes 8 (s.reg (r k)).toNat

/-- Whether the values of a licence are those of Table 0.2. -/
def licenceOk (p : List Byte) : Bool :=
  [8, 12, 16].contains (byteAt p 0) && [0, 8, 16].contains (byteAt p 1) && [8, 16].contains (byteAt p 2) && [4, 8].contains (byteAt p 3) &&
    decide (byteAt p 4 < 4) && (p.drop 5).all (· == 0)

/-- Whether a fuse command names an operation, and a type or slot that there is (R474). -/
def fuseCommandOk (p : List Byte) : Bool :=
  let b := byteAt p 1
  (byteAt p 0 == 1 && decide (1 ≤ b) && decide (b ≤ 5) && decide (leAt p 4 4 ≤ 64)) || (byteAt p 0 == 2 && decide (b ≤ 3))

/-- The checks of Table 15.7 in their order, and those of a licence's and a fuse command's payload: RESULT, 0 when all pass. -/
def State.boxVerdict (s : State) (ec lms : Bool) (l : List Byte) : Nat :=
  let t := boxType l
  let serial := leAt l 16 8
  let k := boxSlot l
  let p := boxTail l
  let mine := serial == s.fuses.serial.toNat && serial != 0
  let keys := decide (beVal (sha384 ((l.drop p).take 97)) = (s.fuses.ecSigners.getD k 0).toNat) &&
    decide (beVal (sha384 ((l.drop (p + 193)).take 52)) = (s.fuses.hssSigners.getD k 0).toNat)
  if !boxFormat l then zFORMAT
  else if !s.stageTakes t then zSTAGE
  else if !(mine || (decide (t ≤ 2) && serial == 0)) then zBINDING
  else if decide (4 ≤ t) && (l.drop 24).take 48 != s.nonceBytes SBX.NONCE then zNONCE
  else if s.fuses.revoked.getLsbD k || !keys then zKEY_REVOKED
  else if !ec then zSIGNATURE_EC
  else if !lms then zSIGNATURE_LMS
  else if boxSvn l < tabGet 0 s.fuses.floors t then zSVN
  else if t = 3 && !licenceOk (boxPayload l) then zLICENCE_VALUE
  else if t = 5 && !fuseCommandOk (boxPayload l) then zFORMAT
  else if t = 5 && !s.fuseSupply then zFUSE_SUPPLY
  else 0

/-- The verdict on what has been submitted. -/
def State.verdict (s : State) (ec lms : Bool) (keys : Option (BitVec 512)) : Nat :=
  let b := s.sbx
  if b.copyBad then zBUS_ERROR
  else if 1114112 < s.fld SBX.SUBMIT_LEN SBX.SUBMIT_LEN_BYTES then zFORMAT
  else if isKeyRecord b.copy then
    (if !keyFormat b.copy then zFORMAT else if !s.stageTakes 0 then zSTAGE else if keys.isNone || b.zeroed then zFORMAT else 0)
  else s.boxVerdict ec lms b.copy

/-- The check of a submission ends (R464): the nonce of a type 4 or 5 is spent (R466). -/
def State.submitEnd (s : State) (result : Nat) : State :=
  let l := s.sbx.copy
  let t := if isKeyRecord l then 0 else boxType l
  let s := (s.setFld SBX.STATUS SBX.STATUS_RESULT result).setFlag SBX.STATUS SBX.STATUS_BUSY false
  let s := (s.setFlag SBX.CTRL SBX.CTRL_SUBMIT false).updSbx fun b => { b with copy := [], copyBad := false }
  let s := if t = 4 || t = 5 then s.newNonce else s
  let s := s.event kSUBMIT 0 (srcOf 14 0) 0 (s.reg SBX.STATUS).toNat ([BitVec.ofNat 8 t, 0, 0, 0] ++ leBytes 4 (if t = 0 then 0 else boxSvn l))
  s.raise iSUBMIT

/-- SUBMIT (R464): the bytes are copied before they are checked. Ignored while BUSY is 1. -/
def execSubmit (s : State) : Res :=
  if !s.boot.ready || s.flag SBX.STATUS SBX.STATUS_BUSY then .next s
  else
    let n := s.fld SBX.SUBMIT_LEN SBX.SUBMIT_LEN_BYTES
    let s := (s.setFlag SBX.STATUS SBX.STATUS_BUSY true).setFlag SBX.CTRL SBX.CTRL_SUBMIT true
    if 1114112 < n then .next s
    else
      let (s, cause, l) := s.readNow (s.fld SBX.SUBMIT SBX.SUBMIT_DPA / 8 * 8) n
      .next (s.updSbx fun b => { b with copy := l, copyBad := cause != 0 })

/-- A container of type `t` that waits for its verdict passes every check. -/
def State.passes (s : State) (t : Nat) (ec lms : Bool) : Bool :=
  s.flag SBX.STATUS SBX.STATUS_BUSY && !isKeyRecord s.sbx.copy && boxType s.sbx.copy == t && s.verdict ec lms none == 0

/-- SUBMISSION_REFUSED (R464, R466): the first failure is reported, and the submission has no effect. -/
def execSubmissionRefused (ec lms : Bool) (keys : Option (BitVec 512)) (s : State) : Res :=
  let v := s.verdict ec lms keys
  if !s.flag SBX.STATUS SBX.STATUS_BUSY || v = 0 then .next s
  else
    let s := if !isKeyRecord s.sbx.copy && boxType s.sbx.copy = 3 then s.updSbx fun b => { b with licenceResult := v } else s
    .next (s.submitEnd v)

/-! ### Licence and firmware (R467, R468) -/

def licenceOf (p : List Byte) : Licence :=
  { hbm := byteAt p 0, lpddr := byteAt p 1, oxlux := byteAt p 2, hostels := byteAt p 3, mx := bitOf (byteAt p 4) 0, tally := bitOf (byteAt p 4) 1 }

/-- LICENCE. -/
def execLicence (ec lms : Bool) (s : State) : Res :=
  if !s.passes 3 ec lms then .next s
  else
    let l := s.sbx.copy
    let s := s.updSbx fun b => { b with licence := some (licenceOf (boxPayload l)), licenceD := digNum (boxDigest l) }
    .next ((s.setFlag SBX.STATUS SBX.STATUS_LICENCE_APPLIED true).submitEnd 0)

/-- Units of the floor plan that are not enabled lose their power (R27, R468). -/
def State.unlicensedOff (s : State) : State :=
  let s := (List.range 16).foldl (fun s x => if s.planned 9 x && !s.oxEnabled x then s.vserOff x else s) s
  (List.range 8).foldl (fun s h =>
    if s.planned 4 h && !s.hostelEnabled h then (s.railOff (3 + h)).setFlag (HOS.STATUS h) HOS.STATUS_POWERED false else s) s

/-- The first DPA of the steward reserve. -/
def stewardReserve : Nat := 0x2FE00000

/-- RUNTIME_FIRMWARE: licensing closes and the enabled set is fixed, the firmware is copied, and layer 1 is derived (R470). -/
def execRuntimeFirmware (ec lms : Bool) (s : State) : Res :=
  if !s.passes 1 ec lms then .next s
  else
    let l := s.sbx.copy
    let t := (s.setEnabled (s.sbx.licence.getD {}))
    let s := (t.holdUnits s false).unlicensedOff
    let s := (s.writeNow stewardReserve (boxPayload l)).1
    let s := s.updSbx fun b => { b with fwD := digNum (boxDigest l), fwSvn := boxSvn l, layer1 := !b.zeroed }
    .next ((s.submitEnd 0).setStage 2).bootEntry

/-- Porter service firmware goes to local offset 0xC000 of every porter (R238, R467). -/
def State.broadcastFw (s : State) (l : List Byte) : State :=
  let all := BitVec.allOnes 64
  let ps := loadPieces 0xC000 257 l
  let sent := ps.flatMap (·.2)
  let s := s.meshMulticast all all 1 .loadBegin
  let s := ps.foldl (fun s p => s.meshMulticast all all 2 (.load p.1 p.2)) s
  s.meshMulticast all all 1 (.loadCheck sent.length (BitVec.ofNat 32 (crcBytes 0 sent)))

def State.broadcastHeld (s : State) : State := match s.sbx.porterFw with
  | some l => s.broadcastFw l
  | none => s

/-- ENTER_SERVICE: the cores run the firmware, from an address that the manual does not give (assumption 13). -/
def execEnterService (s : State) : Res :=
  if s.stage ≠ 2 then .next s
  else
    let (i, s) := s.takeFree
    let core : SCore := { core := { pc := BitVec.ofNat 32 (Config.freeWord i).toNat } }
    let s := { s with steward := { s.steward with cores := tabWrite {} [] 0 [core, core, core, core] } }
    let s := (s.setFlag STW.STATUS STW.STATUS_BOOTED true).setFld STW.STATUS STW.STATUS_CORES_UP 15
    .next ((s.broadcastHeld.setStage 3).setReg BRG.SERVICE_TIME (BitVec.ofNat 64 s.etc))

/-- PORTER_SERVICE_FIRMWARE: held for the broadcast at loading; in SERVICE it is broadcast at once. -/
def execPorterServiceFirmware (ec lms : Bool) (s : State) : Res :=
  if !s.passes 2 ec lms then .next s
  else
    let l := s.sbx.copy
    let s := s.updSbx fun b => { b with porterFw := some (boxPayload l), porterD := digNum (boxDigest l) }
    let s := if s.stage = 3 then s.broadcastHeld else s
    .next (s.submitEnd 0)

/-! ### Debug unlock (R473) -/

/-- Every secret of the strongbox is zeroed: each key slot of each site, and the keys of both layers. -/
def State.zeroSecrets (s : State) : State :=
  let s := (List.range 32).foldl (fun s i => (s.setReg (MEM.KEY_VALID i) 1).updSite i fun v => { v with keys := [] }) s
  s.updSbx fun b => { b with layer1 := false, zeroed := true }

/-- DEBUG_UNLOCK_TOKEN: launches are killed, the secrets zeroed, the fuse blown and the scope opened. When the fuse does not blow, nothing
opens. -/
def execDebugUnlockToken (ec lms : Bool) (blown : Bool) (s : State) : Res :=
  if !s.passes 4 ec lms then .next s
  else
    let scope := byteAt (boxPayload s.sbx.copy) 0 % 4
    let s := (s.killEach cDEBUG_UNLOCK).zeroSecrets
    if !(blown && s.fuseSupply) then .next (s.submitEnd zFUSE_SUPPLY)
    else
      let s := { s with fuses := { s.fuses with debugged := true } }
      .next (((s.setFlag SBX.STATUS SBX.STATUS_DEBUGGED true).updSbx fun b => { b with scope := scope }).submitEnd 0)

/-! ### Fuse commands (R474) -/

/-- RAISE_SVN_FLOOR: a floor never falls. -/
def execRaiseSvnFloor (ec lms : Bool) (s : State) : Res :=
  let p := boxPayload s.sbx.copy
  if !s.passes 5 ec lms || byteAt p 0 ≠ 1 then .next s
  else
    let t := byteAt p 1
    let fl := s.fuses.floors
    let s := { s with fuses := { s.fuses with floors := tabSet 0 fl t (max (tabGet 0 fl t) (leAt p 4 4)) } }
    .next (s.submitEnd 0)

/-- REVOKE_SIGNER. -/
def execRevokeSigner (ec lms : Bool) (s : State) : Res :=
  let p := boxPayload s.sbx.copy
  if !s.passes 5 ec lms || byteAt p 0 ≠ 2 then .next s
  else
    let s := { s with fuses := { s.fuses with revoked := s.fuses.revoked ||| BitVec.ofNat 4 (2 ^ byteAt p 1) } }
    .next (s.submitEnd 0)

/-- The generations of two maps of 32 fields of 2 bits: a field that reads 0b00 takes the new value. -/
def genProg (old v : Nat) : Nat :=
  (List.range 32).foldl (fun m i => if bitsOf m (2 * i + 1) (2 * i) = 0 then putBits m (2 * i + 1) (2 * i) (bitsOf v (2 * i + 1) (2 * i)) else m) old

/-- FUSE_GEN_PROG: in BOOT, with the supply; SBX.FUSE_GEN follows at the next power-good. -/
def execFuseGenProg (v : BitVec 64) (s : State) : Res :=
  if s.stage ≠ 1 || !s.fuseSupply then .next s
  else .next { s with fuses := { s.fuses with gens := BitVec.ofNat 64 (genProg s.fuses.gens.toNat v.toNat) } }

/-! ### Keys of the memory sites (R469) -/

/-- KEY_LOAD_RECORD: the slot of every site takes the keys; all-zero keys clear it. -/
def execKeyLoadRecord (keys : Option (BitVec 512)) (s : State) : Res :=
  match keys with
  | none => .next s
  | some k =>
    if !s.flag SBX.STATUS SBX.STATUS_BUSY || !isKeyRecord s.sbx.copy || s.verdict true true (some k) ≠ 0 then .next s
    else
      let slot := byteAt s.sbx.copy 4
      let s := (List.range 32).foldl (fun s i =>
        let m := putBits (s.reg (MEM.KEY_VALID i)).toNat slot slot (if k = 0 then 0 else 1)
        (s.setReg (MEM.KEY_VALID i) (BitVec.ofNat 64 m)).updSite i fun v => { v with keys := tabSet 0 v.keys slot k }) s
      .next (s.submitEnd 0)

/-! ### Nonce and attestation (R466, R471, R472) -/

/-- NEW_NONCE: `v` is random. -/
def execNewNonce (v : BitVec 384) (s : State) : Res :=
  .next ((List.range 6).foldl (fun s k => s.setReg (SBX.NONCE k) (BitVec.ofNat 64 (v.toNat / 2 ^ (64 * k)))) s)

/-- The fuse of the current block is blown before its first signature: the state, and RESULT. -/
def State.hssReady (s : State) : State × Nat :=
  let leaf := s.fld SBX.LMS_INDEX SBX.LMS_INDEX_NEXT_LEAF
  if leaf % 1024 ≠ 0 then (s, 0)
  else match s.fuses.block with
    | none => (s.setFlag SBX.STATUS SBX.STATUS_LMS_EXHAUSTED true, zLMS_EXHAUSTED)
    | some b =>
      if !s.fuseSupply then (s, zFUSE_SUPPLY)
      else
        let s := { s with fuses := { s.fuses with hssBlocks := s.fuses.hssBlocks ||| (1 <<< b) } }
        ((s.setFld SBX.LMS_INDEX SBX.LMS_INDEX_NEXT_LEAF (1024 * b)).setFld SBX.LMS_INDEX SBX.LMS_INDEX_BLOCKS_LEFT
          (1024 - popCount 1024 s.fuses.hssBlocks.toNat), 0)

/-- A leaf is used: the next of the block, or the start of the next block. -/
def State.hssUsed (s : State) : State :=
  let leaf := s.fld SBX.LMS_INDEX SBX.LMS_INDEX_NEXT_LEAF
  if leaf % 1024 = 1023 then s.lmsStart else s.setFld SBX.LMS_INDEX SBX.LMS_INDEX_NEXT_LEAF (leaf + 1)

/-- The attestation report (Table 15.9). -/
def State.report (s : State) : List Byte :=
  let b := s.sbx
  let flags := b2n s.fuses.debugged + 2 * b2n s.fuses.field + 4 * b2n b.licence.isSome
  padTo 512 (magicBytes "TZAR" ++ leBytes 2 1 ++ leBytes 2 flags ++ leBytes 8 s.fuses.serial.toNat ++ s.nonceBytes SBX.NONCE_IN ++
    leBytes 8 s.etc ++ leBytes 4 (s.fld SBX.LMS_INDEX SBX.LMS_INDEX_NEXT_LEAF) ++ leBytes 4 b.fwSvn ++ digBytes Config.bootRomDigest ++
    digBytes b.fwD ++ digBytes b.porterD ++ digBytes b.licenceD ++ s.planDigest ++ leBytes 8 (s.reg BRG.ENABLED).toNat ++
    leBytes 8 (s.reg (MEM.KEY_VALID 0)).toNat)

/-- ATTEST: the evidence is written, or the refusal reported. -/
def execAttest (ecSig hssSig cert : List (BitVec 8)) (s : State) : Res :=
  if !s.boot.ready || s.flag SBX.STATUS SBX.STATUS_BUSY then .next s
  else
    let fail := fun (s : State) (r : Nat) => s.setFld SBX.STATUS SBX.STATUS_RESULT r
    if s.stage ≠ 3 || !s.sbx.layer1 then .next (fail s zSTAGE)
    else
      let (s, r) := s.hssReady
      if r ≠ 0 then .next (fail s r)
      else
        let l := s.report ++ padTo 96 ecSig ++ padTo 3052 hssSig ++ leBytes 4 cert.length ++ cert
        let (s, cause) := s.hssUsed.writeNow (s.fld SBX.RESULT_ADDR SBX.RESULT_ADDR_DPA / 4096 * 4096) (l.take 8192)
        .next (fail s (if cause = 0 then 0 else zBUS_ERROR))

end Sys2Proof.Machine
end

