-- ==== Sys2Proof/Machine/PartReset.lean ====
section
/-!
DEFINITION. Sys2Proof/Machine/PartReset.lean: hard repair (R467), the compute-part reset (R475) and the fence and reset of a hostel (R476).
-/

namespace Sys2Proof.Machine

/-! ### Hard repair (R467) -/

/-- The entries of a hard-repair list: site, site offset. -/
def repairEntries (l : List Byte) : Nat → List (Nat × Nat)
  | 0 => []
  | n + 1 => (byteAt l 0 % 32, leAt l 1 7 % 2 ^ 37) :: repairEntries (l.drop 8) n

/-- HARD_REPAIR: in BOOT alone, each named site of the floor plan is fenced. -/
def execHardRepair (s : State) : Res :=
  if s.stage ≠ 1 || s.flag BRG.STATUS BRG.STATUS_HARD_REPAIR_BUSY then .next s
  else
    let n := s.fld BRG.REPAIR_LIST BRG.REPAIR_LIST_COUNT
    let (s, cause, l) := s.readNow (s.fld BRG.REPAIR_LIST BRG.REPAIR_LIST_DPA / 8 * 8) (8 * n)
    let rows := if cause = 0 then repairEntries l n else []
    let s := (s.setFlag BRG.STATUS BRG.STATUS_HARD_REPAIR_BUSY true).setFlag BRG.CTRL BRG.CTRL_HARD_REPAIR true
    let s := { s with service := { s.service with repair := rows } }
    .next ((rows.map (·.1)).eraseDups.foldl (fun s i => if s.siteHere i then s.fenceSite i else s) s)

/-- One row of a hard repair: logged, and a row that fails is a candidate (R316). -/
def State.hardRow (s : State) (i off : Nat) (ok : Bool) : State :=
  let s := s.event kREPAIR 0 (srcSite i) 0 off [BitVec.ofNat 8 i, if ok then 2 else 3]
  if !s.siteHere i || s.siteBytes i ≤ off then s
  else if ok then s.rowMoved i (s.siteRow i off) else s.repairCandidate i (s.siteRow i off)

/-- HARD_REPAIR_DONE: the counts are reported, and the sites that are enabled return to service. -/
def execHardRepairDone (ok : List Bool) (s : State) : Res :=
  if !s.flag BRG.STATUS BRG.STATUS_HARD_REPAIR_BUSY then .next s
  else
    let rows := s.service.repair
    let good := rows.zipIdx.map fun (x : (Nat × Nat) × Nat) =>
      (x.1.1, x.1.2, ok.getD x.2 false && s.siteHere x.1.1 && decide (x.1.2 < s.siteBytes x.1.1))
    let s := good.foldl (fun (s : State) (x : Nat × Nat × Bool) => s.hardRow x.1 x.2.1 x.2.2) s
    let n := (good.filter fun (x : Nat × Nat × Bool) => x.2.2).length
    let s := (s.setFld BRG.REPAIR_RESULT BRG.REPAIR_RESULT_DONE n).setFld BRG.REPAIR_RESULT BRG.REPAIR_RESULT_FAILED (rows.length - n)
    let s := (rows.map (·.1)).eraseDups.foldl (fun s i => if s.siteHere i && s.siteEnabled i then
      (s.holdSite i false).unitEvent (srcSite i) (s.reg (MEM.STATUS i)).toNat 2 else s) s
    .next ({ s with service := { s.service with repair := [] } }.setFlag BRG.STATUS BRG.STATUS_HARD_REPAIR_BUSY false |>.setFlag
      BRG.CTRL BRG.CTRL_HARD_REPAIR false)

/-! ### Hostels (R28, R476) -/

/-- A hostel as power leaves it: its store, registers and blocks are clear. -/
def State.clearHostel (s : State) (h : Nat) : State :=
  let s := s.clearBytes (storeBase h) 0x1000000
  let out := fun (n : Nat) (k : Nat) => !(decide (h * n ≤ k) && decide (k < (h + 1) * n))
  let s := { s with
    hosGroups := s.hosGroups.filter fun e => out 64 e.1, hosBlocks := s.hosBlocks.filter fun e => out 8 e.1,
    hosCtrs := s.hosCtrs.filter fun e => out 64 e.1, hosStore := s.hosStore.filter fun e => out 32768 e.1,
    hosArray := tabErase s.hosArray h }
  (s.setFlag (HOS.STATUS h) HOS.STATUS_ARRAY_MODE false).hosCount h

/-- The launches with a block on a hostel, or with a descriptor of a running leg at one of its ports (R476). -/
def State.hostelLaunches (s : State) (h : Nat) : List (BitVec 16) :=
  ((((List.range 8).filter fun b => (s.blockAt h b).used).map fun b => (s.blockAt h b).launch) ++
    s.portUsers fun q => decide (40 ≤ q.port) && decide (q.port < 56) && 4 * q.half + (q.port - 40) / 4 == h).eraseDups

/-- HOSTEL_FENCE: the hostel's blocks stop, and their contexts are killed with UNIT_FENCED. -/
def execHostelFence (h : BitVec 3) (s : State) : Res :=
  let h := h.toNat
  if !s.planned 4 h || s.flag BRG.STATUS BRG.STATUS_PART_RESET_BUSY || s.flag (HOS.STATUS h) HOS.STATUS_FENCED then .next s
  else
    let s := (s.hostelLaunches h).foldl (fun s l => s.startKill l cUNIT_FENCED (srcOf 4 h) 0 0 0 0) (s.fenceHostelBits h)
    .next (s.unitEvent (srcOf 4 h) (s.reg (HOS.STATUS h)).toNat 1)

/-- HOSTEL_UNFENCE: VHOSn is cycled, the hostel cleared, and available for placement. Ignored while it is not enabled (R468). -/
def execHostelUnfence (h : BitVec 3) (s : State) : Res :=
  let h := h.toNat
  if !s.planned 4 h || !s.hostelEnabled h || s.flag BRG.STATUS BRG.STATUS_PART_RESET_BUSY || !s.flag (HOS.STATUS h) HOS.STATUS_FENCED then .next s
  else
    let s := s.clearHostel h
    let s := s.unitEvent (srcOf 4 h) (s.reg (HOS.STATUS h)).toNat 3
    let s := (s.setFlag (HOS.CTRL h) HOS.CTRL_FENCE false).setFlag (HOS.STATUS h) HOS.STATUS_FENCED false
    .next (s.unitEvent (srcOf 4 h) (s.reg (HOS.STATUS h)).toNat 2)

/-! ### Compute-part reset (R475, Table 15.10) -/

def State.setPartBusy (s : State) (b : Bool) : State :=
  ((s.setFlag BRG.STATUS BRG.STATUS_PART_RESET_BUSY b).setFlag GLB.STATUS GLB.STATUS_PART_RESET_BUSY b).setFlag BRG.CTRL BRG.CTRL_PART_RESET b

/-- Every launch is killed, and its slot enters KILLED. -/
def State.partKill (s : State) : State :=
  (List.range 16).foldl (fun s k =>
    if !s.slotBusy k then s
    else
      let s := s.killNow k cPARTIAL_RESET
      (s.freeBlocks (s.launchId k)).launchEnd k 5 (s.fld (LNCH.STATUS k) LNCH.STATUS_CAUSE)) s

/-- Hostels, porters and upper sites are fenced, channels aborted, and the fabric sides of the Oxlux ports held. -/
def State.partFence (s : State) : State :=
  let s := (List.range 8).foldl (fun s h => if s.planned 4 h then s.fenceHostelBits h else s) s
  let s := (List.range 4096).foldl (fun s n => if s.flag (POR.STATUS n) POR.STATUS_PRESENT then
    ((s.setFlag (POR.CTRL n) POR.CTRL_FENCE true).porStop n).setFlag (POR.STATUS n) POR.STATUS_FENCED true else s) s
  let s := (List.range 4).foldl (fun s u => if s.upHere u then s.fenceUpper u else s) s
  let s := (s.couriers.chans.map (·.1)).foldl (fun s k => s.chanStop (k / 16) (k % 16) fun _ => true) s
  (List.range 16).foldl (fun s x => s.updOxl x fun o => { o with held := true }) s

/-- What the reset clears: hostels, porters, the buffer outside the steward reserve, reduction tables, and look-aside entries. -/
def State.partClear (s : State) : State :=
  let s := (List.range 8).foldl (fun s h => if s.planned 4 h then s.clearHostel h else s) s
  let s := (List.range 4096).foldl (fun s n => if s.flag (POR.STATUS n) POR.STATUS_PRESENT then
    ((s.setPorter n {}).setFlag (POR.STATUS n) POR.STATUS_IMAGE_OK false).porCount n else s) s
  let s := s.clearBytes (porterBase 0) 0x10000000
  let keep := fun (a : Nat) => decide (stewardReserve ≤ a)
  let s := s.clearBytes 0 stewardReserve
  let clean := fun (_ : Nat) (v : Slice) => { v with
    rmw := v.rmw.filter fun e => keep (8 * e.1), scrubHeld := v.scrubHeld.filter fun w => keep (8 * w), red := [], redClosed := [], redDone := [] }
  let s := { s with
    wordErr := s.wordErr.filter fun e => keep (8 * e.1), tiles := s.tiles.filter fun e => keep (4096 * e.1),
    slices := tabMap {} clean s.slices, ctu := { s.ctu with small := [], medium := [], huge := [] } }
  (List.range 96).foldl (fun s sl =>
    s.setFld (SLICE.POISON_COUNT sl) SLICE.POISON_COUNT_VALUE (s.tiles.filter fun e => e.2.poisoned && (sliceOf e.1).1 == sl).length) s

/-- PART_RESET: a write in BOOT or SERVICE. -/
def execPartReset (s : State) : Res :=
  if !(s.stage == 1 || s.stage == 3) || s.flag BRG.STATUS BRG.STATUS_PART_RESET_BUSY then .next s
  else
    let s := (s.setPartBusy true).partKill
    let s := ([0, 1] : List Nat).foldl (fun s e => s.setFlag (XR.TT_CTRL e) XR.TT_CTRL_RUN false) s
    let s := s.partFence.faultWithdraw fun _ => true
    let s := (List.range 4).foldl (fun s u => if s.upHere u then s.resetUpper u else s) s
    .next s.partClear.broadcastHeld

/-- PART_RESET_DONE: fences and held packets are released, and the record is rewritten. A thermal shutdown overrides it. -/
def execPartResetDone (s : State) : Res :=
  if !s.flag BRG.STATUS BRG.STATUS_PART_RESET_BUSY || s.flag PT.STATUS PT.STATUS_SHUTDOWN_PENDING then .next s
  else
    let s := (List.range 4).foldl (fun s u =>
      if s.flag (UP.STATUS u) UP.STATUS_RESET_BUSY then s.upFails u else s) s
    let s := s.setPartBusy false
    let s := (List.range 8).foldl (fun s h => if s.planned 4 h && s.hostelEnabled h then s.holdHostel h false else s) s
    let s := (List.range 4096).foldl (fun s n => if s.flag (POR.STATUS n) POR.STATUS_PRESENT then
      (s.setFlag (POR.CTRL n) POR.CTRL_FENCE false).setFlag (POR.STATUS n) POR.STATUS_FENCED false else s) s
    let s := (List.range 4).foldl (fun s u => if s.upHere u then s.unfenceUpper u else s) s
    let s := (List.range 16).foldl (fun s x => (s.updOxl x fun o => { o with held := false }).oxAdmit x) s
    .next s.replan

end Sys2Proof.Machine
end

