-- ==== Sys2Proof/Machine/Guestbook.lean ====
section
/-!
DEFINITION. Sys2Proof/Machine/Guestbook.lean: the ring of committed entries, its search and the retention ring (R485-R489).
-/

namespace Sys2Proof.Machine

/-- The first of the waiting entries in guestbook order (R485). -/
def gbFirst : List GbEntry → Option GbEntry
  | [] => none
  | e :: t => match gbFirst t with
    | some o => some (if gbBefore o e then o else e)
    | none => some e

/-- The waiting entries without the first that equals `e`. -/
def gbTake (e : GbEntry) (l : List GbEntry) : List GbEntry := match listFind (· == e) l with
  | some i => listDrop1 l i
  | none => l

/-- The kinds that are copied into the retention ring (R489). -/
def gbKept (kind : Nat) : Bool := [kKILL, kLINK, kTHERMAL, kHEALTH, kSHUTDOWN, kUNIT, kBOOT].contains kind

/-- An entry is committed: it takes the next SEQ and, when the ring is full, the place of the oldest (R485, R488). -/
def State.gbCommit (s : State) (e : GbEntry) : State :=
  let n := s.fld GB.HEAD_SEQ GB.HEAD_SEQ_SEQ
  let old := s.fld GB.OLDEST_SEQ GB.OLDEST_SEQ_SEQ
  let e := { e with seq := BitVec.ofNat 32 n }
  let g := s.guestbook
  let full := (n + 2 ^ 32 - old) % 2 ^ 32 = 16384
  let lost := match tabFind g.ring (n % 16384) with
    | some o => if full && !bitOf o.flags 1 then some (max o.stamp (g.lost.getD 0)) else g.lost
    | none => g.lost
  let kept := if gbKept e.kind then (g.retained ++ [e]).drop (g.retained.length + 1 - 64) else g.retained
  let s := { s with guestbook := { g with waiting := gbTake { e with seq := 0 } g.waiting, ring := tabInsert g.ring (n % 16384) e, retained := kept, lost := lost } }
  let s := s.setFld GB.HEAD_SEQ GB.HEAD_SEQ_SEQ (n + 1)
  if full then s.setFld GB.OLDEST_SEQ GB.OLDEST_SEQ_SEQ (old + 1) else s

/-- GUESTBOOK_COMMIT (R485): the first waiting entry, once ETC has passed its stamp by 100,000 ns. The ring begins at ready. -/
def execGuestbookCommit (s : State) : Res :=
  match gbFirst s.guestbook.waiting with
  | none => .next s
  | some e => .next (if s.boot.ready && decide (e.stamp + 100000 ≤ s.etc) then s.gbCommit e else s)

/-- FIND (R486): a write of GB.FIND starts a search. -/
def execFind (t : BitVec 64) (s : State) : Res :=
  let s := (s.setReg GB.FIND t).setFlag GB.FIND_RESULT GB.FIND_RESULT_VALID false
  .next { s with finding := some t.toNat }

/-- The entries of the ring in SEQ order. -/
def State.gbInOrder (s : State) : List GbEntry :=
  let old := s.fld GB.OLDEST_SEQ GB.OLDEST_SEQ_SEQ % 16384
  (s.guestbook.ring.filter fun e => decide (old ≤ e.1)).map (·.2) ++ (s.guestbook.ring.filter fun e => decide (e.1 < old)).map (·.2)

/-- SEQ of the first committed entry without PRIOR whose stamp is `t` or later, or HEAD_SEQ. -/
def State.seqFrom (s : State) (t : Nat) : Nat :=
  match s.gbInOrder.find? fun e => !bitOf e.flags 1 && decide (t ≤ e.stamp) with
  | some e => e.seq.toNat
  | none => s.fld GB.HEAD_SEQ GB.HEAD_SEQ_SEQ

/-- The result of a search: TRUNCATED and SEQ. -/
def State.findSeq (s : State) (t : Nat) : Bool × Nat :=
  match s.guestbook.lost with
  | some l => if t ≤ l then (true, s.fld GB.OLDEST_SEQ GB.OLDEST_SEQ_SEQ) else (false, s.seqFrom t)
  | none => (false, s.seqFrom t)

/-- FIND_DONE (R486, R488). -/
def execFindDone (s : State) : Res :=
  match s.finding with
  | none => .next s
  | some t =>
    let r := s.findSeq t
    let s := (s.setFld GB.FIND_RESULT GB.FIND_RESULT_SEQ r.2).setFlag GB.FIND_RESULT GB.FIND_RESULT_TRUNCATED r.1
    .next { s.setFlag GB.FIND_RESULT GB.FIND_RESULT_VALID true with finding := none }

/-- RETAIN_CLEAR (R489). -/
def execRetainClear (s : State) : Res := .next { s with guestbook := { s.guestbook with retained := [] } }

end Sys2Proof.Machine
end

