-- ==== Sys2Proof/Machine/HostelMem.lean ====
section
/-!
DEFINITION. Sys2Proof/Machine/HostelMem.lean: loads and stores (R193), atomics and locks (R172-R174, R195), tile
registers (R196), and the accesses that take effect over the caravan link (R149).
An access to a store of the issuing hostel takes effect at issue; one to a peer's store waits in the group's queue.
-/

namespace Sys2Proof.Machine

/-- The access size of a memory instruction in bytes. -/
def memSize (w : W64) : Nat :=
  if hwClass w = 7 then
    match hwFunc w with
    | 0x00 | 0x01 | 0x10 => 1
    | 0x02 | 0x03 | 0x11 => 2
    | 0x04 | 0x12 => 4
    | 0x05 | 0x13 => 8
    | _ => 16
  else if hwFunc w = 0x0B then 16 else 4

/-- The offset that a lane addresses (R193). -/
def memOffset (w : W64) (gr : Group) (l : Nat) : Int := (gr.rv (hwA w) l).toNat + hwOff w

/-- The cause for which an offset is refused: alignment before bounds (R193). -/
def offCause (off : Int) (size align : Nat) (alloc : Option Nat) : Option Nat :=
  if off % (align : Int) ≠ 0 then some cMISALIGNED
  else match alloc with
    | none => some cSEGMENT
    | some n => if off < 0 || off + size > n then some cSEGMENT else none

/-- The lowest lane that a memory instruction breaks a check in, with its cause (R178, R193). -/
def memBreak (w : W64) (gr : Group) (xm : W32) (alloc : Option Nat) : Option (Nat × Nat) :=
  (lanesOf xm).findSome? fun l => (offCause (memOffset w gr l) (memSize w) (memSize w) alloc).map (l, ·)

/-- Sign extension of the loads that extend. -/
def loadValue (w : W64) (x : Nat) : Nat :=
  if hwFunc w = 0x01 then wrapTo 32 (sextOf 8 x) else if hwFunc w = 0x03 then wrapTo 32 (sextOf 16 x) else x

/-- Registers that a load or store of a size uses. -/
def memRegs (w : W64) : Nat := (memSize w + 3) / 4

/-- The operands that a lane captures at issue. -/
def laneAcc (w : W64) (gr : Group) (base : Nat) (l : Nat) : LaneAcc :=
  { lane := l, dpa := base + (memOffset w gr l).toNat,
    b := if hwClass w = 7 then gr.rvN (hwD w) l (memRegs w) else gr.rvN (hwMB w) l (memRegs w),
    c := (gr.rv (hwMC w) l).toNat }

/-- A lane's owner value of a lock (R172). -/
def ownerWord (h g l : Nat) : Nat := 2 ^ 31 + h % 8 * 2 ^ 28 + g % 64 * 2 ^ 22 + l % 32 * 2 ^ 17

/-- The status of a try-acquire at a lane's turn (R173, R195). -/
def acqStatus (h g l w : Nat) : Nat :=
  let own := ownerWord h g l
  if w = 0 then 0
  else if w = own then 3
  else if bitOf w 31 && bitsOf w 16 0 == 0 && bitsOf w 30 22 == bitsOf own 30 22 then 2
  else 1

/-- The new word of an atomic and the flags it sets (Table 6.12). -/
def atomicWord (f old b c : Nat) : Nat × Flags :=
  match f with
  | 0x00 => ((old + b) % 2 ^ 32, 0)
  | 0x01 => (iMin old b, 0)
  | 0x02 => (iMax old b, 0)
  | 0x03 => (iMinu old b, 0)
  | 0x04 => (iMaxu old b, 0)
  | 0x05 => (Nat.land old b, 0)
  | 0x06 => (Nat.lor old b, 0)
  | 0x07 => (Nat.xor old b, 0)
  | 0x08 => (b, 0)
  | 0x09 => (if old = b then c else old, 0)
  | 0x0A => fadd fp32 old b
  | _ => (tallyAdd old b, 0)

/-- The group in a slot changed. -/
def State.updGroup (s : State) (h g : Nat) (f : Group → Group) : State := s.setGroup h g (f (s.group h g))

/-- One lane of a memory instruction takes effect; false where a release names a lock that the lane does not own. -/
def State.memLane (s : State) (h g : Nat) (w : W64) (a : LaneAcc) : State × Bool :=
  let f := hwFunc w
  let n := memSize w
  let old := s.word a.dpa n
  if hwClass w = 7 then
    if f < 0x10 then (s.updGroup h g fun gr => gr.wvN (hwD w) a.lane (memRegs w) (loadValue w old), true)
    else (s.putBytes a.dpa (leBytes n a.b), true)
  else if f = 0x10 then
    let st := acqStatus h g a.lane old
    let s := if st = 0 then s.putBytes a.dpa (leBytes 4 (ownerWord h g a.lane)) else s
    (s.updGroup h g fun gr => gr.wv (hwD w) a.lane (BitVec.ofNat 32 st), true)
  else if f = 0x11 then
    if old = ownerWord h g a.lane then (s.putBytes a.dpa (leBytes 4 0), true) else (s, false)
  else
    let (x, fl) := atomicWord f old a.b a.c
    ((s.putBytes a.dpa (leBytes n x)).updGroup h g fun gr => (gr.wvN (hwD w) a.lane (memRegs w) old).orFlags fl, true)

/-- The lanes of a memory instruction in ascending order (R194); a release that fails kills the context at its lane,
and the lanes above change nothing (R174). -/
def State.memLanes (s : State) (h g : Nat) (w : W64) : List LaneAcc → State
  | [] => s
  | a :: t => match s.memLane h g w a with
    | (s, true) => s.memLanes h g w t
    | (s, false) => s.hostelFault h g a.lane cLOCK_OWNER

/-- A load, store, atomic or lock instruction (R193). -/
def State.issueMem (s : State) (h g : Nat) (w : W64) (op : HOp) : Res :=
  s.issue h g w op fun s =>
    let gr := s.group h g
    let xm := execMask gr w
    let tb := s.rankBlock h gr.block (hwRank w)
    match memBreak w gr xm (tb.map fun k => (s.blockAt k.1 k.2).size) with
    | some (l, c) => .next (s.hostelFault h g l c)
    | none => match tb with
      | none => .next (s.setGroup h g gr.next)
      | some k =>
        let accs := (lanesOf xm).map (laneAcc w gr (storeBase k.1 + (s.blockAt k.1 k.2).alloc))
        if accs.isEmpty then .next (s.setGroup h g gr.next)
        else if k.1 = h then
          -- The program counter stays at a release that fails, so that the log names it.
          let s' := s.memLanes h g w accs
          .next (if (s'.group h g).stopped then s' else s'.updGroup h g Group.next)
        else .next (s.setGroup h g { gr.next with peer := gr.peer ++ [.mem w k.1 accs] })

/-! ### Tile registers (R145, R196) -/

/-- A group-wide instruction acts only when the active mask is the live mask (R145). -/
def State.groupWide (s : State) (h g cause : Nat) (body : State → Res) : Res :=
  let gr := s.group h g
  if gr.active ≠ gr.live then .next (s.hostelFault h g 0 cause) else body s

/-- The value of a group operand (R185). -/
def Group.groupOp (gr : Group) (xm : W32) (r : Nat) : W32 := gr.rv r ((lowLane xm).getD 0)

/-- A transfer of 4 KiB between a tile register and the store. -/
def State.tileMove (s : State) (h g : Nat) (w : W64) (dpa : Nat) : State :=
  if hwFunc w = 0 then s.updGroup h g fun gr => gr.wmBytes (hwD w) 0 (s.bytes dpa 4096)
  else s.putBytes dpa ((s.group h g).rmBytes (hwD w) 0 4096)

/-- TLD and TST. -/
def State.issueTileMem (s : State) (h g : Nat) (w : W64) (op : HOp) : Res :=
  s.issue h g w op fun s => s.groupWide h g cDIVERGENT_MATRIX fun s =>
    let gr := s.group h g
    let off : Int := (gr.groupOp gr.active (hwA w)).toNat + hwOff w
    let tb := s.rankBlock h gr.block (hwRank w)
    match offCause off 4096 128 (tb.map fun k => (s.blockAt k.1 k.2).size) with
    | some c => .next (s.hostelFault h g ((lowLane gr.active).getD 0) c)
    | none => match tb with
      | none => .next s
      | some k =>
        let dpa := storeBase k.1 + (s.blockAt k.1 k.2).alloc + off.toNat
        if k.1 = h then .next ((s.tileMove h g w dpa).updGroup h g Group.next)
        else .next (s.setGroup h g { gr.next with peer := gr.peer ++ [.tile w k.1 dpa] })

/-- A tile-register instruction that only writes its group. -/
def State.issueTile (s : State) (h g : Nat) (w : W64) (op : HOp) (f : Group → Group) : Res :=
  s.issue h g w op fun s => s.groupWide h g cDIVERGENT_MATRIX fun s =>
    .next (s.updGroup h g fun gr => (f gr).next)

/-- The byte offset of a row named by v_b of the lowest active lane. -/
def tileRow (w : W64) (gr : Group) : Nat := (gr.groupOp gr.active (hwB w)).toNat % 32 * 128

/-- LD.U8 (R193, Table 6.11). -/
def execLdU8 (h : BitVec 3) (g : BitVec 6) (w : W64) (s : State) : Res :=
  s.issueMem h.toNat g.toNat w ⟨0x7, 0x00⟩

/-- LD.S8 (R193, Table 6.11). -/
def execLdS8 (h : BitVec 3) (g : BitVec 6) (w : W64) (s : State) : Res :=
  s.issueMem h.toNat g.toNat w ⟨0x7, 0x01⟩

/-- LD.U16 (R193, Table 6.11). -/
def execLdU16 (h : BitVec 3) (g : BitVec 6) (w : W64) (s : State) : Res :=
  s.issueMem h.toNat g.toNat w ⟨0x7, 0x02⟩

/-- LD.S16 (R193, Table 6.11). -/
def execLdS16 (h : BitVec 3) (g : BitVec 6) (w : W64) (s : State) : Res :=
  s.issueMem h.toNat g.toNat w ⟨0x7, 0x03⟩

/-- LD.32 (R193, Table 6.11). -/
def execLd32 (h : BitVec 3) (g : BitVec 6) (w : W64) (s : State) : Res :=
  s.issueMem h.toNat g.toNat w ⟨0x7, 0x04⟩

/-- LD.64 (R193, Table 6.11). -/
def execLd64 (h : BitVec 3) (g : BitVec 6) (w : W64) (s : State) : Res :=
  s.issueMem h.toNat g.toNat w ⟨0x7, 0x05⟩

/-- LD.128 (R193, Table 6.11). -/
def execLd128 (h : BitVec 3) (g : BitVec 6) (w : W64) (s : State) : Res :=
  s.issueMem h.toNat g.toNat w ⟨0x7, 0x06⟩

/-- ST.8 (R193, Table 6.11). -/
def execSt8 (h : BitVec 3) (g : BitVec 6) (w : W64) (s : State) : Res :=
  s.issueMem h.toNat g.toNat w ⟨0x7, 0x10⟩

/-- ST.16 (R193, Table 6.11). -/
def execSt16 (h : BitVec 3) (g : BitVec 6) (w : W64) (s : State) : Res :=
  s.issueMem h.toNat g.toNat w ⟨0x7, 0x11⟩

/-- ST.32 (R193, Table 6.11). -/
def execSt32 (h : BitVec 3) (g : BitVec 6) (w : W64) (s : State) : Res :=
  s.issueMem h.toNat g.toNat w ⟨0x7, 0x12⟩

/-- ST.64 (R193, Table 6.11). -/
def execSt64 (h : BitVec 3) (g : BitVec 6) (w : W64) (s : State) : Res :=
  s.issueMem h.toNat g.toNat w ⟨0x7, 0x13⟩

/-- ST.128 (R193, Table 6.11). -/
def execSt128 (h : BitVec 3) (g : BitVec 6) (w : W64) (s : State) : Res :=
  s.issueMem h.toNat g.toNat w ⟨0x7, 0x14⟩

/-- AtomAdd (R195, Table 6.12). -/
def execAtomAdd (h : BitVec 3) (g : BitVec 6) (w : W64) (s : State) : Res :=
  s.issueMem h.toNat g.toNat w ⟨0x8, 0x00⟩

/-- AtomMin (R195, Table 6.12). -/
def execAtomMin (h : BitVec 3) (g : BitVec 6) (w : W64) (s : State) : Res :=
  s.issueMem h.toNat g.toNat w ⟨0x8, 0x01⟩

/-- AtomMax (R195, Table 6.12). -/
def execAtomMax (h : BitVec 3) (g : BitVec 6) (w : W64) (s : State) : Res :=
  s.issueMem h.toNat g.toNat w ⟨0x8, 0x02⟩

/-- AtomMinu (R195, Table 6.12). -/
def execAtomMinu (h : BitVec 3) (g : BitVec 6) (w : W64) (s : State) : Res :=
  s.issueMem h.toNat g.toNat w ⟨0x8, 0x03⟩

/-- AtomMaxu (R195, Table 6.12). -/
def execAtomMaxu (h : BitVec 3) (g : BitVec 6) (w : W64) (s : State) : Res :=
  s.issueMem h.toNat g.toNat w ⟨0x8, 0x04⟩

/-- AtomAnd (R195, Table 6.12). -/
def execAtomAnd (h : BitVec 3) (g : BitVec 6) (w : W64) (s : State) : Res :=
  s.issueMem h.toNat g.toNat w ⟨0x8, 0x05⟩

/-- AtomOr (R195, Table 6.12). -/
def execAtomOr (h : BitVec 3) (g : BitVec 6) (w : W64) (s : State) : Res :=
  s.issueMem h.toNat g.toNat w ⟨0x8, 0x06⟩

/-- AtomXor (R195, Table 6.12). -/
def execAtomXor (h : BitVec 3) (g : BitVec 6) (w : W64) (s : State) : Res :=
  s.issueMem h.toNat g.toNat w ⟨0x8, 0x07⟩

/-- AtomExch (R195, Table 6.12). -/
def execAtomExch (h : BitVec 3) (g : BitVec 6) (w : W64) (s : State) : Res :=
  s.issueMem h.toNat g.toNat w ⟨0x8, 0x08⟩

/-- AtomCas (R195, Table 6.12). -/
def execAtomCas (h : BitVec 3) (g : BitVec 6) (w : W64) (s : State) : Res :=
  s.issueMem h.toNat g.toNat w ⟨0x8, 0x09⟩

/-- AtomFadd (R195, Table 6.12). -/
def execAtomFadd (h : BitVec 3) (g : BitVec 6) (w : W64) (s : State) : Res :=
  s.issueMem h.toNat g.toNat w ⟨0x8, 0x0A⟩

/-- AtomTadd (R195, Table 6.12). -/
def execAtomTadd (h : BitVec 3) (g : BitVec 6) (w : W64) (s : State) : Res :=
  s.issueMem h.toNat g.toNat w ⟨0x8, 0x0B⟩

/-- Acq (R195, Table 6.12). -/
def execAcq (h : BitVec 3) (g : BitVec 6) (w : W64) (s : State) : Res :=
  s.issueMem h.toNat g.toNat w ⟨0x8, 0x10⟩

/-- Rel (R195, Table 6.12). -/
def execRel (h : BitVec 3) (g : BitVec 6) (w : W64) (s : State) : Res :=
  s.issueMem h.toNat g.toNat w ⟨0x8, 0x11⟩

/-- TLD (R196). -/
def execTld (h : BitVec 3) (g : BitVec 6) (w : W64) (s : State) : Res :=
  s.issueTileMem h.toNat g.toNat w ⟨0x9, 0x00⟩

/-- TST (R196). -/
def execTst (h : BitVec 3) (g : BitVec 6) (w : W64) (s : State) : Res :=
  s.issueTileMem h.toNat g.toNat w ⟨0x9, 0x01⟩

/-- TMOV (R196). -/
def execTmov (h : BitVec 3) (g : BitVec 6) (w : W64) (s : State) : Res :=
  s.issueTile h.toNat g.toNat w ⟨0x9, 0x02⟩ fun gr => gr.wmBytes (hwD w) 0 (gr.rmBytes (hwA w) 0 4096)

/-- TZERO (R196). -/
def execTzero (h : BitVec 3) (g : BitVec 6) (w : W64) (s : State) : Res :=
  s.issueTile h.toNat g.toNat w ⟨0x9, 0x03⟩ fun gr => gr.wmBytes (hwD w) 0 (List.replicate 4096 0)

/-- TRD (R196): lane k takes word k of the row. -/
def execTrd (h : BitVec 3) (g : BitVec 6) (w : W64) (s : State) : Res :=
  s.issueTile h.toNat g.toNat w ⟨0x9, 0x04⟩ fun gr =>
    gr.perLane gr.active fun acc l => acc.wv (hwD w) l (BitVec.ofNat 32 (leVal (gr.rmBytes (hwA w) (tileRow w gr + 4 * l) 4)))

/-- TWR (R196): word k of the row takes v_a of lane k. -/
def execTwr (h : BitVec 3) (g : BitVec 6) (w : W64) (s : State) : Res :=
  s.issueTile h.toNat g.toNat w ⟨0x9, 0x05⟩ fun gr =>
    gr.perLane gr.active fun acc l => acc.wmBytes (hwD w) (tileRow w gr + 4 * l) (leBytes 4 (gr.rv (hwA w) l).toNat)

/-! ### The caravan link (R149) -/

/-- One access on the caravan link takes effect. -/
def State.peerApply (s : State) (h g : Nat) : PeerOp → State
  | .mem w _ accs => s.memLanes h g w accs
  | .tile w _ dpa => s.tileMove h g w dpa
  | .sig t c imm => s.setCtr t c (s.ctr t c + BitVec.ofNat 32 imm)

def PeerOp.target : PeerOp → Nat
  | .mem _ t _ => t
  | .tile _ t _ => t
  | .sig t _ _ => t

/-- The cause that a peer access meets at its store: DECODE for an absent or unpowered hostel (R32), FENCED for a
fenced one (R476). -/
def State.peerCause (s : State) (t : Nat) : Nat :=
  if !s.hostelUp t then cDECODE else if s.flag (HOS.STATUS t) HOS.STATUS_FENCED then cFENCED else 0

/-- PEER_ACCESS_DONE (R149): the group's oldest access to a peer's store takes effect; one that meets a bus error
kills the context (Table 5.10). A group with no access to that store is unchanged. -/
def execPeerAccessDone (h : BitVec 3) (g : BitVec 6) (target : BitVec 3) (s : State) : Res :=
  let gr := s.group h.toNat g.toNat
  match listFind (fun p : PeerOp => p.target == target.toNat) gr.peer with
  | none => .next s
  | some i =>
    let p := gr.peer[i]?
    let s := s.setGroup h.toNat g.toNat { gr with peer := listDrop1 gr.peer i }
    match p with
    | none => .next s
    | some p =>
      let c := s.peerCause target.toNat
      if c ≠ 0 then
        let s := s.busError c (srcOf 4 target.toNat) gr.launch 0
        let s := s.updGroup h.toNat g.toNat fun gr => { gr with stopped := true }
        let s := if s.killing gr.launch then s else s.hosLog h.toNat gr.launch g.toNat 0 cBUS_ERROR gr.pc.toNat
        .next (s.startKill gr.launch cBUS_ERROR (srcOf 4 h.toNat) gr.pc.toNat c g.toNat 0)
      else .next (s.peerApply h.toNat g.toNat p)

end Sys2Proof.Machine
end

