-- ==== Sys2Proof/Machine/HostelArray.lean ====
section
/-!
DEFINITION. Sys2Proof/Machine/HostelArray.lean: the matrix array of a hostel: dot and lane instructions placed in
the array queue (R152, R153, R156, R197, R198) and executed one at a time by ARRAY_START.
-/

namespace Sys2Proof.Machine

def State.arrayQ (s : State) (h : Nat) : List ArrayOp := tabGet [] s.hosArray h
def State.setArrayQ (s : State) (h : Nat) (q : List ArrayOp) : State := { s with hosArray := tabSet [] s.hosArray h q }

/-! ### Placing instructions -/

/-- Place an instruction in the array queue; the MATRIX pipe stalls while it holds 8 (R152). -/
def State.enqueue (s : State) (h g : Nat) (o : ArrayOp) : Res :=
  let q := s.arrayQ h
  if q.length ≥ 8 then .next s
  else .next ((s.setArrayQ h (q ++ [o])).updGroup h g Group.next)

/-- Whether a peer transfer in flight will write a tile register that MDOT names. -/
def dotBusy (gr : Group) (w : W64) : Bool :=
  gr.peer.any fun p => match p with
    | .tile w' _ _ => hwD w' % 16 == hwD w % 16 || hwD w' % 16 == hwMA w || hwD w' % 16 == hwMBt w
    | _ => false

/-- MDOT (R197): placed in the array queue. -/
def execMdot (h : BitVec 3) (g : BitVec 6) (w : W64) (s : State) : Res :=
  s.issue h.toNat g.toNat w ⟨0xA, 0x00⟩ fun s => s.groupWide h.toNat g.toNat cDIVERGENT_MATRIX fun s =>
    let gr := s.group h.toNat g.toNat
    if dotBusy gr w then .next s
    else s.enqueue h.toNat g.toNat
      { group := g.toNat, launch := gr.launch, word := w, d0 := 0, a0 := 0, b0 := 0, n := 0, s := 0, dva := 0 }

/-- The element sizes of a lane instruction's sources and destination. -/
def laneSizeIn (w : W64) : Nat := if hwFI w then 4 else 2
def laneSizeOut (w : W64) : Nat := if hwFO w then 4 else 2

/-- Whether two runs of bytes meet. -/
def runsMeet (a n b m : Nat) : Bool := n != 0 && m != 0 && decide (a < b + m) && decide (b < a + n)

/-- The checks of a lane instruction at issue, in the order of R198. -/
def laneCause (w : W64) (size d0 a0 b0 n : Nat) : Option Nat :=
  let si := laneSizeIn w
  let so := laneSizeOut w
  if n > 2 ^ 24 then some cLANE_COUNT
  else if d0 + n * so > size || a0 + n * si > size || b0 + n * si > size then some cSEGMENT
  else if d0 % so ≠ 0 || a0 % si ≠ 0 || b0 % si ≠ 0 then some cMISALIGNED
  else if (runsMeet d0 (n * so) a0 (n * si) || runsMeet d0 (n * so) b0 (n * si)) &&
      !((d0 == a0 || d0 == b0) && so == si) then some cSTREAM_OVERLAP
  else none

/-- A lane instruction at issue (R198). -/
def State.issueLane (s : State) (h g : Nat) (w : W64) (op : HOp) : Res :=
  s.issue h g w op fun s => s.groupWide h g cDIVERGENT_MATRIX fun s =>
    let gr := s.group h g
    let v := fun (r : Nat) => (gr.groupOp gr.active r).toNat
    let b := s.blockAt h gr.block
    let n := v (hwN w)
    if n = 0 then .next (s.setGroup h g gr.next)
    else match laneCause w b.size (v (hwD w)) (v (hwA w)) (v (hwB w)) n with
      | some c => .next (s.hostelFault h g ((lowLane gr.active).getD 0) c)
      | none =>
        let base := storeBase h + b.alloc
        s.enqueue h g
          { group := g, launch := gr.launch, word := w, d0 := base + v (hwD w), a0 := base + v (hwA w),
            b0 := base + v (hwB w), n := n, s := v (hwC w),
            dva := if hwDTH w then v (hwDV w) + 2 ^ 32 * v (hwDV w + 1) else 0 }

/-- LFMA (R198, Table 5.4). -/
def execLfma (h : BitVec 3) (g : BitVec 6) (w : W64) (s : State) : Res :=
  s.issueLane h.toNat g.toNat w ⟨0xB, 0x00⟩

/-- LSCALE (R198, Table 5.4). -/
def execLscale (h : BitVec 3) (g : BitVec 6) (w : W64) (s : State) : Res :=
  s.issueLane h.toNat g.toNat w ⟨0xB, 0x01⟩

/-- LMUL (R198, Table 5.4). -/
def execLmul (h : BitVec 3) (g : BitVec 6) (w : W64) (s : State) : Res :=
  s.issueLane h.toNat g.toNat w ⟨0xB, 0x02⟩

/-- LADD (R198, Table 5.4). -/
def execLadd (h : BitVec 3) (g : BitVec 6) (w : W64) (s : State) : Res :=
  s.issueLane h.toNat g.toNat w ⟨0xB, 0x03⟩

/-- LSUB (R198, Table 5.4). -/
def execLsub (h : BitVec 3) (g : BitVec 6) (w : W64) (s : State) : Res :=
  s.issueLane h.toNat g.toNat w ⟨0xB, 0x04⟩

/-- LMAX (R198, Table 5.4). -/
def execLmax (h : BitVec 3) (g : BitVec 6) (w : W64) (s : State) : Res :=
  s.issueLane h.toNat g.toNat w ⟨0xB, 0x05⟩

/-- LMIN (R198, Table 5.4). -/
def execLmin (h : BitVec 3) (g : BitVec 6) (w : W64) (s : State) : Res :=
  s.issueLane h.toNat g.toNat w ⟨0xB, 0x06⟩

/-! ### Dot mode (R151, R153-R155, R197) -/

/-- The floating format of an MDOT code; code 4 is INT8. -/
def dotFmt : Nat → Fmt
  | 0 => bf16
  | 1 => fp16
  | 2 => e4m3
  | 3 => e5m2
  | 5 => e2m3
  | 6 => e3m2
  | 7 => e2m1
  | _ => fp32

/-- Element width in bits, elements per row, and elements per chunk, by width class (Table 5.3). -/
def dotWidth (f : Nat) : Nat := if f = 4 then 8 else fmtWidth (dotFmt f)
def dotK (c : Nat) : Nat := if c = 0 then 64 else 128
def dotChunkLen (c : Nat) : Nat := if c = 0 then 32 else if c = 3 then 128 else 64

/-- Element k of a row held as a number. -/
def rowElem (f row k : Nat) : Nat := bitsOf row (dotWidth f * k + dotWidth f - 1) (dotWidth f * k)
/-- The block scale of element k of an MX row (R151). -/
def rowScale (row k : Nat) : Nat := bitsOf row (8 * (124 + k / 32) + 7) (8 * (124 + k / 32))

/-- The terms of a chunk that starts at k. -/
def dotTerms (fa fb ra rb : Nat) (mx : Bool) : Nat → Nat → List DotTerm
  | _, 0 => []
  | k, n + 1 =>
    let sa := rowScale ra k
    let sb := rowScale rb k
    { a := fdecode (dotFmt fa) (rowElem fa ra k), b := fdecode (dotFmt fb) (rowElem fb rb k),
      badScale := mx && (sa == 255 || sb == 255),
      sc := if mx then (sa : Int) - 127 + ((sb : Int) - 127) else 0 } :: dotTerms fa fb ra rb mx (k + 1) n

/-- Unit (i, j) over its chunks in ascending k (R154). -/
def dotUnit (fa fb ra rb : Nat) (mx : Bool) (len : Nat) : Nat → Nat → Nat → Flags → Nat × Flags
  | 0, _, c, fl => (c, fl)
  | n + 1, k, c, fl =>
    let (x, f1) := dotChunk (dotTerms fa fb ra rb mx k len)
    let (c', f2) := fadd fp32 c x
    dotUnit fa fb ra rb mx len n (k + len) c' (Nat.lor fl (Nat.lor f1 f2))

/-- Unit (i, j) for INT8 (R155). -/
def dotInt (ra rb : Nat) : Nat → Int
  | 0 => 0
  | n + 1 => dotInt ra rb n + sextOf 8 (rowElem 4 ra n) * sextOf 8 (rowElem 4 rb n)

/-- One element of the result. -/
def dotElem (w : W64) (ra rb c : Nat) : Nat × Flags :=
  let cl := dotClass (hwFA w)
  if cl = 2 then (wrapTo 32 ((c : Int) + dotInt ra rb 128), 0)
  else dotUnit (hwFA w) (hwFB w) ra rb (cl == 3) (dotChunkLen cl) (dotK cl / dotChunkLen cl) 0 c 0

/-- Row i of a tile register as a number. -/
def Group.rowOf (g : Group) (m i : Nat) : Nat := leVal (g.rmBytes m (128 * i) 128)

/-- MDOT executes: all operands are read before the result is written (R197). -/
def dotExec (gr : Group) (w : W64) : Group :=
  let cells := (List.range 32).flatMap fun i => (List.range 32).map fun j => (i, j)
  cells.foldl (fun acc c =>
    let old := if hwZ w then 0 else bitsOf (gr.rowOf (hwD w) c.1) (32 * c.2 + 31) (32 * c.2)
    let (x, fl) := dotElem w (gr.rowOf (hwMA w) c.1) (gr.rowOf (hwMBt w) c.2) old
    (acc.wmBytes (hwD w) (128 * c.1 + 4 * c.2) (leBytes 4 x)).orFlags fl) gr

/-! ### Lane mode (R156, R168, R198) -/

/-- The exact value of a lane operation and its operands in order (Table 5.4). -/
def laneValue (f : Nat) (a b s : FVal) : List FVal × Option FVal :=
  match f with
  | 0x00 => ([a, b, s], ffmaVal a b s)
  | 0x01 => ([a, s, b], ffmaVal a s b)
  | 0x02 => ([a, b], fmulVal a b)
  | 0x03 => ([a, b], faddVal a b)
  | 0x04 => ([a, b], faddVal a (fnegVal b))
  | 0x05 => ([a, b], some (fmaxVal a b))
  | _ => ([a, b], some (fminVal a b))

/-- One element: its bytes and flags. -/
def laneElem (o : ArrayOp) (dc : DitherCtx) (a b : Nat) (e : Nat) : Nat × Flags :=
  let fi := if hwFI o.word then fp32 else bf16
  let fo := if hwFO o.word then fp32 else bf16
  let (ops, v) := laneValue (hwFunc o.word) (fdecode fi a) (fdecode fi b) (fdecode fp32 o.s)
  let r := if hwDTH o.word then Rnd.dither (ditherOf dc.seed ((o.dva + 2 * e) % 2 ^ 57) dc.step) else .rne
  ffinish fo r ops v

/-- The elements in ascending order, each read before it is written. -/
def State.laneExec (s : State) (h : Nat) (o : ArrayOp) (dc : DitherCtx) : Nat → Nat → State
  | 0, _ => s
  | n + 1, e =>
    let si := laneSizeIn o.word
    let so := laneSizeOut o.word
    let (x, fl) := laneElem o dc (s.word (o.a0 + e * si) si) (s.word (o.b0 + e * si) si) e
    ((s.putBytes (o.d0 + e * so) (leBytes so x)).updGroup h o.group fun gr => gr.orFlags fl).laneExec h o dc n (e + 1)

/-- Array cycles of an instruction (Table 5.3, R157). -/
def arrayCycles (o : ArrayOp) : Nat :=
  if hwClass o.word = 0xA then (if dotClass (hwFA o.word) = 3 then 1 else 2)
  else
    let width := if hwFI o.word then 8192 else 32768
    let c := (o.n + width - 1) / width
    let full := o.d0 % 1024 == 0 && o.a0 % 1024 == 0 && o.b0 % 1024 == 0 && (o.a0 + 0x20000 - o.b0 % 0x20000) % 0x20000 == 0x10000
    if full then c else 2 * c

/-- ARRAY_START (R152): the array takes the next queued instruction and executes it; an empty queue leaves all as it
is. -/
def execArrayStart (h : BitVec 3) (s : State) : Res :=
  match s.arrayQ h.toNat with
  | [] => .next s
  | o :: q =>
    let s := s.setArrayQ h.toNat q
    let dot := hwClass o.word == 0xA
    let s := (s.setFld (HOS.STATUS h.toNat) HOS.STATUS_ARRAY_MODE (b2n !dot)).bump (HOS.ARRAY_BUSY h.toNat) (arrayCycles o)
    if dot then .next (s.updGroup h.toNat o.group fun gr => dotExec gr o.word)
    else .next (s.laneExec h.toNat o (s.ditherCtx h.toNat o.group) o.n 0)

end Sys2Proof.Machine
end

