-- ==== Sys2Proof/Machine/HostelCtrl.lean ====
section
/-!
DEFINITION. Sys2Proof/Machine/HostelCtrl.lean: control flow and reconvergence (R141-R144, R199, R200), barriers,
fences, waits, signals and milestones (R201-R203), special registers (R186) of the hostel.
-/

namespace Sys2Proof.Machine

/-! ### Control (Table 6.14) -/

/-- A branch that only changes the group. -/
def State.issueJump (s : State) (h g : Nat) (w : W64) (op : HOp) (f : Group → Group) : Res :=
  s.issue h g w op fun s => .next (s.updGroup h g f)

/-- An indirect target (R143, R200): equal in all active lanes, a multiple of 8 below 262,144. -/
def indirectTarget (gr : Group) (r : Nat) : Option Nat :=
  let t := (gr.groupOp gr.active r).toNat
  if (lanesOf gr.active).all (fun l => gr.rv r l == gr.groupOp gr.active r) && t % 8 == 0 && t < 262144 then some t else none

/-- The link register of a call: pc + 8 in each active lane. -/
def linkWrite (w : W64) (gr : Group) : Group :=
  gr.perLane gr.active fun acc l => acc.wv (hwD w) l (BitVec.ofNat 32 (gr.pc + 8).toNat)

/-- An indirect branch or call: kills the context with DIVERGENT_BRANCH where the target is not one. -/
def State.issueIndirect (s : State) (h g : Nat) (w : W64) (op : HOp) (link : Bool) : Res :=
  s.issue h g w op fun s =>
    let gr := s.group h g
    match indirectTarget gr (hwTarget w % 128) with
    | none => .next (s.hostelFault h g ((lowLane gr.active).getD 0) cDIVERGENT_BRANCH)
    | some t =>
      let gr' := if link then linkWrite w gr else gr
      .next (s.setGroup h g { gr' with pc := BitVec.ofNat 18 t })

/-- BRA (R199). -/
def execBra (h : BitVec 3) (g : BitVec 6) (w : W64) (s : State) : Res :=
  s.issueJump h.toNat g.toNat w ⟨0xC, 0⟩ fun gr => { gr with pc := BitVec.ofNat 18 (8 * hwTarget w) }

/-- BRC (R141, R142): a divergent branch pushes a reconvergence entry and runs the fall-through path first. -/
def execBrc (h : BitVec 3) (g : BitVec 6) (w : W64) (s : State) : Res :=
  s.issue h.toNat g.toNat w ⟨0xC, 1⟩ fun s =>
    let gr := s.group h.toNat g.toNat
    let p := if hwBN w then ~~~gr.rp (hwBP w) else gr.rp (hwBP w)
    let taken := gr.active &&& p
    if taken = 0 then .next (s.setGroup h.toNat g.toNat gr.next)
    else if taken = gr.active then .next (s.setGroup h.toNat g.toNat { gr with pc := BitVec.ofNat 18 (8 * hwTarget w) })
    else if gr.stack.length ≥ 16 then .next (s.hostelFault h.toNat g.toNat 0 cRECONVERGE_OVERFLOW)
    else
      let e : Rejoin := { rejoin := 8 * hwRejoin w, saved := gr.active, pendPc := 8 * hwTarget w, pendMask := taken }
      .next (s.setGroup h.toNat g.toNat { gr.next with stack := e :: gr.stack, active := gr.active &&& ~~~p })

/-- BRX (R199, R143). -/
def execBrx (h : BitVec 3) (g : BitVec 6) (w : W64) (s : State) : Res :=
  s.issueIndirect h.toNat g.toNat w ⟨0xC, 2⟩ false

/-- CALL (R199). -/
def execCall (h : BitVec 3) (g : BitVec 6) (w : W64) (s : State) : Res :=
  s.issueJump h.toNat g.toNat w ⟨0xC, 3⟩ fun gr =>
    { linkWrite w gr with pc := BitVec.ofNat 18 (8 * hwTarget w) }

/-- CALLX (R199, R143). -/
def execCallx (h : BitVec 3) (g : BitVec 6) (w : W64) (s : State) : Res :=
  s.issueIndirect h.toNat g.toNat w ⟨0xC, 4⟩ true

/-- RET (R199). -/
def execRet (h : BitVec 3) (g : BitVec 6) (w : W64) (s : State) : Res :=
  s.issueIndirect h.toNat g.toNat w ⟨0xC, 5⟩ false

/-- Whether work of the group is still in flight: accesses on the caravan link or instructions in the array queue. -/
def State.inFlight (s : State) (h g : Nat) : Bool :=
  !(s.group h g).peer.isEmpty || (s.arrayQ h).any fun o => o.group == g

/-- EXIT (R144): the active lanes leave the live mask and the active mask; an empty live mask ends the group. The last
EXIT issues once the group's work in flight has ended (DEDUCED, assumption 11). -/
def execExit (h : BitVec 3) (g : BitVec 6) (w : W64) (s : State) : Res :=
  s.issue h.toNat g.toNat w ⟨0xC, 6⟩ fun s =>
    let gr := s.group h.toNat g.toNat
    let live := gr.live &&& ~~~gr.active
    if live = 0 then
      (if s.inFlight h.toNat g.toNat then .next s else .next (s.endGroup h.toNat g.toNat))
    else .next (s.setGroup h.toNat g.toNat { gr.next with live := live, active := 0 })

/-- NOP (R199). -/
def execNop (h : BitVec 3) (g : BitVec 6) (w : W64) (s : State) : Res :=
  s.issueJump h.toNat g.toNat w ⟨0xC, 7⟩ Group.next

/-- The rejoin check of R141, until the group may fetch. The stack is no deeper than the fuel. -/
def rejoinStep : Nat → Group → Group
  | 0, gr => gr
  | n + 1, gr =>
    match gr.stack with
    | [] => gr
    | t :: r =>
      if gr.pc.toNat = t.rejoin then
        (if t.pendMask ≠ 0 then
          rejoinStep n { gr with
            pc := BitVec.ofNat 18 t.pendPc, active := t.pendMask &&& gr.live, stack := { t with pendMask := 0 } :: r }
        else rejoinStep n { gr with active := t.saved &&& gr.live, stack := r })
      else gr

/-- REJOIN (R141): before a fetch at a rejoin address the group switches to the pending path, or restores the saved
mask and pops; lanes no longer live stay off (R144). -/
def execRejoin (h : BitVec 3) (g : BitVec 6) (s : State) : Res :=
  let gr := s.group h.toNat g.toNat
  if gr.used && !gr.stopped && gr.wait == .none then .next (s.setGroup h.toNat g.toNat (rejoinStep 33 gr)) else .next s

/-! ### Synchronisation (Table 6.15) -/

/-- The counter a_K of a block (R201). -/
def blockCtr (b : Block) (k : Nat) : Nat := (b.ctrBase + k) % 64

/-- Whether an arrival counter has reached a value, as a signed difference (R201). -/
def ctrReached (c v : W32) : Bool := !(c - v).getLsbD 31

/-- MILE of a group in its block: none while four identifiers are pending (R203). -/
def State.mileStep (s : State) (h g id : Nat) : Option State :=
  let gr := s.group h g
  let bl := s.blockAt h gr.block
  let bit := 2 ^ gr.gidx
  if bl.miles.any fun m => m.1 == id then
    some ((s.setBlock h gr.block { bl with miles := bl.miles.map fun m => if m.1 = id then (id, Nat.lor m.2 bit) else m }).mileFlush
      h gr.block)
  else if bl.miles.length ≥ 4 then none
  else some ((s.setBlock h gr.block { bl with miles := bl.miles ++ [(id, bit)] }).mileFlush h gr.block)

/-- SIGA's increment: into a counter of the issuing hostel at once, of a peer over the caravan link; a rank with no
block kills the context with SEGMENT (R148). -/
def State.sigaStep (s : State) (h g rank k imm : Nat) : State :=
  let gr := s.group h g
  match s.rankBlock h gr.block rank with
  | none => s.hostelFault h g 0 cSEGMENT
  | some b =>
    let c := blockCtr (s.blockAt b.1 b.2) k
    if b.1 = h then s.setCtr h c (s.ctr h c + BitVec.ofNat 32 imm)
    else s.setGroup h g { gr with peer := gr.peer ++ [.sig b.1 c imm] }

/-- The arrival after the implied fence; a MILE that stalls keeps waiting. -/
def State.syncArrive (s : State) (h g : Nat) (op : SyncOp) : State :=
  match op with
  | .barb => s.updGroup h g fun gr => { gr with wait := .barb }
  | .barc => s.updGroup h g fun gr => { gr with wait := .barc }
  | .siga r k i => (s.updGroup h g fun gr => { gr with wait := .none }).sigaStep h g r k i
  | .mile id => match s.mileStep h g id with
    | some s' => s'.updGroup h g fun gr => { gr with wait := .none }
    | none => s.updGroup h g fun gr => { gr with wait := .fenceThen (.mile id) }

/-- An instruction with an implied fence: its arrival now, or after the group's accesses in flight (R201). -/
def State.fenced (s : State) (h g : Nat) (op : SyncOp) : State :=
  let s := s.updGroup h g Group.next
  if (s.group h g).peer.isEmpty then s.syncArrive h g op
  else s.updGroup h g fun gr => { gr with wait := .fenceThen op }

/-- BARB (R202): the group arrives after an implied fence. -/
def execBarb (h : BitVec 3) (g : BitVec 6) (w : W64) (s : State) : Res :=
  s.issue h.toNat g.toNat w ⟨0xD, 0⟩ fun s => s.groupWide h.toNat g.toNat cDIVERGENT_BARRIER fun s => .next (s.fenced h.toNat g.toNat .barb)

/-- BARC (R202). -/
def execBarc (h : BitVec 3) (g : BitVec 6) (w : W64) (s : State) : Res :=
  s.issue h.toNat g.toNat w ⟨0xD, 1⟩ fun s => s.groupWide h.toNat g.toNat cDIVERGENT_BARRIER fun s => .next (s.fenced h.toNat g.toNat .barc)

/-- FENCE (R201): the group waits for its earlier accesses; with none in flight it goes on. -/
def execFence (h : BitVec 3) (g : BitVec 6) (w : W64) (s : State) : Res :=
  s.issue h.toNat g.toNat w ⟨0xD, 2⟩ fun s =>
    .next (s.updGroup h.toNat g.toNat fun gr => { gr.next with wait := if gr.peer.isEmpty then .none else .fence })

/-- Wait for a counter of the group's own block. -/
def State.waitCtr (s : State) (h g : Nat) (w : W64) (v : W32) : State :=
  let gr := s.group h g
  let c := blockCtr (s.blockAt h gr.block) (hwK w)
  s.setGroup h g { gr.next with wait := if ctrReached (s.ctr h c) v then .none else .waita c v }

/-- WAITA.I (R201). -/
def execWaitaI (h : BitVec 3) (g : BitVec 6) (w : W64) (s : State) : Res :=
  s.issue h.toNat g.toNat w ⟨0xD, 3⟩ fun s => .next (s.waitCtr h.toNat g.toNat w (BitVec.ofNat 32 (hwImm24 w)))

/-- WAITA.R (R201, R185). -/
def execWaitaR (h : BitVec 3) (g : BitVec 6) (w : W64) (s : State) : Res :=
  s.issue h.toNat g.toNat w ⟨0xD, 4⟩ fun s =>
    let gr := s.group h.toNat g.toNat
    .next (s.waitCtr h.toNat g.toNat w (gr.groupOp gr.active (hwA w)))

/-- RDA (R201). -/
def execRda (h : BitVec 3) (g : BitVec 6) (w : W64) (s : State) : Res :=
  s.issue h.toNat g.toNat w ⟨0xD, 5⟩ fun s =>
    let gr := s.group h.toNat g.toNat
    let v := s.ctr h.toNat (blockCtr (s.blockAt h.toNat gr.block) (hwK w))
    .next (s.setGroup h.toNat g.toNat (gr.perLane gr.active fun acc l => acc.wv (hwD w) l v).next)

/-- SIGA (R201): the increment after an implied fence. -/
def execSiga (h : BitVec 3) (g : BitVec 6) (w : W64) (s : State) : Res :=
  s.issue h.toNat g.toNat w ⟨0xD, 6⟩ fun s =>
    match s.rankBlock h.toNat (s.group h.toNat g.toNat).block (hwSRank w) with
    | none => .next (s.hostelFault h.toNat g.toNat 0 cSEGMENT)
    | some _ => .next (s.fenced h.toNat g.toNat (.siga (hwSRank w) (hwK w) (hwImm24 w)))

/-- MILE (R203). -/
def execMile (h : BitVec 3) (g : BitVec 6) (w : W64) (s : State) : Res :=
  s.issue h.toNat g.toNat w ⟨0xD, 7⟩ fun s => .next (s.fenced h.toNat g.toNat (.mile (hwImm24 w % 65536)))

/-- FENCE_COMPLETE (R149): the group's earlier accesses have taken effect, and a waiting fence lets it go on. -/
def execFenceComplete (h : BitVec 3) (g : BitVec 6) (s : State) : Res :=
  let gr := s.group h.toNat g.toNat
  if !gr.peer.isEmpty || gr.stopped then .next s
  else match gr.wait with
    | .fence => .next (s.setGroup h.toNat g.toNat { gr with wait := .none })
    | .fenceThen op => .next (s.syncArrive h.toNat g.toNat op)
    | _ => .next s

/-- WAITA_RESUME (R201): a waiting group goes on once its counter has reached the value. -/
def execWaitaResume (h : BitVec 3) (g : BitVec 6) (s : State) : Res :=
  let gr := s.group h.toNat g.toNat
  match gr.wait with
  | .waita c v => if ctrReached (s.ctr h.toNat c) v then .next (s.setGroup h.toNat g.toNat { gr with wait := .none }) else .next s
  | _ => .next s

/-- The groups of a barrier's scope: the block, or every block of its cluster (R202). -/
def State.barScope (s : State) (h b : Nat) (cluster : Bool) : List (Nat × Nat) :=
  let bs := if cluster then s.clusterBlocks (s.blockAt h b) else [(h, b)]
  bs.flatMap fun k => (s.liveGroups k.1 k.2).map fun g => (k.1, g)

/-- The wait of a barrier. -/
def barWait (cluster : Bool) : GWait := if cluster then .barc else .barb

/-- BARRIER_RELEASE (R202): the waiting groups go on when the arrived groups equal the groups still live in the
scope. -/
def execBarrierRelease (h : BitVec 3) (b : BitVec 3) (cluster : Bool) (s : State) : Res :=
  let gs := s.barScope h.toNat b.toNat cluster
  if gs.all fun k => (s.group k.1 k.2).wait == barWait cluster then
    .next (gs.foldl (fun s k => s.updGroup k.1 k.2 fun gr => { gr with wait := .none }) s)
  else .next s

/-! ### Special registers (R186) -/

/-- The value of a special register in a lane. s_cycle is free (assumption 9). -/
def State.sreg (s : State) (h g l n : Nat) : Nat :=
  let gr := s.group h g
  let b := s.blockAt h gr.block
  match n with
  | 0x00 => l
  | 0x01 => g
  | 0x02 => gr.gidx
  | 0x03 => b.ngroups
  | 0x04 => b.rank
  | 0x05 => b.nblocks
  | 0x06 => h
  | 0x07 => gr.launch.toNat
  | 0x08 => gr.active.toNat
  | 0x09 => gr.live.toNat
  | 0x0A => gr.flags.toNat
  | 0x0B => b.size
  | 0x0C => b.ctrBase
  | 0x0D => b.blkid.toNat
  | 0x0E => b.chip.toNat
  | 0x0F => b.nchips.toNat
  | 0x10 => b.segBase.toNat
  | 0x12 => b.seed.toNat
  | 0x14 => b.step.toNat
  | _ => (Config.freeCycle s.free).toNat

/-- MOVS (R186): a 64-bit special register goes into the pair. -/
def execMovs (h : BitVec 3) (g : BitVec 6) (w : W64) (s : State) : Res :=
  s.issue h.toNat g.toNat w ⟨0xE, 0⟩ fun s =>
    let gr := s.group h.toNat g.toNat
    let n := hwA w
    let s' := if n = 0x16 then { s with free := s.free + 1 } else s
    .next (s'.setGroup h.toNat g.toNat (gr.perLane (execMask gr w) fun acc l =>
      acc.wvN (hwD w) l (if sregWide n then 2 else 1) (s.sreg h.toNat g.toNat l n)).next)

/-- WSR (R186): s_flags from the lowest active lane (R185); with no executing lane nothing is written. -/
def execWsr (h : BitVec 3) (g : BitVec 6) (w : W64) (s : State) : Res :=
  s.issue h.toNat g.toNat w ⟨0xE, 1⟩ fun s =>
    let gr := s.group h.toNat g.toNat
    match lowLane (execMask gr w) with
    | none => .next (s.setGroup h.toNat g.toNat gr.next)
    | some l => .next (s.setGroup h.toNat g.toNat { gr.next with flags := gr.rv (hwA w) l &&& 0x3F#32 })

end Sys2Proof.Machine
end

