-- ==== Sys2Proof/Machine/Regs.lean ====
section
/-!
DEFINITION. Sys2Proof/Machine/Regs.lean: writes of register fields without a row of their own (R13, R33, R455, R468, R497-R503), and
the elapsed-time counter (R454).
-/

namespace Sys2Proof.Machine

/-- Who may write a register (R455, R503): before ready the steward alone, and the L2's control registers never the host. -/
def State.mayWrite (s : State) (who : Writer) (off : Nat) : Bool :=
  who == .steward || (s.boot.ready && !(decide (0x10004 ≤ off) && decide (off < 0x10008)) && !(decide (0x1000C ≤ off) && decide (off < 0x10010)))

/-- Whether a write reaches a register of a block: 4 or 8 bytes from `off`. -/
def covers (off n r : Nat) : Bool := decide (off < r + 4) && decide (r < off + n)

/-- What a unit does on a write of a field that it reads at once: an Oxlux port whose ENABLE falls is disabled (R329), and a port that
is not enabled stays so (R468); a fence of an upper site is set or taken off (R384). -/
def State.unitWrites (s old : State) (off n : Nat) : State :=
  let s := if 0x1800000 ≤ off && off < 0x1A00000 then
      let x := (off - 0x1800000) / 0x20000
      let on := s.flag (OX.CTRL x) OX.CTRL_ENABLE
      if on = old.flag (OX.CTRL x) OX.CTRL_ENABLE then s
      else if !on then s.vserOff x
      else if !s.oxEnabled x then s.setFlag (OX.CTRL x) OX.CTRL_ENABLE false
      else s
    else s
  if 0x1C00000 ≤ off && off < 0x1D00000 then
    let u := (off - 0x1C00000) / 0x40000
    let f := s.flag (UP.CTRL u) UP.CTRL_FENCE
    if f = old.flag (UP.CTRL u) UP.CTRL_FENCE || !covers off n (UP.CTRL u) then s
    else if s.flag BRG.STATUS BRG.STATUS_PART_RESET_BUSY then s.setFlag (UP.CTRL u) UP.CTRL_FENCE (!f)
    else if f then s.fenceUpper u else s.unfenceUpper u
  else s

/-- REGISTER_WRITE: 4 bytes, or 8 when `wide`, at an offset. One that is not aligned is no register access (R497). -/
def execRegisterWrite (who : Writer) (off : BitVec 26) (wide : Bool) (v : BitVec 64) (s : State) : Res :=
  let n := if wide then 8 else 4
  let a := off.toNat
  if a % n ≠ 0 || !s.mayWrite who a then .next s
  else
    let t := (s.csrWrite a n v.toNat).unitWrites s a n
    let t := if 0x501000 ≤ a && a < 0x501400 then t.msixFlush else t
    .next (if covers a n CTU.FQ_CTRL || covers a n CTU.FQ_SIZE then t.fqDrain 65 else t)

/-- ETC_TICK (R454): an always-on cycle. -/
def execEtcTick (s : State) : Res := .next (s.bump ETC.VALUE 80)

/-- ETC_LOW_READ (R454). -/
def execEtcLowRead (s : State) : Res := .next (s.etcRead ETC.VALUE 4)

end Sys2Proof.Machine
end

