-- ==== Sys2Proof/Machine/Dispatch.lean ====
section
/-!
DEFINITION. Sys2Proof/Machine/Dispatch.lean: the effect of each command on everything but the queue, one arm for each
constructor.
-/

namespace Sys2Proof.Machine

open Sys2Proof

/-- A command's meaning. -/
def exec (i : Instr) (s : State) : Host.Outcome State Fault Refusal :=
  match i with
  | .powerGoodRise => Sys2Proof.Machine.execPowerGoodRise s
  | .powerGoodFall => Sys2Proof.Machine.execPowerGoodFall s
  | .resetNAssert => Sys2Proof.Machine.execResetNAssert s
  | .fuseReadDone rereads readable => Sys2Proof.Machine.execFuseReadDone rereads readable s
  | .sramSelfTestDone faults => Sys2Proof.Machine.execSramSelfTestDone faults s
  | .logicSelfTestDone failed ctuOk xrOk => Sys2Proof.Machine.execLogicSelfTestDone failed ctuOk xrOk s
  | .knownAnswerTestsDone ok => Sys2Proof.Machine.execKnownAnswerTestsDone ok s
  | .pcieLinkTrained link => Sys2Proof.Machine.execPcieLinkTrained link s
  | .siteTrainingDone site r => Sys2Proof.Machine.execSiteTrainingDone site r s
  | .ready => Sys2Proof.Machine.execReady s
  | .clockGateIdle d => Sys2Proof.Machine.execClockGateIdle d s
  | .clockWakeEnd d locked => Sys2Proof.Machine.execClockWakeEnd d locked s
  | .etcTick => Sys2Proof.Machine.execEtcTick s
  | .etcLowRead => Sys2Proof.Machine.execEtcLowRead s
  | .registerWrite who off wide v => Sys2Proof.Machine.execRegisterWrite who off wide v s
  | .timetableSlot east => Sys2Proof.Machine.execTimetableSlot east s
  | .scrubPassStart sl => Sys2Proof.Machine.execScrubPassStart sl s
  | .reduceCombine sl => Sys2Proof.Machine.execReduceCombine sl s
  | .reduceClose sl launch => Sys2Proof.Machine.execReduceClose sl launch s
  | .arm east => Sys2Proof.Machine.execArm east s
  | .ttCheckDone east => Sys2Proof.Machine.execTtCheckDone east s
  | .bankSwitch => Sys2Proof.Machine.execBankSwitch s
  | .runSet => Sys2Proof.Machine.execRunSet s
  | .runClear => Sys2Proof.Machine.execRunClear s
  | .seamHoldEnd east => Sys2Proof.Machine.execSeamHoldEnd east s
  | .realign => Sys2Proof.Machine.execRealign s
  | .meshHop router out => Sys2Proof.Machine.execMeshHop router out s
  | .legStart slot leg => Sys2Proof.Machine.execLegStart slot leg s
  | .timetableStage slot leg => Sys2Proof.Machine.execTimetableStage slot leg s
  | .dispatcherPush slot leg d => Sys2Proof.Machine.execDispatcherPush slot leg d s
  | .blockPlace slot leg first places => Sys2Proof.Machine.execBlockPlace slot leg first places s
  | .add h g w => Sys2Proof.Machine.execAdd h g w s
  | .sub h g w => Sys2Proof.Machine.execSub h g w s
  | .adds h g w => Sys2Proof.Machine.execAdds h g w s
  | .subs h g w => Sys2Proof.Machine.execSubs h g w s
  | .mul h g w => Sys2Proof.Machine.execMul h g w s
  | .mulhu h g w => Sys2Proof.Machine.execMulhu h g w s
  | .mulhs h g w => Sys2Proof.Machine.execMulhs h g w s
  | .mad h g w => Sys2Proof.Machine.execMad h g w s
  | .and h g w => Sys2Proof.Machine.execAnd h g w s
  | .or h g w => Sys2Proof.Machine.execOr h g w s
  | .xor h g w => Sys2Proof.Machine.execXor h g w s
  | .shl h g w => Sys2Proof.Machine.execShl h g w s
  | .shr h g w => Sys2Proof.Machine.execShr h g w s
  | .sra h g w => Sys2Proof.Machine.execSra h g w s
  | .min h g w => Sys2Proof.Machine.execMin h g w s
  | .max h g w => Sys2Proof.Machine.execMax h g w s
  | .minu h g w => Sys2Proof.Machine.execMinu h g w s
  | .maxu h g w => Sys2Proof.Machine.execMaxu h g w s
  | .clz h g w => Sys2Proof.Machine.execClz h g w s
  | .popc h g w => Sys2Proof.Machine.execPopc h g w s
  | .mov h g w => Sys2Proof.Machine.execMov h g w s
  | .sel h g w => Sys2Proof.Machine.execSel h g w s
  | .lread h g w => Sys2Proof.Machine.execLread h g w s
  | .icmp h g w => Sys2Proof.Machine.execIcmp h g w s
  | .icmpu h g w => Sys2Proof.Machine.execIcmpu h g w s
  | .fcmp h g w => Sys2Proof.Machine.execFcmp h g w s
  | .pand h g w => Sys2Proof.Machine.execPand h g w s
  | .por h g w => Sys2Proof.Machine.execPor h g w s
  | .pxor h g w => Sys2Proof.Machine.execPxor h g w s
  | .pnot h g w => Sys2Proof.Machine.execPnot h g w s
  | .pany h g w => Sys2Proof.Machine.execPany h g w s
  | .pall h g w => Sys2Proof.Machine.execPall h g w s
  | .pmask h g w => Sys2Proof.Machine.execPmask h g w s
  | .fadd h g w => Sys2Proof.Machine.execFadd h g w s
  | .fsub h g w => Sys2Proof.Machine.execFsub h g w s
  | .fmul h g w => Sys2Proof.Machine.execFmul h g w s
  | .ffma h g w => Sys2Proof.Machine.execFfma h g w s
  | .fmin h g w => Sys2Proof.Machine.execFmin h g w s
  | .fmax h g w => Sys2Proof.Machine.execFmax h g w s
  | .fabs h g w => Sys2Proof.Machine.execFabs h g w s
  | .fneg h g w => Sys2Proof.Machine.execFneg h g w s
  | .fcpys h g w => Sys2Proof.Machine.execFcpys h g w s
  | .fdiv h g w => Sys2Proof.Machine.execFdiv h g w s
  | .fsqrt h g w => Sys2Proof.Machine.execFsqrt h g w s
  | .frcp h g w => Sys2Proof.Machine.execFrcp h g w s
  | .frsq h g w => Sys2Proof.Machine.execFrsq h g w s
  | .fex2 h g w => Sys2Proof.Machine.execFex2 h g w s
  | .flg2 h g w => Sys2Proof.Machine.execFlg2 h g w s
  | .divu h g w => Sys2Proof.Machine.execDivu h g w s
  | .divs h g w => Sys2Proof.Machine.execDivs h g w s
  | .remu h g w => Sys2Proof.Machine.execRemu h g w s
  | .rems h g w => Sys2Proof.Machine.execRems h g w s
  | .cvtBf16F32 h g w => Sys2Proof.Machine.execCvtBf16F32 h g w s
  | .cvtF16F32 h g w => Sys2Proof.Machine.execCvtF16F32 h g w s
  | .cvtE4m3F32 h g w => Sys2Proof.Machine.execCvtE4m3F32 h g w s
  | .cvtE5m2F32 h g w => Sys2Proof.Machine.execCvtE5m2F32 h g w s
  | .cvtF32Bf16 h g w => Sys2Proof.Machine.execCvtF32Bf16 h g w s
  | .cvtF32F16 h g w => Sys2Proof.Machine.execCvtF32F16 h g w s
  | .cvtF32E4m3 h g w => Sys2Proof.Machine.execCvtF32E4m3 h g w s
  | .cvtF32E5m2 h g w => Sys2Proof.Machine.execCvtF32E5m2 h g w s
  | .cvtS32F32 h g w => Sys2Proof.Machine.execCvtS32F32 h g w s
  | .cvtU32F32 h g w => Sys2Proof.Machine.execCvtU32F32 h g w s
  | .cvtF32S32 h g w => Sys2Proof.Machine.execCvtF32S32 h g w s
  | .cvtF32U32 h g w => Sys2Proof.Machine.execCvtF32U32 h g w s
  | .qmxE2m1 h g w => Sys2Proof.Machine.execQmxE2m1 h g w s
  | .qmxE2m3 h g w => Sys2Proof.Machine.execQmxE2m3 h g w s
  | .qmxE3m2 h g w => Sys2Proof.Machine.execQmxE3m2 h g w s
  | .dqmx h g w => Sys2Proof.Machine.execDqmx h g w s
  | .tcvi h g w => Sys2Proof.Machine.execTcvi h g w s
  | .tadd h g w => Sys2Proof.Machine.execTadd h g w s
  | .tcvo h g w => Sys2Proof.Machine.execTcvo h g w s
  | .tneg h g w => Sys2Proof.Machine.execTneg h g w s
  | .tinv h g w => Sys2Proof.Machine.execTinv h g w s
  | .ldU8 h g w => Sys2Proof.Machine.execLdU8 h g w s
  | .ldS8 h g w => Sys2Proof.Machine.execLdS8 h g w s
  | .ldU16 h g w => Sys2Proof.Machine.execLdU16 h g w s
  | .ldS16 h g w => Sys2Proof.Machine.execLdS16 h g w s
  | .ld32 h g w => Sys2Proof.Machine.execLd32 h g w s
  | .ld64 h g w => Sys2Proof.Machine.execLd64 h g w s
  | .ld128 h g w => Sys2Proof.Machine.execLd128 h g w s
  | .st8 h g w => Sys2Proof.Machine.execSt8 h g w s
  | .st16 h g w => Sys2Proof.Machine.execSt16 h g w s
  | .st32 h g w => Sys2Proof.Machine.execSt32 h g w s
  | .st64 h g w => Sys2Proof.Machine.execSt64 h g w s
  | .st128 h g w => Sys2Proof.Machine.execSt128 h g w s
  | .atomAdd h g w => Sys2Proof.Machine.execAtomAdd h g w s
  | .atomMin h g w => Sys2Proof.Machine.execAtomMin h g w s
  | .atomMax h g w => Sys2Proof.Machine.execAtomMax h g w s
  | .atomMinu h g w => Sys2Proof.Machine.execAtomMinu h g w s
  | .atomMaxu h g w => Sys2Proof.Machine.execAtomMaxu h g w s
  | .atomAnd h g w => Sys2Proof.Machine.execAtomAnd h g w s
  | .atomOr h g w => Sys2Proof.Machine.execAtomOr h g w s
  | .atomXor h g w => Sys2Proof.Machine.execAtomXor h g w s
  | .atomExch h g w => Sys2Proof.Machine.execAtomExch h g w s
  | .atomCas h g w => Sys2Proof.Machine.execAtomCas h g w s
  | .atomFadd h g w => Sys2Proof.Machine.execAtomFadd h g w s
  | .atomTadd h g w => Sys2Proof.Machine.execAtomTadd h g w s
  | .acq h g w => Sys2Proof.Machine.execAcq h g w s
  | .rel h g w => Sys2Proof.Machine.execRel h g w s
  | .tld h g w => Sys2Proof.Machine.execTld h g w s
  | .tst h g w => Sys2Proof.Machine.execTst h g w s
  | .tmov h g w => Sys2Proof.Machine.execTmov h g w s
  | .tzero h g w => Sys2Proof.Machine.execTzero h g w s
  | .trd h g w => Sys2Proof.Machine.execTrd h g w s
  | .twr h g w => Sys2Proof.Machine.execTwr h g w s
  | .mdot h g w => Sys2Proof.Machine.execMdot h g w s
  | .lfma h g w => Sys2Proof.Machine.execLfma h g w s
  | .lscale h g w => Sys2Proof.Machine.execLscale h g w s
  | .lmul h g w => Sys2Proof.Machine.execLmul h g w s
  | .ladd h g w => Sys2Proof.Machine.execLadd h g w s
  | .lsub h g w => Sys2Proof.Machine.execLsub h g w s
  | .lmax h g w => Sys2Proof.Machine.execLmax h g w s
  | .lmin h g w => Sys2Proof.Machine.execLmin h g w s
  | .arrayStart h => Sys2Proof.Machine.execArrayStart h s
  | .bra h g w => Sys2Proof.Machine.execBra h g w s
  | .brc h g w => Sys2Proof.Machine.execBrc h g w s
  | .brx h g w => Sys2Proof.Machine.execBrx h g w s
  | .call h g w => Sys2Proof.Machine.execCall h g w s
  | .callx h g w => Sys2Proof.Machine.execCallx h g w s
  | .ret h g w => Sys2Proof.Machine.execRet h g w s
  | .exit h g w => Sys2Proof.Machine.execExit h g w s
  | .nop h g w => Sys2Proof.Machine.execNop h g w s
  | .rejoin h g => Sys2Proof.Machine.execRejoin h g s
  | .barb h g w => Sys2Proof.Machine.execBarb h g w s
  | .barc h g w => Sys2Proof.Machine.execBarc h g w s
  | .barrierRelease h b cluster => Sys2Proof.Machine.execBarrierRelease h b cluster s
  | .fence h g w => Sys2Proof.Machine.execFence h g w s
  | .fenceComplete h g => Sys2Proof.Machine.execFenceComplete h g s
  | .peerAccessDone h g target => Sys2Proof.Machine.execPeerAccessDone h g target s
  | .waitaI h g w => Sys2Proof.Machine.execWaitaI h g w s
  | .waitaR h g w => Sys2Proof.Machine.execWaitaR h g w s
  | .waitaResume h g => Sys2Proof.Machine.execWaitaResume h g s
  | .rda h g w => Sys2Proof.Machine.execRda h g w s
  | .siga h g w => Sys2Proof.Machine.execSiga h g w s
  | .mile h g w => Sys2Proof.Machine.execMile h g w s
  | .movs h g w => Sys2Proof.Machine.execMovs h g w s
  | .wsr h g w => Sys2Proof.Machine.execWsr h g w s
  | .killComplete slot => Sys2Proof.Machine.execKillComplete slot s
  | .porAdd c w => Sys2Proof.Machine.execPorAdd c w s
  | .porSub c w => Sys2Proof.Machine.execPorSub c w s
  | .porAnd c w => Sys2Proof.Machine.execPorAnd c w s
  | .porOr c w => Sys2Proof.Machine.execPorOr c w s
  | .porXor c w => Sys2Proof.Machine.execPorXor c w s
  | .porShl c w => Sys2Proof.Machine.execPorShl c w s
  | .porShr c w => Sys2Proof.Machine.execPorShr c w s
  | .porSra c w => Sys2Proof.Machine.execPorSra c w s
  | .porSlt c w => Sys2Proof.Machine.execPorSlt c w s
  | .porSltu c w => Sys2Proof.Machine.execPorSltu c w s
  | .porMul c w => Sys2Proof.Machine.execPorMul c w s
  | .porMulhu c w => Sys2Proof.Machine.execPorMulhu c w s
  | .porMulhs c w => Sys2Proof.Machine.execPorMulhs c w s
  | .porMulw c w => Sys2Proof.Machine.execPorMulw c w s
  | .porMin c w => Sys2Proof.Machine.execPorMin c w s
  | .porMax c w => Sys2Proof.Machine.execPorMax c w s
  | .porMinu c w => Sys2Proof.Machine.execPorMinu c w s
  | .porMaxu c w => Sys2Proof.Machine.execPorMaxu c w s
  | .porDivu c w => Sys2Proof.Machine.execPorDivu c w s
  | .porDivs c w => Sys2Proof.Machine.execPorDivs c w s
  | .porRemu c w => Sys2Proof.Machine.execPorRemu c w s
  | .porRems c w => Sys2Proof.Machine.execPorRems c w s
  | .porClz c w => Sys2Proof.Machine.execPorClz c w s
  | .porPopc c w => Sys2Proof.Machine.execPorPopc c w s
  | .porAddp c w => Sys2Proof.Machine.execPorAddp c w s
  | .porSubp c w => Sys2Proof.Machine.execPorSubp c w s
  | .porAddi c w => Sys2Proof.Machine.execPorAddi c w s
  | .porAndi c w => Sys2Proof.Machine.execPorAndi c w s
  | .porOri c w => Sys2Proof.Machine.execPorOri c w s
  | .porXori c w => Sys2Proof.Machine.execPorXori c w s
  | .porSlti c w => Sys2Proof.Machine.execPorSlti c w s
  | .porSltiu c w => Sys2Proof.Machine.execPorSltiu c w s
  | .porShli c w => Sys2Proof.Machine.execPorShli c w s
  | .porShri c w => Sys2Proof.Machine.execPorShri c w s
  | .porSrai c w => Sys2Proof.Machine.execPorSrai c w s
  | .porLui c w => Sys2Proof.Machine.execPorLui c w s
  | .porAddpi c w => Sys2Proof.Machine.execPorAddpi c w s
  | .porLdB c w => Sys2Proof.Machine.execPorLdB c w s
  | .porLdBu c w => Sys2Proof.Machine.execPorLdBu c w s
  | .porLdH c w => Sys2Proof.Machine.execPorLdH c w s
  | .porLdHu c w => Sys2Proof.Machine.execPorLdHu c w s
  | .porLdW c w => Sys2Proof.Machine.execPorLdW c w s
  | .porLdD c w => Sys2Proof.Machine.execPorLdD c w s
  | .porLdf c w => Sys2Proof.Machine.execPorLdf c w s
  | .porStB c w => Sys2Proof.Machine.execPorStB c w s
  | .porStH c w => Sys2Proof.Machine.execPorStH c w s
  | .porStW c w => Sys2Proof.Machine.execPorStW c w s
  | .porStD c w => Sys2Proof.Machine.execPorStD c w s
  | .porStf c w => Sys2Proof.Machine.execPorStf c w s
  | .porBeq c w => Sys2Proof.Machine.execPorBeq c w s
  | .porBne c w => Sys2Proof.Machine.execPorBne c w s
  | .porBlt c w => Sys2Proof.Machine.execPorBlt c w s
  | .porBge c w => Sys2Proof.Machine.execPorBge c w s
  | .porBltu c w => Sys2Proof.Machine.execPorBltu c w s
  | .porBgeu c w => Sys2Proof.Machine.execPorBgeu c w s
  | .porJal c w => Sys2Proof.Machine.execPorJal c w s
  | .porJalr c w => Sys2Proof.Machine.execPorJalr c w s
  | .porFadd c w => Sys2Proof.Machine.execPorFadd c w s
  | .porFsub c w => Sys2Proof.Machine.execPorFsub c w s
  | .porFmul c w => Sys2Proof.Machine.execPorFmul c w s
  | .porFfma c w => Sys2Proof.Machine.execPorFfma c w s
  | .porFmin c w => Sys2Proof.Machine.execPorFmin c w s
  | .porFmax c w => Sys2Proof.Machine.execPorFmax c w s
  | .porFdiv c w => Sys2Proof.Machine.execPorFdiv c w s
  | .porFsqrt c w => Sys2Proof.Machine.execPorFsqrt c w s
  | .porFabs c w => Sys2Proof.Machine.execPorFabs c w s
  | .porFneg c w => Sys2Proof.Machine.execPorFneg c w s
  | .porFeq c w => Sys2Proof.Machine.execPorFeq c w s
  | .porFlt c w => Sys2Proof.Machine.execPorFlt c w s
  | .porFle c w => Sys2Proof.Machine.execPorFle c w s
  | .porFmvG c w => Sys2Proof.Machine.execPorFmvG c w s
  | .porFmvF c w => Sys2Proof.Machine.execPorFmvF c w s
  | .porCvtBf16F32 c w => Sys2Proof.Machine.execPorCvtBf16F32 c w s
  | .porCvtF32Bf16 c w => Sys2Proof.Machine.execPorCvtF32Bf16 c w s
  | .porCvtE4m3F32 c w => Sys2Proof.Machine.execPorCvtE4m3F32 c w s
  | .porCvtE5m2F32 c w => Sys2Proof.Machine.execPorCvtE5m2F32 c w s
  | .porCvtF32E4m3 c w => Sys2Proof.Machine.execPorCvtF32E4m3 c w s
  | .porCvtF32E5m2 c w => Sys2Proof.Machine.execPorCvtF32E5m2 c w s
  | .porCvtS32F32 c w => Sys2Proof.Machine.execPorCvtS32F32 c w s
  | .porCvtS32F32Rz c w => Sys2Proof.Machine.execPorCvtS32F32Rz c w s
  | .porCvtF32S32 c w => Sys2Proof.Machine.execPorCvtF32S32 c w s
  | .porMxscE2m1 c w => Sys2Proof.Machine.execPorMxscE2m1 c w s
  | .porMxscE2m3 c w => Sys2Proof.Machine.execPorMxscE2m3 c w s
  | .porMxscE3m2 c w => Sys2Proof.Machine.execPorMxscE3m2 c w s
  | .porMxqE2m1 c w => Sys2Proof.Machine.execPorMxqE2m1 c w s
  | .porMxqE2m3 c w => Sys2Proof.Machine.execPorMxqE2m3 c w s
  | .porMxqE3m2 c w => Sys2Proof.Machine.execPorMxqE3m2 c w s
  | .porMxdE2m1 c w => Sys2Proof.Machine.execPorMxdE2m1 c w s
  | .porMxdE2m3 c w => Sys2Proof.Machine.execPorMxdE2m3 c w s
  | .porMxdE3m2 c w => Sys2Proof.Machine.execPorMxdE3m2 c w s
  | .porTcvi c w => Sys2Proof.Machine.execPorTcvi c w s
  | .porTcvo c w => Sys2Proof.Machine.execPorTcvo c w s
  | .porTaddm c w => Sys2Proof.Machine.execPorTaddm c w s
  | .porCrcw c w => Sys2Proof.Machine.execPorCrcw c w s
  | .porFld c w => Sys2Proof.Machine.execPorFld c w s
  | .porFst c w => Sys2Proof.Machine.execPorFst c w s
  | .porFget c w => Sys2Proof.Machine.execPorFget c w s
  | .porFput c w => Sys2Proof.Machine.execPorFput c w s
  | .porFred c w => Sys2Proof.Machine.execPorFred c w s
  | .porTaud c w => Sys2Proof.Machine.execPorTaud c w s
  | .porGput c w => Sys2Proof.Machine.execPorGput c w s
  | .porGadd c w => Sys2Proof.Machine.execPorGadd c w s
  | .porWaitq c w => Sys2Proof.Machine.execPorWaitq c w s
  | .waitqResume c => Sys2Proof.Machine.execWaitqResume c s
  | .porWaitw c w => Sys2Proof.Machine.execPorWaitw c w s
  | .waitwResume c => Sys2Proof.Machine.execWaitwResume c s
  | .porMile c w => Sys2Proof.Machine.execPorMile c w s
  | .porExit c w => Sys2Proof.Machine.execPorExit c w s
  | .porMovs c w => Sys2Proof.Machine.execPorMovs c w s
  | .porWsr c w => Sys2Proof.Machine.execPorWsr c w s
  | .translationStopRequest east k => Sys2Proof.Machine.execTranslationStopRequest east k s
  | .edgePortNoSlot east k => Sys2Proof.Machine.execEdgePortNoSlot east k s
  | .farResponse n => Sys2Proof.Machine.execFarResponse n s
  | .gridWrite n => Sys2Proof.Machine.execGridWrite n s
  | .gridAdd n => Sys2Proof.Machine.execGridAdd n s
  | .tileAudit sl => Sys2Proof.Machine.execTileAudit sl s
  | .start n => Sys2Proof.Machine.execStart n s
  | .kill n => Sys2Proof.Machine.execKill n s
  | .loadBegin n => Sys2Proof.Machine.execLoadBegin n s
  | .load n => Sys2Proof.Machine.execLoad n s
  | .loadCheck n => Sys2Proof.Machine.execLoadCheck n s
  | .imageBad => Sys2Proof.Machine.execImageBad s
  | .startRefused => Sys2Proof.Machine.execStartRefused s
  | .done => Sys2Proof.Machine.execDone s
  | .killed => Sys2Proof.Machine.execKilled s
  | .porterFence n => Sys2Proof.Machine.execPorterFence n s
  | .porterUnfence n => Sys2Proof.Machine.execPorterUnfence n s
  | .porterPowerOff n => Sys2Proof.Machine.execPorterPowerOff n s
  | .porterPowerOn n => Sys2Proof.Machine.execPorterPowerOn n s
  | .porterIslandReady n => Sys2Proof.Machine.execPorterIslandReady n s
  | .csrr c w => Sys2Proof.Machine.execCsrr c w s
  | .csrw c w => Sys2Proof.Machine.execCsrw c w s
  | .eret c w => Sys2Proof.Machine.execEret c w s
  | .wfi c w => Sys2Proof.Machine.execWfi c w s
  | .cmoClean c w => Sys2Proof.Machine.execCmoClean c w s
  | .cmoInval c w => Sys2Proof.Machine.execCmoInval c w s
  | .cmoFlush c w => Sys2Proof.Machine.execCmoFlush c w s
  | .cmoZl c w => Sys2Proof.Machine.execCmoZl c w s
  | .sync c w => Sys2Proof.Machine.execSync c w s
  | .iinv c w => Sys2Proof.Machine.execIinv c w s
  | .l2FillDone line => Sys2Proof.Machine.execL2FillDone line s
  | .evictionWrite => Sys2Proof.Machine.execEvictionWrite s
  | .cleanAll => Sys2Proof.Machine.execCleanAll s
  | .flushAll => Sys2Proof.Machine.execFlushAll s
  | .invalAll => Sys2Proof.Machine.execInvalAll s
  | .push c ch who => Sys2Proof.Machine.execPush c ch who s
  | .channelAbort c ch => Sys2Proof.Machine.execChannelAbort c ch s
  | .copy c ch => Sys2Proof.Machine.execCopy c ch s
  | .convert c ch => Sys2Proof.Machine.execConvert c ch s
  | .reduce c ch => Sys2Proof.Machine.execReduce c ch s
  | .courierAdd c ch => Sys2Proof.Machine.execCourierAdd c ch s
  | .discard c ch => Sys2Proof.Machine.execDiscard c ch s
  | .hash c ch => Sys2Proof.Machine.execHash c ch s
  | .watch c ch => Sys2Proof.Machine.execWatch c ch s
  | .tileResume c ch => Sys2Proof.Machine.execTileResume c ch s
  | .tileLanded c ch => Sys2Proof.Machine.execTileLanded c ch s
  | .arrivalVisible c ch => Sys2Proof.Machine.execArrivalVisible c ch s
  | .provenanceRecordWrite c ch => Sys2Proof.Machine.execProvenanceRecordWrite c ch s
  | .ctuLookup port => Sys2Proof.Machine.execCtuLookup port s
  | .walkStart => Sys2Proof.Machine.execWalkStart s
  | .walkStepDone wk => Sys2Proof.Machine.execWalkStepDone wk s
  | .faultMergeEnd k => Sys2Proof.Machine.execFaultMergeEnd k s
  | .faultQueueConsume v => Sys2Proof.Machine.execFaultQueueConsume v s
  | .fqWriteErrorClear => Sys2Proof.Machine.execFqWriteErrorClear s
  | .resolveRetry idx => Sys2Proof.Machine.execResolveRetry idx s
  | .resolveAbort idx => Sys2Proof.Machine.execResolveAbort idx s
  | .invalidate ast => Sys2Proof.Machine.execInvalidate ast s
  | .invalidationDone => Sys2Proof.Machine.execInvalidationDone s
  | .stallReplayWrite on => Sys2Proof.Machine.execStallReplayWrite on s
  | .scheduledCommand site => Sys2Proof.Machine.execScheduledCommand site s
  | .meshRequest site => Sys2Proof.Machine.execMeshRequest site s
  | .meshRequestIssue site => Sys2Proof.Machine.execMeshRequestIssue site s
  | .memorySideAdd site => Sys2Proof.Machine.execMemorySideAdd site s
  | .refreshWindow site unit => Sys2Proof.Machine.execRefreshWindow site unit s
  | .mr4Read port code beyond => Sys2Proof.Machine.execMr4Read port code beyond s
  | .memScrub site => Sys2Proof.Machine.execMemScrub site s
  | .repairReq site off => Sys2Proof.Machine.execRepairReq site off s
  | .repairInterval site ok => Sys2Proof.Machine.execRepairInterval site ok s
  | .siteFence site => Sys2Proof.Machine.execSiteFence site s
  | .siteUnfence site => Sys2Proof.Machine.execSiteUnfence site s
  | .siteRetrain site => Sys2Proof.Machine.execSiteRetrain site s
  | .siteRetrainDone site lat bound => Sys2Proof.Machine.execSiteRetrainDone site lat bound s
  | .marginSweep site => Sys2Proof.Machine.execMarginSweep site s
  | .marginSweepDone site low high => Sys2Proof.Machine.execMarginSweepDone site low high s
  | .linkDetect x d => Sys2Proof.Machine.execLinkDetect x d s
  | .linkEqualiseDone x => Sys2Proof.Machine.execLinkEqualiseDone x s
  | .linkLockDone x locked => Sys2Proof.Machine.execLinkLockDone x locked s
  | .trainingAttemptTimeout x => Sys2Proof.Machine.execTrainingAttemptTimeout x s
  | .identity x serial port node flight => Sys2Proof.Machine.execIdentity x serial port node flight s
  | .autoRetrain x => Sys2Proof.Machine.execAutoRetrain x s
  | .linkRetrain x => Sys2Proof.Machine.execLinkRetrain x s
  | .portDisable x => Sys2Proof.Machine.execPortDisable x s
  | .portFence x => Sys2Proof.Machine.execPortFence x s
  | .portUnfence x => Sys2Proof.Machine.execPortUnfence x s
  | .testStart x v => Sys2Proof.Machine.execTestStart x v s
  | .testEnd x => Sys2Proof.Machine.execTestEnd x s
  | .checkerEnable x lane => Sys2Proof.Machine.execCheckerEnable x lane s
  | .frameSend x => Sys2Proof.Machine.execFrameSend x s
  | .frameReceive x f => Sys2Proof.Machine.execFrameReceive x f s
  | .nak x seq => Sys2Proof.Machine.execNak x seq s
  | .retryTimeout x => Sys2Proof.Machine.execRetryTimeout x s
  | .patienceExpired x vc => Sys2Proof.Machine.execPatienceExpired x vc s
  | .linkFailed x => Sys2Proof.Machine.execLinkFailed x s
  | .oxluxRead x => Sys2Proof.Machine.execOxluxRead x s
  | .oxluxWrite x => Sys2Proof.Machine.execOxluxWrite x s
  | .oxluxAdd x => Sys2Proof.Machine.execOxluxAdd x s
  | .oxluxReduce x => Sys2Proof.Machine.execOxluxReduce x s
  | .oxluxReadResp x => Sys2Proof.Machine.execOxluxReadResp x s
  | .oxluxAck x => Sys2Proof.Machine.execOxluxAck x s
  | .inboundNoSlot x => Sys2Proof.Machine.execInboundNoSlot x s
  | .arrive x => Sys2Proof.Machine.execArrive x s
  | .release x => Sys2Proof.Machine.execRelease x s
  | .thermalNotice x => Sys2Proof.Machine.execThermalNotice x s
  | .healthNotice x => Sys2Proof.Machine.execHealthNotice x s
  | .nodeIdWrite v => Sys2Proof.Machine.execNodeIdWrite v s
  | .upRead u p flit => Sys2Proof.Machine.execUpRead u p flit s
  | .upWrite u p flit => Sys2Proof.Machine.execUpWrite u p flit s
  | .upWriteBeat u p flit => Sys2Proof.Machine.execUpWriteBeat u p flit s
  | .upNoSlot u p write tag => Sys2Proof.Machine.execUpNoSlot u p write tag s
  | .writeBeatsTimeout u p tag => Sys2Proof.Machine.execWriteBeatsTimeout u p tag s
  | .resetRelease u => Sys2Proof.Machine.execResetRelease u s
  | .ident u msg => Sys2Proof.Machine.execIdent u msg s
  | .identTimeout u => Sys2Proof.Machine.execIdentTimeout u s
  | .trainResult u msg groups => Sys2Proof.Machine.execTrainResult u msg groups s
  | .vset u msg => Sys2Proof.Machine.execVset u msg s
  | .thermal u msg => Sys2Proof.Machine.execThermal u msg s
  | .dieThermalTimeout u => Sys2Proof.Machine.execDieThermalTimeout u s
  | .error u msg => Sys2Proof.Machine.execError u msg s
  | .upPortRetrain u mask => Sys2Proof.Machine.execUpPortRetrain u mask s
  | .upperSiteFence u => Sys2Proof.Machine.execUpperSiteFence u s
  | .upperSiteReset u => Sys2Proof.Machine.execUpperSiteReset u s
  | .upSeal u => Sys2Proof.Machine.execUpSeal u s
  | .thermalSample readings => Sys2Proof.Machine.execThermalSample readings s
  | .sensorSelfCheck pass => Sys2Proof.Machine.execSensorSelfCheck pass s
  | .throttleApply => Sys2Proof.Machine.execThrottleApply s
  | .currentLimitUpdate u => Sys2Proof.Machine.execCurrentLimitUpdate u s
  | .siteSwitchOff u => Sys2Proof.Machine.execSiteSwitchOff u s
  | .deferTimeout z => Sys2Proof.Machine.execDeferTimeout z s
  | .budgetWindow baseW upW => Sys2Proof.Machine.execBudgetWindow baseW upW s
  | .avsStep r up => Sys2Proof.Machine.execAvsStep r up s
  | .phaseChange r amps => Sys2Proof.Machine.execPhaseChange r amps s
  | .shutdownDeadline => Sys2Proof.Machine.execShutdownDeadline s
  | .ptSeal => Sys2Proof.Machine.execPtSeal s
  | .fixedDispatchWrite on => Sys2Proof.Machine.execFixedDispatchWrite on s
  | .go slot => Sys2Proof.Machine.execGo slot s
  | .launchCheckDone slot => Sys2Proof.Machine.execLaunchCheckDone slot s
  | .launchAbort slot => Sys2Proof.Machine.execLaunchAbort slot s
  | .slotRelease slot => Sys2Proof.Machine.execSlotRelease slot s
  | .hostRelease v => Sys2Proof.Machine.execHostRelease v s
  | .milestoneArrival => Sys2Proof.Machine.execMilestoneArrival s
  | .milestonePatience slot id => Sys2Proof.Machine.execMilestonePatience slot id s
  | .legWatchdog slot leg => Sys2Proof.Machine.execLegWatchdog slot leg s
  | .stepEnd slot => Sys2Proof.Machine.execStepEnd slot s
  | .configRequest write reg v => Sys2Proof.Machine.execConfigRequest write reg v s
  | .bar2Read off len => Sys2Proof.Machine.execBar2Read off len s
  | .bar2Write off data => Sys2Proof.Machine.execBar2Write off data s
  | .bar2WindowWrite v => Sys2Proof.Machine.execBar2WindowWrite v s
  | .hostCompletion tag ok data => Sys2Proof.Machine.execHostCompletion tag ok data s
  | .completionTimeout tag => Sys2Proof.Machine.execCompletionTimeout tag s
  | .functionLevelReset => Sys2Proof.Machine.execFunctionLevelReset s
  | .hotReset => Sys2Proof.Machine.execHotReset s
  | .pcieLinkDown => Sys2Proof.Machine.execPcieLinkDown s
  | .d3hotEntry => Sys2Proof.Machine.execD3hotEntry s
  | .submit => Sys2Proof.Machine.execSubmit s
  | .licence ec lms => Sys2Proof.Machine.execLicence ec lms s
  | .runtimeFirmware ec lms => Sys2Proof.Machine.execRuntimeFirmware ec lms s
  | .enterService => Sys2Proof.Machine.execEnterService s
  | .porterServiceFirmware ec lms => Sys2Proof.Machine.execPorterServiceFirmware ec lms s
  | .debugUnlockToken ec lms blown => Sys2Proof.Machine.execDebugUnlockToken ec lms blown s
  | .raiseSvnFloor ec lms => Sys2Proof.Machine.execRaiseSvnFloor ec lms s
  | .revokeSigner ec lms => Sys2Proof.Machine.execRevokeSigner ec lms s
  | .keyLoadRecord keys => Sys2Proof.Machine.execKeyLoadRecord keys s
  | .newNonce v => Sys2Proof.Machine.execNewNonce v s
  | .attest ecSig hssSig cert => Sys2Proof.Machine.execAttest ecSig hssSig cert s
  | .fuseGenProg v => Sys2Proof.Machine.execFuseGenProg v s
  | .hardRepair => Sys2Proof.Machine.execHardRepair s
  | .hardRepairDone ok => Sys2Proof.Machine.execHardRepairDone ok s
  | .partReset => Sys2Proof.Machine.execPartReset s
  | .partResetDone => Sys2Proof.Machine.execPartResetDone s
  | .hostelFence h => Sys2Proof.Machine.execHostelFence h s
  | .hostelUnfence h => Sys2Proof.Machine.execHostelUnfence h s
  | .guestbookCommit => Sys2Proof.Machine.execGuestbookCommit s
  | .find t => Sys2Proof.Machine.execFind t s
  | .findDone => Sys2Proof.Machine.execFindDone s
  | .retainClear => Sys2Proof.Machine.execRetainClear s
  | .detectTimeout x => Sys2Proof.Machine.execDetectTimeout x s
  | .lossOfSignal x lane lost => Sys2Proof.Machine.execLossOfSignal x lane lost s
  | .lossOfLock x lane lost => Sys2Proof.Machine.execLossOfLock x lane lost s
  | .alarmNChange u low => Sys2Proof.Machine.execAlarmNChange u low s
  | .fuseSupplyChange present => Sys2Proof.Machine.execFuseSupplyChange present s
  | .vaonFall => Sys2Proof.Machine.execVaonFall s
  | .railInRegulation r mv => Sys2Proof.Machine.execRailInRegulation r mv s
  | .currentLimitReached u limiting => Sys2Proof.Machine.execCurrentLimitReached u limiting s
  | .submissionRefused ec lms keys => Sys2Proof.Machine.execSubmissionRefused ec lms keys s
  | .reservedOpcPacket x => Sys2Proof.Machine.execReservedOpcPacket x s
  | .unlistedSidebandMessage u msg => Sys2Proof.Machine.execUnlistedSidebandMessage u msg s
  | .interfacePortAccess n => Sys2Proof.Machine.execInterfacePortAccess n s
  | .wakeInterrupt k => Sys2Proof.Machine.execWakeInterrupt k s
  | .bar0MisalignedAccess off len write => Sys2Proof.Machine.execBar0MisalignedAccess off len write s

end Sys2Proof.Machine
end

