-- ==== Sys2Proof/WellFormed.lean ====
section
/-!
DEFINITION. Sys2Proof/WellFormed.lean: which commands name things that exist. A command of the hostel or the porter set is well formed
when its word is a word of its row, or no legal word at all; any other command when its operands name units that the device has and
carry lists of the lengths that the manual gives.
-/

namespace Sys2Proof

open Sys2Proof.Machine

/-! ### The rows that carry an instruction word -/

/-- An instruction of a hostel (R181): the hostel, the group slot, the word, and the row that the command stands for. -/
structure HosCmd where
  h : BitVec 3
  g : BitVec 6
  w : W64
  op : HOp
  deriving DecidableEq, Repr

/-- An instruction of the porter set (R213): the core, the word, and the row that the command stands for. -/
structure PorCmd where
  c : CoreRef
  w : W32
  op : POp
  deriving DecidableEq, Repr

/-- The hostel rows, with class and function of Tables 6.5 to 6.17. -/
def Instr.hostel : Instr → Option HosCmd
  | .add h g w => some ⟨h, g, w, ⟨0x0, 0x00⟩⟩
  | .sub h g w => some ⟨h, g, w, ⟨0x0, 0x01⟩⟩
  | .adds h g w => some ⟨h, g, w, ⟨0x0, 0x02⟩⟩
  | .subs h g w => some ⟨h, g, w, ⟨0x0, 0x03⟩⟩
  | .mul h g w => some ⟨h, g, w, ⟨0x0, 0x04⟩⟩
  | .mulhu h g w => some ⟨h, g, w, ⟨0x0, 0x05⟩⟩
  | .mulhs h g w => some ⟨h, g, w, ⟨0x0, 0x06⟩⟩
  | .mad h g w => some ⟨h, g, w, ⟨0x0, 0x07⟩⟩
  | .and h g w => some ⟨h, g, w, ⟨0x0, 0x08⟩⟩
  | .or h g w => some ⟨h, g, w, ⟨0x0, 0x09⟩⟩
  | .xor h g w => some ⟨h, g, w, ⟨0x0, 0x0A⟩⟩
  | .shl h g w => some ⟨h, g, w, ⟨0x0, 0x0B⟩⟩
  | .shr h g w => some ⟨h, g, w, ⟨0x0, 0x0C⟩⟩
  | .sra h g w => some ⟨h, g, w, ⟨0x0, 0x0D⟩⟩
  | .min h g w => some ⟨h, g, w, ⟨0x0, 0x0E⟩⟩
  | .max h g w => some ⟨h, g, w, ⟨0x0, 0x0F⟩⟩
  | .minu h g w => some ⟨h, g, w, ⟨0x0, 0x10⟩⟩
  | .maxu h g w => some ⟨h, g, w, ⟨0x0, 0x11⟩⟩
  | .clz h g w => some ⟨h, g, w, ⟨0x0, 0x12⟩⟩
  | .popc h g w => some ⟨h, g, w, ⟨0x0, 0x13⟩⟩
  | .mov h g w => some ⟨h, g, w, ⟨0x0, 0x14⟩⟩
  | .sel h g w => some ⟨h, g, w, ⟨0x0, 0x15⟩⟩
  | .lread h g w => some ⟨h, g, w, ⟨0x0, 0x16⟩⟩
  | .icmp h g w => some ⟨h, g, w, ⟨0x2, 0x00⟩⟩
  | .icmpu h g w => some ⟨h, g, w, ⟨0x2, 0x10⟩⟩
  | .fcmp h g w => some ⟨h, g, w, ⟨0x2, 0x20⟩⟩
  | .pand h g w => some ⟨h, g, w, ⟨0x2, 0x30⟩⟩
  | .por h g w => some ⟨h, g, w, ⟨0x2, 0x31⟩⟩
  | .pxor h g w => some ⟨h, g, w, ⟨0x2, 0x32⟩⟩
  | .pnot h g w => some ⟨h, g, w, ⟨0x2, 0x33⟩⟩
  | .pany h g w => some ⟨h, g, w, ⟨0x2, 0x38⟩⟩
  | .pall h g w => some ⟨h, g, w, ⟨0x2, 0x39⟩⟩
  | .pmask h g w => some ⟨h, g, w, ⟨0x2, 0x3A⟩⟩
  | .fadd h g w => some ⟨h, g, w, ⟨0x3, 0x00⟩⟩
  | .fsub h g w => some ⟨h, g, w, ⟨0x3, 0x01⟩⟩
  | .fmul h g w => some ⟨h, g, w, ⟨0x3, 0x02⟩⟩
  | .ffma h g w => some ⟨h, g, w, ⟨0x3, 0x03⟩⟩
  | .fmin h g w => some ⟨h, g, w, ⟨0x3, 0x04⟩⟩
  | .fmax h g w => some ⟨h, g, w, ⟨0x3, 0x05⟩⟩
  | .fabs h g w => some ⟨h, g, w, ⟨0x3, 0x06⟩⟩
  | .fneg h g w => some ⟨h, g, w, ⟨0x3, 0x07⟩⟩
  | .fcpys h g w => some ⟨h, g, w, ⟨0x3, 0x08⟩⟩
  | .fdiv h g w => some ⟨h, g, w, ⟨0x4, 0x00⟩⟩
  | .fsqrt h g w => some ⟨h, g, w, ⟨0x4, 0x01⟩⟩
  | .frcp h g w => some ⟨h, g, w, ⟨0x4, 0x02⟩⟩
  | .frsq h g w => some ⟨h, g, w, ⟨0x4, 0x03⟩⟩
  | .fex2 h g w => some ⟨h, g, w, ⟨0x4, 0x04⟩⟩
  | .flg2 h g w => some ⟨h, g, w, ⟨0x4, 0x05⟩⟩
  | .divu h g w => some ⟨h, g, w, ⟨0x4, 0x10⟩⟩
  | .divs h g w => some ⟨h, g, w, ⟨0x4, 0x11⟩⟩
  | .remu h g w => some ⟨h, g, w, ⟨0x4, 0x12⟩⟩
  | .rems h g w => some ⟨h, g, w, ⟨0x4, 0x13⟩⟩
  | .cvtBf16F32 h g w => some ⟨h, g, w, ⟨0x5, 0x00⟩⟩
  | .cvtF16F32 h g w => some ⟨h, g, w, ⟨0x5, 0x01⟩⟩
  | .cvtE4m3F32 h g w => some ⟨h, g, w, ⟨0x5, 0x02⟩⟩
  | .cvtE5m2F32 h g w => some ⟨h, g, w, ⟨0x5, 0x03⟩⟩
  | .cvtF32Bf16 h g w => some ⟨h, g, w, ⟨0x5, 0x04⟩⟩
  | .cvtF32F16 h g w => some ⟨h, g, w, ⟨0x5, 0x05⟩⟩
  | .cvtF32E4m3 h g w => some ⟨h, g, w, ⟨0x5, 0x06⟩⟩
  | .cvtF32E5m2 h g w => some ⟨h, g, w, ⟨0x5, 0x07⟩⟩
  | .cvtS32F32 h g w => some ⟨h, g, w, ⟨0x5, 0x08⟩⟩
  | .cvtU32F32 h g w => some ⟨h, g, w, ⟨0x5, 0x09⟩⟩
  | .cvtF32S32 h g w => some ⟨h, g, w, ⟨0x5, 0x0A⟩⟩
  | .cvtF32U32 h g w => some ⟨h, g, w, ⟨0x5, 0x0B⟩⟩
  | .qmxE2m1 h g w => some ⟨h, g, w, ⟨0x5, 0x10⟩⟩
  | .qmxE2m3 h g w => some ⟨h, g, w, ⟨0x5, 0x11⟩⟩
  | .qmxE3m2 h g w => some ⟨h, g, w, ⟨0x5, 0x12⟩⟩
  | .dqmx h g w => some ⟨h, g, w, ⟨0x5, 0x14⟩⟩
  | .tcvi h g w => some ⟨h, g, w, ⟨0x6, 0x00⟩⟩
  | .tadd h g w => some ⟨h, g, w, ⟨0x6, 0x01⟩⟩
  | .tcvo h g w => some ⟨h, g, w, ⟨0x6, 0x02⟩⟩
  | .tneg h g w => some ⟨h, g, w, ⟨0x6, 0x03⟩⟩
  | .tinv h g w => some ⟨h, g, w, ⟨0x6, 0x04⟩⟩
  | .ldU8 h g w => some ⟨h, g, w, ⟨0x7, 0x00⟩⟩
  | .ldS8 h g w => some ⟨h, g, w, ⟨0x7, 0x01⟩⟩
  | .ldU16 h g w => some ⟨h, g, w, ⟨0x7, 0x02⟩⟩
  | .ldS16 h g w => some ⟨h, g, w, ⟨0x7, 0x03⟩⟩
  | .ld32 h g w => some ⟨h, g, w, ⟨0x7, 0x04⟩⟩
  | .ld64 h g w => some ⟨h, g, w, ⟨0x7, 0x05⟩⟩
  | .ld128 h g w => some ⟨h, g, w, ⟨0x7, 0x06⟩⟩
  | .st8 h g w => some ⟨h, g, w, ⟨0x7, 0x10⟩⟩
  | .st16 h g w => some ⟨h, g, w, ⟨0x7, 0x11⟩⟩
  | .st32 h g w => some ⟨h, g, w, ⟨0x7, 0x12⟩⟩
  | .st64 h g w => some ⟨h, g, w, ⟨0x7, 0x13⟩⟩
  | .st128 h g w => some ⟨h, g, w, ⟨0x7, 0x14⟩⟩
  | .atomAdd h g w => some ⟨h, g, w, ⟨0x8, 0x00⟩⟩
  | .atomMin h g w => some ⟨h, g, w, ⟨0x8, 0x01⟩⟩
  | .atomMax h g w => some ⟨h, g, w, ⟨0x8, 0x02⟩⟩
  | .atomMinu h g w => some ⟨h, g, w, ⟨0x8, 0x03⟩⟩
  | .atomMaxu h g w => some ⟨h, g, w, ⟨0x8, 0x04⟩⟩
  | .atomAnd h g w => some ⟨h, g, w, ⟨0x8, 0x05⟩⟩
  | .atomOr h g w => some ⟨h, g, w, ⟨0x8, 0x06⟩⟩
  | .atomXor h g w => some ⟨h, g, w, ⟨0x8, 0x07⟩⟩
  | .atomExch h g w => some ⟨h, g, w, ⟨0x8, 0x08⟩⟩
  | .atomCas h g w => some ⟨h, g, w, ⟨0x8, 0x09⟩⟩
  | .atomFadd h g w => some ⟨h, g, w, ⟨0x8, 0x0A⟩⟩
  | .atomTadd h g w => some ⟨h, g, w, ⟨0x8, 0x0B⟩⟩
  | .acq h g w => some ⟨h, g, w, ⟨0x8, 0x10⟩⟩
  | .rel h g w => some ⟨h, g, w, ⟨0x8, 0x11⟩⟩
  | .tld h g w => some ⟨h, g, w, ⟨0x9, 0x00⟩⟩
  | .tst h g w => some ⟨h, g, w, ⟨0x9, 0x01⟩⟩
  | .tmov h g w => some ⟨h, g, w, ⟨0x9, 0x02⟩⟩
  | .tzero h g w => some ⟨h, g, w, ⟨0x9, 0x03⟩⟩
  | .trd h g w => some ⟨h, g, w, ⟨0x9, 0x04⟩⟩
  | .twr h g w => some ⟨h, g, w, ⟨0x9, 0x05⟩⟩
  | .mdot h g w => some ⟨h, g, w, ⟨0xA, 0x00⟩⟩
  | .lfma h g w => some ⟨h, g, w, ⟨0xB, 0x00⟩⟩
  | .lscale h g w => some ⟨h, g, w, ⟨0xB, 0x01⟩⟩
  | .lmul h g w => some ⟨h, g, w, ⟨0xB, 0x02⟩⟩
  | .ladd h g w => some ⟨h, g, w, ⟨0xB, 0x03⟩⟩
  | .lsub h g w => some ⟨h, g, w, ⟨0xB, 0x04⟩⟩
  | .lmax h g w => some ⟨h, g, w, ⟨0xB, 0x05⟩⟩
  | .lmin h g w => some ⟨h, g, w, ⟨0xB, 0x06⟩⟩
  | .bra h g w => some ⟨h, g, w, ⟨0xC, 0⟩⟩
  | .brc h g w => some ⟨h, g, w, ⟨0xC, 1⟩⟩
  | .brx h g w => some ⟨h, g, w, ⟨0xC, 2⟩⟩
  | .call h g w => some ⟨h, g, w, ⟨0xC, 3⟩⟩
  | .callx h g w => some ⟨h, g, w, ⟨0xC, 4⟩⟩
  | .ret h g w => some ⟨h, g, w, ⟨0xC, 5⟩⟩
  | .exit h g w => some ⟨h, g, w, ⟨0xC, 6⟩⟩
  | .nop h g w => some ⟨h, g, w, ⟨0xC, 7⟩⟩
  | .barb h g w => some ⟨h, g, w, ⟨0xD, 0⟩⟩
  | .barc h g w => some ⟨h, g, w, ⟨0xD, 1⟩⟩
  | .fence h g w => some ⟨h, g, w, ⟨0xD, 2⟩⟩
  | .waitaI h g w => some ⟨h, g, w, ⟨0xD, 3⟩⟩
  | .waitaR h g w => some ⟨h, g, w, ⟨0xD, 4⟩⟩
  | .rda h g w => some ⟨h, g, w, ⟨0xD, 5⟩⟩
  | .siga h g w => some ⟨h, g, w, ⟨0xD, 6⟩⟩
  | .mile h g w => some ⟨h, g, w, ⟨0xD, 7⟩⟩
  | .movs h g w => some ⟨h, g, w, ⟨0xE, 0⟩⟩
  | .wsr h g w => some ⟨h, g, w, ⟨0xE, 1⟩⟩
  | _ => none

/-- The rows of the porter set, with opcode and function of Tables 7.5 to 7.9 and 14.2. -/
def Instr.porter : Instr → Option PorCmd
  | .porAdd c w => some ⟨c, w, ⟨0x01, 0x00⟩⟩
  | .porSub c w => some ⟨c, w, ⟨0x01, 0x01⟩⟩
  | .porAnd c w => some ⟨c, w, ⟨0x01, 0x02⟩⟩
  | .porOr c w => some ⟨c, w, ⟨0x01, 0x03⟩⟩
  | .porXor c w => some ⟨c, w, ⟨0x01, 0x04⟩⟩
  | .porShl c w => some ⟨c, w, ⟨0x01, 0x05⟩⟩
  | .porShr c w => some ⟨c, w, ⟨0x01, 0x06⟩⟩
  | .porSra c w => some ⟨c, w, ⟨0x01, 0x07⟩⟩
  | .porSlt c w => some ⟨c, w, ⟨0x01, 0x08⟩⟩
  | .porSltu c w => some ⟨c, w, ⟨0x01, 0x09⟩⟩
  | .porMul c w => some ⟨c, w, ⟨0x01, 0x0A⟩⟩
  | .porMulhu c w => some ⟨c, w, ⟨0x01, 0x0B⟩⟩
  | .porMulhs c w => some ⟨c, w, ⟨0x01, 0x0C⟩⟩
  | .porMulw c w => some ⟨c, w, ⟨0x01, 0x0D⟩⟩
  | .porMin c w => some ⟨c, w, ⟨0x01, 0x0E⟩⟩
  | .porMax c w => some ⟨c, w, ⟨0x01, 0x0F⟩⟩
  | .porMinu c w => some ⟨c, w, ⟨0x01, 0x10⟩⟩
  | .porMaxu c w => some ⟨c, w, ⟨0x01, 0x11⟩⟩
  | .porDivu c w => some ⟨c, w, ⟨0x01, 0x12⟩⟩
  | .porDivs c w => some ⟨c, w, ⟨0x01, 0x13⟩⟩
  | .porRemu c w => some ⟨c, w, ⟨0x01, 0x14⟩⟩
  | .porRems c w => some ⟨c, w, ⟨0x01, 0x15⟩⟩
  | .porClz c w => some ⟨c, w, ⟨0x01, 0x16⟩⟩
  | .porPopc c w => some ⟨c, w, ⟨0x01, 0x17⟩⟩
  | .porAddp c w => some ⟨c, w, ⟨0x01, 0x18⟩⟩
  | .porSubp c w => some ⟨c, w, ⟨0x01, 0x19⟩⟩
  | .porAddi c w => some ⟨c, w, ⟨0x02, 0x00⟩⟩
  | .porAndi c w => some ⟨c, w, ⟨0x03, 0x00⟩⟩
  | .porOri c w => some ⟨c, w, ⟨0x04, 0x00⟩⟩
  | .porXori c w => some ⟨c, w, ⟨0x05, 0x00⟩⟩
  | .porSlti c w => some ⟨c, w, ⟨0x06, 0x00⟩⟩
  | .porSltiu c w => some ⟨c, w, ⟨0x07, 0x00⟩⟩
  | .porShli c w => some ⟨c, w, ⟨0x08, 0x00⟩⟩
  | .porShri c w => some ⟨c, w, ⟨0x09, 0x00⟩⟩
  | .porSrai c w => some ⟨c, w, ⟨0x0A, 0x00⟩⟩
  | .porLui c w => some ⟨c, w, ⟨0x0B, 0x00⟩⟩
  | .porAddpi c w => some ⟨c, w, ⟨0x0C, 0x00⟩⟩
  | .porLdB c w => some ⟨c, w, ⟨0x10, 0⟩⟩
  | .porLdBu c w => some ⟨c, w, ⟨0x11, 0⟩⟩
  | .porLdH c w => some ⟨c, w, ⟨0x12, 0⟩⟩
  | .porLdHu c w => some ⟨c, w, ⟨0x13, 0⟩⟩
  | .porLdW c w => some ⟨c, w, ⟨0x14, 0⟩⟩
  | .porLdD c w => some ⟨c, w, ⟨0x15, 0⟩⟩
  | .porLdf c w => some ⟨c, w, ⟨0x16, 0⟩⟩
  | .porStB c w => some ⟨c, w, ⟨0x18, 0⟩⟩
  | .porStH c w => some ⟨c, w, ⟨0x19, 0⟩⟩
  | .porStW c w => some ⟨c, w, ⟨0x1A, 0⟩⟩
  | .porStD c w => some ⟨c, w, ⟨0x1B, 0⟩⟩
  | .porStf c w => some ⟨c, w, ⟨0x1C, 0⟩⟩
  | .porBeq c w => some ⟨c, w, ⟨0x20, 0⟩⟩
  | .porBne c w => some ⟨c, w, ⟨0x21, 0⟩⟩
  | .porBlt c w => some ⟨c, w, ⟨0x22, 0⟩⟩
  | .porBge c w => some ⟨c, w, ⟨0x23, 0⟩⟩
  | .porBltu c w => some ⟨c, w, ⟨0x24, 0⟩⟩
  | .porBgeu c w => some ⟨c, w, ⟨0x25, 0⟩⟩
  | .porJal c w => some ⟨c, w, ⟨0x26, 0⟩⟩
  | .porJalr c w => some ⟨c, w, ⟨0x27, 0⟩⟩
  | .porFadd c w => some ⟨c, w, ⟨0x30, 0x00⟩⟩
  | .porFsub c w => some ⟨c, w, ⟨0x30, 0x01⟩⟩
  | .porFmul c w => some ⟨c, w, ⟨0x30, 0x02⟩⟩
  | .porFfma c w => some ⟨c, w, ⟨0x30, 0x03⟩⟩
  | .porFmin c w => some ⟨c, w, ⟨0x30, 0x04⟩⟩
  | .porFmax c w => some ⟨c, w, ⟨0x30, 0x05⟩⟩
  | .porFdiv c w => some ⟨c, w, ⟨0x30, 0x06⟩⟩
  | .porFsqrt c w => some ⟨c, w, ⟨0x30, 0x07⟩⟩
  | .porFabs c w => some ⟨c, w, ⟨0x30, 0x08⟩⟩
  | .porFneg c w => some ⟨c, w, ⟨0x30, 0x09⟩⟩
  | .porFeq c w => some ⟨c, w, ⟨0x30, 0x0A⟩⟩
  | .porFlt c w => some ⟨c, w, ⟨0x30, 0x0B⟩⟩
  | .porFle c w => some ⟨c, w, ⟨0x30, 0x0C⟩⟩
  | .porFmvG c w => some ⟨c, w, ⟨0x30, 0x0D⟩⟩
  | .porFmvF c w => some ⟨c, w, ⟨0x30, 0x0E⟩⟩
  | .porCvtBf16F32 c w => some ⟨c, w, ⟨0x32, 0x00⟩⟩
  | .porCvtF32Bf16 c w => some ⟨c, w, ⟨0x32, 0x01⟩⟩
  | .porCvtE4m3F32 c w => some ⟨c, w, ⟨0x32, 0x02⟩⟩
  | .porCvtE5m2F32 c w => some ⟨c, w, ⟨0x32, 0x03⟩⟩
  | .porCvtF32E4m3 c w => some ⟨c, w, ⟨0x32, 0x04⟩⟩
  | .porCvtF32E5m2 c w => some ⟨c, w, ⟨0x32, 0x05⟩⟩
  | .porCvtS32F32 c w => some ⟨c, w, ⟨0x32, 0x06⟩⟩
  | .porCvtS32F32Rz c w => some ⟨c, w, ⟨0x32, 0x07⟩⟩
  | .porCvtF32S32 c w => some ⟨c, w, ⟨0x32, 0x08⟩⟩
  | .porMxscE2m1 c w => some ⟨c, w, ⟨0x32, 0x09⟩⟩
  | .porMxscE2m3 c w => some ⟨c, w, ⟨0x32, 0x0A⟩⟩
  | .porMxscE3m2 c w => some ⟨c, w, ⟨0x32, 0x0B⟩⟩
  | .porMxqE2m1 c w => some ⟨c, w, ⟨0x32, 0x0C⟩⟩
  | .porMxqE2m3 c w => some ⟨c, w, ⟨0x32, 0x0D⟩⟩
  | .porMxqE3m2 c w => some ⟨c, w, ⟨0x32, 0x0E⟩⟩
  | .porMxdE2m1 c w => some ⟨c, w, ⟨0x32, 0x0F⟩⟩
  | .porMxdE2m3 c w => some ⟨c, w, ⟨0x32, 0x10⟩⟩
  | .porMxdE3m2 c w => some ⟨c, w, ⟨0x32, 0x11⟩⟩
  | .porTcvi c w => some ⟨c, w, ⟨0x34, 0⟩⟩
  | .porTcvo c w => some ⟨c, w, ⟨0x35, 0⟩⟩
  | .porTaddm c w => some ⟨c, w, ⟨0x36, 0⟩⟩
  | .porCrcw c w => some ⟨c, w, ⟨0x38, 0x00⟩⟩
  | .porFld c w => some ⟨c, w, ⟨0x40, 0⟩⟩
  | .porFst c w => some ⟨c, w, ⟨0x41, 0⟩⟩
  | .porFget c w => some ⟨c, w, ⟨0x42, 0⟩⟩
  | .porFput c w => some ⟨c, w, ⟨0x43, 0⟩⟩
  | .porFred c w => some ⟨c, w, ⟨0x44, 0⟩⟩
  | .porTaud c w => some ⟨c, w, ⟨0x45, 0⟩⟩
  | .porGput c w => some ⟨c, w, ⟨0x46, 0⟩⟩
  | .porGadd c w => some ⟨c, w, ⟨0x47, 0⟩⟩
  | .porWaitq c w => some ⟨c, w, ⟨0x50, 0⟩⟩
  | .porWaitw c w => some ⟨c, w, ⟨0x51, 0⟩⟩
  | .porMile c w => some ⟨c, w, ⟨0x52, 0⟩⟩
  | .porExit c w => some ⟨c, w, ⟨0x53, 0⟩⟩
  | .porMovs c w => some ⟨c, w, ⟨0x54, 0⟩⟩
  | .porWsr c w => some ⟨c, w, ⟨0x55, 0⟩⟩
  | .csrr c w => some ⟨c, w, ⟨0x60, 0⟩⟩
  | .csrw c w => some ⟨c, w, ⟨0x61, 0⟩⟩
  | .eret c w => some ⟨c, w, ⟨0x62, 0⟩⟩
  | .wfi c w => some ⟨c, w, ⟨0x63, 0⟩⟩
  | .cmoClean c w => some ⟨c, w, ⟨0x64, 0⟩⟩
  | .cmoInval c w => some ⟨c, w, ⟨0x64, 1⟩⟩
  | .cmoFlush c w => some ⟨c, w, ⟨0x64, 2⟩⟩
  | .cmoZl c w => some ⟨c, w, ⟨0x64, 3⟩⟩
  | .sync c w => some ⟨c, w, ⟨0x65, 0⟩⟩
  | .iinv c w => some ⟨c, w, ⟨0x66, 0⟩⟩
  | _ => none

/-- A hostel word is a word of its row, or one that R182 refuses. -/
def HosCmd.fits (x : HosCmd) : Bool := !hostelLegal x.w || hwOp x.w == x.op

/-- Legal on a core: a steward core's set differs from a porter's (R423). -/
def CoreRef.legal (c : CoreRef) (w : W32) : Bool :=
  match c with
  | .porter _ => porterLegal w
  | .steward _ => stewardLegal w

/-- A word of the porter set is a word of its row, or one that R215 or R423 refuses. -/
def PorCmd.fits (x : PorCmd) : Bool := !x.c.legal x.w || pwRow x.w == x.op

/-! ### What operands may name (Table 0.5, Table 16.6) -/

/-- Units that a family has. -/
def familySize (f : Nat) : Nat :=
  match f with
  | 1 => 96
  | 2 => 1
  | 3 => 4096
  | 4 => 8
  | 5 => 32
  | 6 => 1
  | 7 => 16
  | 8 => 16
  | 9 => 16
  | 10 => 4
  | 15 => 64
  | _ => 0

/-- A unit that the device has. -/
def UnitRef.ok (u : UnitRef) : Bool := decide (u.index.toNat < familySize u.family.toNat)

/-- A fault of SRAM self-test names a slice or a unit that the device has. -/
def SramFault.ok : SramFault → Bool
  | .row sl _ _ => decide (sl.toNat < 96)
  | .column sl _ => decide (sl.toNat < 96)
  | .array u => u.ok

/-- A block has at least one group, in slots of its own (R146), and a cluster one to four blocks on different hostels (R147). -/
def placesOk (l : List Placement) : Bool :=
  !l.isEmpty && decide (l.length ≤ 4) && l.all (fun p => !p.slots.isEmpty && decide (p.slots.length ≤ 16) && decide p.slots.Nodup) &&
    decide (l.map Placement.hostel).Nodup

/-- A sample reads the four die sensors of each of its zones once, and two stacks in an HBM zone (R398, R399). -/
def samplesOk (l : List ZoneSample) : Bool :=
  l.all (fun v => decide (v.zone.toNat < 24) && v.die.length == 4 && v.ext.length == (if v.zone.toNat % 12 < 4 then 2 else 0)) &&
    decide (l.map ZoneSample.zone).Nodup

/-- A sideband message whose CRC is right is of a type of the row that it comes in (R382, R383). -/
def sidebandOk (msg : BitVec 256) (types : List Nat) : Bool := !sbCrcOk msg || types.contains (sbType msg)

/-- The operands of a command that carries no instruction word. -/
def Instr.operandsOk : Instr → Bool
  | .sramSelfTestDone faults => faults.all SramFault.ok
  | .logicSelfTestDone failed _ _ => failed.all fun u => u.ok && [3, 4, 5, 15].contains u.family.toNat
  | .siteTrainingDone _ r => r.populated || r.rate.isNone
  | .registerWrite _ off wide _ => off.toNat % (if wide then 8 else 4) == 0
  | .scrubPassStart sl => decide (sl.toNat < 96)
  | .reduceCombine sl => decide (sl.toNat < 96)
  | .reduceClose sl _ => decide (sl.toNat < 96)
  | .blockPlace _ _ _ places => placesOk places
  | .tileAudit sl => decide (sl.toNat < 96)
  | .ctuLookup port => decide (port.toNat < 112)
  | .frameReceive _ f => f.slots.length == 8
  | .upRead _ p _ => decide (p.toNat < 20)
  | .upWrite _ p _ => decide (p.toNat < 20)
  | .upWriteBeat _ p _ => decide (p.toNat < 20)
  | .upNoSlot _ p _ _ => decide (p.toNat < 20)
  | .writeBeatsTimeout _ p _ => decide (p.toNat < 20)
  | .trainResult _ m groups => decide (groups.length ≤ 40) && sidebandOk m [3]
  | .ident _ m => sidebandOk m [1]
  | .vset _ m => sidebandOk m [5]
  | .thermal _ m => sidebandOk m [7]
  | .error _ m => sidebandOk m [8]
  | .unlistedSidebandMessage _ m => !sidebandOk m [1, 3, 5, 7, 8] || !sbCrcOk m
  | .thermalSample readings => samplesOk readings
  | .deferTimeout z => decide (z.toNat < 24)
  | .avsStep r _ => decide (r.toNat < 26)
  | .phaseChange r _ => decide (r.toNat < 26)
  | .bar2Write _ data => !data.isEmpty && decide (data.length ≤ 4096)
  | .railInRegulation r _ => decide (r.toNat < 26)
  | .bar0MisalignedAccess off len _ => decide (1 ≤ len) && !((len == 4 || len == 8) && off.toNat % len == 0)
  | .add .. | .sub .. | .adds .. | .subs .. | .mul .. | .mulhu .. | .mulhs .. | .mad .. | .and .. | .or .. | .xor .. | .shl .. | .shr ..
  | .sra .. | .min .. | .max .. | .minu .. | .maxu .. | .clz .. | .popc .. | .mov .. | .sel .. | .lread .. | .icmp .. | .icmpu ..
  | .fcmp .. | .pand .. | .por .. | .pxor .. | .pnot .. | .pany .. | .pall .. | .pmask .. | .fadd .. | .fsub .. | .fmul .. | .ffma ..
  | .fmin .. | .fmax .. | .fabs .. | .fneg .. | .fcpys .. | .fdiv .. | .fsqrt .. | .frcp .. | .frsq .. | .fex2 .. | .flg2 .. | .divu ..
  | .divs .. | .remu .. | .rems .. | .cvtBf16F32 .. | .cvtF16F32 .. | .cvtE4m3F32 .. | .cvtE5m2F32 .. | .cvtF32Bf16 .. | .cvtF32F16 ..
  | .cvtF32E4m3 .. | .cvtF32E5m2 .. | .cvtS32F32 .. | .cvtU32F32 .. | .cvtF32S32 .. | .cvtF32U32 .. | .qmxE2m1 .. | .qmxE2m3 ..
  | .qmxE3m2 .. | .dqmx .. | .tcvi .. | .tadd .. | .tcvo .. | .tneg .. | .tinv .. | .ldU8 .. | .ldS8 .. | .ldU16 .. | .ldS16 ..
  | .ld32 .. | .ld64 .. | .ld128 .. | .st8 .. | .st16 .. | .st32 .. | .st64 .. | .st128 .. | .atomAdd .. | .atomMin .. | .atomMax ..
  | .atomMinu .. | .atomMaxu .. | .atomAnd .. | .atomOr .. | .atomXor .. | .atomExch .. | .atomCas .. | .atomFadd .. | .atomTadd ..
  | .acq .. | .rel .. | .tld .. | .tst .. | .tmov .. | .tzero .. | .trd .. | .twr .. | .mdot .. | .lfma .. | .lscale .. | .lmul ..
  | .ladd .. | .lsub .. | .lmax .. | .lmin .. | .bra .. | .brc .. | .brx .. | .call .. | .callx .. | .ret .. | .exit .. | .nop ..
  | .barb .. | .barc .. | .fence .. | .waitaI .. | .waitaR .. | .rda .. | .siga .. | .mile .. | .movs .. | .wsr .. | .porAdd ..
  | .porSub .. | .porAnd .. | .porOr .. | .porXor .. | .porShl .. | .porShr .. | .porSra .. | .porSlt .. | .porSltu .. | .porMul ..
  | .porMulhu .. | .porMulhs .. | .porMulw .. | .porMin .. | .porMax .. | .porMinu .. | .porMaxu .. | .porDivu .. | .porDivs ..
  | .porRemu .. | .porRems .. | .porClz .. | .porPopc .. | .porAddp .. | .porSubp .. | .porAddi .. | .porAndi .. | .porOri ..
  | .porXori .. | .porSlti .. | .porSltiu .. | .porShli .. | .porShri .. | .porSrai .. | .porLui .. | .porAddpi .. | .porLdB ..
  | .porLdBu .. | .porLdH .. | .porLdHu .. | .porLdW .. | .porLdD .. | .porLdf .. | .porStB .. | .porStH .. | .porStW .. | .porStD ..
  | .porStf .. | .porBeq .. | .porBne .. | .porBlt .. | .porBge .. | .porBltu .. | .porBgeu .. | .porJal .. | .porJalr .. | .porFadd ..
  | .porFsub .. | .porFmul .. | .porFfma .. | .porFmin .. | .porFmax .. | .porFdiv .. | .porFsqrt .. | .porFabs .. | .porFneg ..
  | .porFeq .. | .porFlt .. | .porFle .. | .porFmvG .. | .porFmvF .. | .porCvtBf16F32 .. | .porCvtF32Bf16 .. | .porCvtE4m3F32 ..
  | .porCvtE5m2F32 .. | .porCvtF32E4m3 .. | .porCvtF32E5m2 .. | .porCvtS32F32 .. | .porCvtS32F32Rz .. | .porCvtF32S32 ..
  | .porMxscE2m1 .. | .porMxscE2m3 .. | .porMxscE3m2 .. | .porMxqE2m1 .. | .porMxqE2m3 .. | .porMxqE3m2 .. | .porMxdE2m1 ..
  | .porMxdE2m3 .. | .porMxdE3m2 .. | .porTcvi .. | .porTcvo .. | .porTaddm .. | .porCrcw .. | .porFld .. | .porFst .. | .porFget ..
  | .porFput .. | .porFred .. | .porTaud .. | .porGput .. | .porGadd .. | .porWaitq .. | .porWaitw .. | .porMile .. | .porExit ..
  | .porMovs .. | .porWsr .. | .csrr .. | .csrw .. | .eret .. | .wfi .. | .cmoClean .. | .cmoInval .. | .cmoFlush .. | .cmoZl ..
  | .sync .. | .iinv .. | .powerGoodRise | .powerGoodFall | .resetNAssert | .fuseReadDone .. | .knownAnswerTestsDone ..
  | .pcieLinkTrained .. | .ready | .clockGateIdle .. | .clockWakeEnd .. | .etcTick | .etcLowRead | .timetableSlot .. | .arm ..
  | .ttCheckDone .. | .bankSwitch | .runSet | .runClear | .seamHoldEnd .. | .realign | .meshHop .. | .legStart .. | .timetableStage ..
  | .dispatcherPush .. | .arrayStart .. | .rejoin .. | .barrierRelease .. | .fenceComplete .. | .peerAccessDone .. | .waitaResume ..
  | .killComplete .. | .waitqResume .. | .waitwResume .. | .translationStopRequest .. | .edgePortNoSlot .. | .farResponse ..
  | .gridWrite .. | .gridAdd .. | .start .. | .kill .. | .loadBegin .. | .load .. | .loadCheck .. | .imageBad | .startRefused | .done
  | .killed | .porterFence .. | .porterUnfence .. | .porterPowerOff .. | .porterPowerOn .. | .porterIslandReady .. | .l2FillDone ..
  | .evictionWrite | .cleanAll | .flushAll | .invalAll | .push .. | .channelAbort .. | .copy .. | .convert .. | .reduce ..
  | .courierAdd .. | .discard .. | .hash .. | .watch .. | .tileResume .. | .tileLanded .. | .arrivalVisible ..
  | .provenanceRecordWrite .. | .walkStart | .walkStepDone .. | .faultMergeEnd .. | .faultQueueConsume .. | .fqWriteErrorClear
  | .resolveRetry .. | .resolveAbort .. | .invalidate .. | .invalidationDone | .stallReplayWrite .. | .scheduledCommand ..
  | .meshRequest .. | .meshRequestIssue .. | .memorySideAdd .. | .refreshWindow .. | .mr4Read .. | .memScrub .. | .repairReq ..
  | .repairInterval .. | .siteFence .. | .siteUnfence .. | .siteRetrain .. | .siteRetrainDone .. | .marginSweep .. | .marginSweepDone ..
  | .linkDetect .. | .linkEqualiseDone .. | .linkLockDone .. | .trainingAttemptTimeout .. | .identity .. | .autoRetrain ..
  | .linkRetrain .. | .portDisable .. | .portFence .. | .portUnfence .. | .testStart .. | .testEnd .. | .checkerEnable .. | .frameSend ..
  | .nak .. | .retryTimeout .. | .patienceExpired .. | .linkFailed .. | .oxluxRead .. | .oxluxWrite .. | .oxluxAdd .. | .oxluxReduce ..
  | .oxluxReadResp .. | .oxluxAck .. | .inboundNoSlot .. | .arrive .. | .release .. | .thermalNotice .. | .healthNotice ..
  | .nodeIdWrite .. | .resetRelease .. | .identTimeout .. | .dieThermalTimeout ..
  | .upPortRetrain .. | .upperSiteFence .. | .upperSiteReset .. | .upSeal .. | .sensorSelfCheck .. | .throttleApply
  | .currentLimitUpdate .. | .siteSwitchOff .. | .budgetWindow .. | .shutdownDeadline | .ptSeal | .fixedDispatchWrite .. | .go ..
  | .launchCheckDone .. | .launchAbort .. | .slotRelease .. | .hostRelease .. | .milestoneArrival | .milestonePatience ..
  | .legWatchdog .. | .stepEnd .. | .configRequest .. | .bar2Read .. | .bar2WindowWrite .. | .hostCompletion .. | .completionTimeout ..
  | .functionLevelReset | .hotReset | .pcieLinkDown | .d3hotEntry | .submit | .licence .. | .runtimeFirmware .. | .enterService
  | .porterServiceFirmware .. | .debugUnlockToken .. | .raiseSvnFloor .. | .revokeSigner .. | .keyLoadRecord .. | .newNonce ..
  | .attest .. | .fuseGenProg .. | .hardRepair | .hardRepairDone .. | .partReset | .partResetDone | .hostelFence .. | .hostelUnfence ..
  | .guestbookCommit | .find .. | .findDone | .retainClear | .detectTimeout .. | .lossOfSignal .. | .lossOfLock .. | .alarmNChange ..
  | .fuseSupplyChange .. | .vaonFall | .currentLimitReached .. | .submissionRefused .. | .reservedOpcPacket ..
  | .interfacePortAccess .. | .wakeInterrupt .. => true

/-- A well-formed command. -/
def wellFormed (i : Instr) : Bool :=
  i.operandsOk && (match i.hostel with
    | some x => x.fits
    | none => true) && (match i.porter with
    | some x => x.fits
    | none => true)

end Sys2Proof
end

