-- ==== Sys2Proof/Safety.lean ====
section
/-!
DEFINITION. Sys2Proof/Safety.lean: the terms that the statements are made in: running to a next state, what stays as it was, when an
issued word passes its checks, and the results of the hostel and the porter set written a second time, over bit vectors.
-/

namespace Sys2Proof.Machine

/-! ### Canonical memory -/

/-- Memory is in its one canonical form: addresses strictly rise, and no byte is listed that an unlisted address reads as. -/
def Memory.wf (m : List Host.Cell) : Bool := tabWf (fun _ => 0) m

/-- The memory and the register file of a state are in canonical form. -/
def State.wf (s : State) : Bool := Memory.wf s.mem && tabWf resetVal s.regs

end Sys2Proof.Machine

namespace Sys2Proof.Safety

open Sys2Proof.Machine

/-! ### Running, and what stays as it was -/

/-- The command answers a next state, and that state meets `P`. -/
def Runs (i : Instr) (s : State) (P : State → Prop) : Prop := ∃ t, exec i s = .next t ∧ P t

/-- Every register but those listed reads as before. -/
def SameRegs (l : List Nat) (s t : State) : Prop := ∀ r, r ∉ l → t.reg r = s.reg r

/-- Every byte of memory outside `n` bytes from `a` reads as before. -/
def SameMemBut (a n : Nat) (s t : State) : Prop := ∀ b, ¬ (a ≤ b ∧ b < a + n) → t.byte b = s.byte b

/-! ### Hostel: the check at issue and frames -/

/-- The features that a word needs are licensed (R8): 1 MX formats, 2 tally mode. -/
def Licensed (s : State) (feature : Nat) : Prop :=
  (feature = 1 → s.flag BRG.ENABLED BRG.ENABLED_MX = true) ∧ (feature = 2 → s.flag BRG.ENABLED BRG.ENABLED_TALLY = true)

/-- A hostel instruction passes the check at issue (R8, R121, R139, R182). -/
structure HosReady (s : State) (x : HosCmd) : Prop where
  issue : s.canIssue x.h.toNat x.g.toNat = true
  legal : hostelLegal x.w = true
  row : hwOp x.w = x.op
  window : hostelBadWindow x.w = false
  licensed : Licensed s (hostelFeature x.w)
  free : s.interlocked x.h.toNat x.g.toNat x.w = false

/-- The command is a hostel instruction that passes the check at issue. -/
def HosIssues (s : State) (i : Instr) : Prop := ∃ x, i.hostel = some x ∧ HosReady s x

/-- A lane executes the word: it is active, and past the guard (R140, R183). -/
def Executes (s : State) (h g : Nat) (w : W64) (l : Nat) : Prop := (execMask (s.group h g) w).getLsbD l = true

/-- Nothing but one group slot of one hostel changes. -/
def OnlyGroup (h g : Nat) (s t : State) : Prop :=
  t = { s with hosGroups := t.hosGroups } ∧ ∀ k, k ≠ gkey h g → tabGet {} t.hosGroups k = tabGet {} s.hosGroups k

/-- The executing lanes write `val` to v_d and set the sticky flags `fl`; no other register, lane or flag changes, and the group goes
on to its next instruction. -/
def LanesWrite (h g : Nat) (w : W64) (val : Group → Nat → W32) (fl : Group → Nat → W32) (s t : State) : Prop :=
  let a := s.group h g
  let b := t.group h g
  OnlyGroup h g s t ∧ b = { a with v := b.v, flags := b.flags, pc := a.pc + 8 } ∧
    (∀ r l, r < 128 → l < 32 → (r = hwD w ∧ Executes s h g w l → b.rv r l = val a l) ∧
      (¬ (r = hwD w ∧ Executes s h g w l) → b.rv r l = a.rv r l)) ∧
    ∀ i, b.flags.getLsbD i = true ↔ a.flags.getLsbD i = true ∨ ∃ l < 32, Executes s h g w l ∧ (fl a l).getLsbD i = true

/-- The executing lanes set p_d to `val`; no other predicate or lane changes, and the group goes on. -/
def LanesSet (h g : Nat) (w : W64) (val : Group → Nat → Bool) (s t : State) : Prop :=
  let a := s.group h g
  let b := t.group h g
  OnlyGroup h g s t ∧ b = { a with p := b.p, pc := a.pc + 8 } ∧
    ∀ p l, p < 8 → l < 32 → (p = hwD w ∧ Executes s h g w l → (b.rp p).getLsbD l = val a l) ∧
      (¬ (p = hwD w ∧ Executes s h g w l) → (b.rp p).getLsbD l = (a.rp p).getLsbD l)

/-- The executing lanes write the `n` registers from v_d with `val`, lowest first (R184), and set the sticky flags `fl`; nothing else of
the group changes but its program counter. -/
def LanesWriteRun (h g : Nat) (w : W64) (n : Nat) (val : Group → Nat → Nat) (fl : Group → Nat → W32) (s t : State) : Prop :=
  let a := s.group h g
  let b := t.group h g
  OnlyGroup h g s t ∧ b = { a with v := b.v, flags := b.flags, pc := a.pc + 8 } ∧
    (∀ r l, r < 128 → l < 32 →
      (hwD w ≤ r → r < hwD w + n → Executes s h g w l → b.rv r l = BitVec.ofNat 32 (val a l / 2 ^ (32 * (r - hwD w)))) ∧
      (¬ (hwD w ≤ r ∧ r < hwD w + n ∧ Executes s h g w l) → b.rv r l = a.rv r l)) ∧
    ∀ i, b.flags.getLsbD i = true ↔ a.flags.getLsbD i = true ∨ ∃ l < 32, Executes s h g w l ∧ (fl a l).getLsbD i = true

/-- One group takes the given value, and nothing else changes. -/
def GroupBecomes (h g : Nat) (v : Group) (s t : State) : Prop := OnlyGroup h g s t ∧ t.group h g = v

/-! ### Hostel integer results (Tables 6.5 and 6.8) over bit vectors -/

/-- v_a of a lane, and operand b: the immediate in class 0x1. -/
def a32 (w : W64) (gr : Group) (l : Nat) : W32 := gr.rv (hwA w) l
def b32 (w : W64) (gr : Group) (l : Nat) : W32 := if hwClass w = 1 then BitVec.ofNat 32 (hwImm w) else gr.rv (hwB w) l
def c32 (w : W64) (gr : Group) (l : Nat) : W32 := gr.rv (hwC w) l

/-- A signed sum clamped to INT32 (R165), and the flag SATURATE where it was clamped. -/
def sat32 (v : Int) : W32 × W32 :=
  if v < -2147483648 then (0x80000000#32, 8) else if 2147483647 < v then (0x7FFFFFFF#32, 8) else (BitVec.ofInt 32 v, 0)

/-- Leading zeros, and one bits, of a word. -/
def leadingZeros (a : W32) : W32 := BitVec.ofNat 32 ((List.range 32).takeWhile fun i => !a.getMsbD i).length
def oneBits (a : W32) : W32 := BitVec.ofNat 32 ((List.range 32).filter fun i => a.getLsbD i).length

/-- The high half of a 64-bit product. -/
def highHalf (p : W64) : W32 := p.extractLsb' 32 32

/-- Division by R165: by zero the quotient is all ones and the remainder the dividend. -/
def quotU (a b : W32) : W32 := if b = 0 then BitVec.allOnes 32 else a / b
def quotS (a b : W32) : W32 := if b = 0 then BitVec.allOnes 32 else a.sdiv b
def restU (a b : W32) : W32 := if b = 0 then a else a % b
def restS (a b : W32) : W32 := if b = 0 then a else a.srem b

/-- The constructor of a hostel row. -/
abbrev HosCtor := BitVec 3 → BitVec 6 → W64 → Instr

/-- A row whose result in a lane is a function of v_a and operand b, with no flag. -/
def ab (c : HosCtor) (f : W32 → W32 → W32) : HosCtor × (W64 → Group → Nat → W32 × W32) :=
  (c, fun w gr l => (f (a32 w gr l) (b32 w gr l), 0))

/-- The rows that write an integer: the value and the flags of a lane. -/
def intRows : List (HosCtor × (W64 → Group → Nat → W32 × W32)) := [
  ab .add fun a b => a + b,
  ab .sub fun a b => a - b,
  (.adds, fun w gr l => sat32 ((a32 w gr l).toInt + (b32 w gr l).toInt)),
  (.subs, fun w gr l => sat32 ((a32 w gr l).toInt - (b32 w gr l).toInt)),
  ab .mul fun a b => a * b,
  ab .mulhu fun a b => highHalf (a.zeroExtend 64 * b.zeroExtend 64),
  ab .mulhs fun a b => highHalf (a.signExtend 64 * b.signExtend 64),
  (.mad, fun w gr l => (a32 w gr l * b32 w gr l + c32 w gr l, 0)),
  ab .and fun a b => a &&& b,
  ab .or fun a b => a ||| b,
  ab .xor fun a b => a ^^^ b,
  ab .shl fun a b => a <<< (b.toNat % 32),
  ab .shr fun a b => a >>> (b.toNat % 32),
  ab .sra fun a b => a.sshiftRight (b.toNat % 32)] ++ [
  ab .min fun a b => if a.slt b then a else b,
  ab .max fun a b => if a.slt b then b else a,
  ab .minu fun a b => if a < b then a else b,
  ab .maxu fun a b => if a < b then b else a,
  ab .clz fun a _ => leadingZeros a,
  ab .popc fun a _ => oneBits a,
  ab .mov fun _ b => b,
  (.sel, fun w gr l => (if (gr.rp (hwMod w % 8)).getLsbD l then a32 w gr l else b32 w gr l, 0)),
  (.lread, fun w gr l => (gr.rv (hwA w) ((b32 w gr l).toNat % 32), 0)),
  (.pmask, fun w gr _ => (gr.rp (hwA w % 8) &&& execMask gr w, 0)),
  ab .divu quotU,
  ab .divs quotS,
  ab .remu restU,
  ab .rems restS]

/-! ### Hostel compares and predicates (R188, R192) -/

/-- The condition codes 0 to 5 of an integer compare. -/
def condOf (cc : Nat) (lt : W32 → W32 → Bool) (a b : W32) : Bool :=
  match cc with
  | 0 => a == b
  | 1 => a != b
  | 2 => lt a b
  | 3 => !lt b a
  | 4 => lt b a
  | _ => !lt a b

/-- Operand b of a compare: the immediate where FUNC[7] is 1. -/
def cmp32 (w : W64) (gr : Group) (l : Nat) : W32 := if 0x80 ≤ hwFunc w then BitVec.ofNat 32 (hwImm w) else gr.rv (hwB w) l

/-- A tally in four registers of a lane, lowest first. -/
def quad (gr : Group) (r l : Nat) : Nat :=
  (gr.rv r l).toNat + 2 ^ 32 * (gr.rv (r + 1) l).toNat + 2 ^ 64 * (gr.rv (r + 2) l).toNat + 2 ^ 96 * (gr.rv (r + 3) l).toNat

/-- A predicate bit of a lane. -/
def pbit (gr : Group) (p l : Nat) : Bool := (gr.rp (p % 8)).getLsbD l

/-- The rows that write a predicate. -/
def predRows : List (HosCtor × (W64 → Group → Nat → Bool)) := [
  (.icmp, fun w gr l => condOf (hwFunc w % 16) BitVec.slt (a32 w gr l) (cmp32 w gr l)),
  (.icmpu, fun w gr l => condOf (hwFunc w % 16) BitVec.ult (a32 w gr l) (cmp32 w gr l)),
  (.fcmp, fun w gr l => fcompare (modFmt w) (hwFunc w % 16) (fmtBits (modFmt w) (gr.rv (hwA w) l)) (fmtBits (modFmt w) (gr.rv (hwB w) l))),
  (.pand, fun w gr l => pbit gr (hwA w) l && pbit gr (hwB w) l),
  (.por, fun w gr l => pbit gr (hwA w) l || pbit gr (hwB w) l),
  (.pxor, fun w gr l => pbit gr (hwA w) l ^^ pbit gr (hwB w) l),
  (.pnot, fun w gr l => !pbit gr (hwA w) l),
  (.pany, fun w gr _ => (List.range 32).any fun m => (execMask gr w).getLsbD m && pbit gr (hwA w) m),
  (.pall, fun w gr _ => (List.range 32).all fun m => !(execMask gr w).getLsbD m || pbit gr (hwA w) m),
  (.tinv, fun w gr l => quad gr (hwA w) l == 2 ^ 127)]

/-! ### Hostel floating point, conversions and tallies (R189-R192), by the exact arithmetic of Machine/Float.lean -/

/-- An operand in the format that MOD[1:0] names. -/
def fin (w : W64) (r : Nat) (gr : Group) (l : Nat) : Nat := fmtBits (modFmt w) (gr.rv r l)

/-- A floating row of one, two or three operands in the format of MOD. -/
def fl2 (c : HosCtor) (f : Fmt → Nat → Nat → Nat × Flags) : HosCtor × (W64 → Group → Nat → Nat × Flags) :=
  (c, fun w gr l => f (modFmt w) (fin w (hwA w) gr l) (fin w (hwB w) gr l))

/-- A row on v_a whole. -/
def fl1 (c : HosCtor) (f : Nat → Nat × Flags) : HosCtor × (W64 → Group → Nat → Nat × Flags) :=
  (c, fun w gr l => f (gr.rv (hwA w) l).toNat)

/-- The rounding of a narrowing conversion in a lane: to nearest, or by dither with the block's seed and step (R128, R190). -/
def laneRnd (dc : DitherCtx) (w : W64) (gr : Group) (l : Nat) : Rnd :=
  if hwMod w % 4 = 2 then
    .dither (ditherOf dc.seed (((gr.rv (hwC w) l).toNat + 2 ^ 32 * (gr.rv (hwC w + 1) l).toNat) % 2 ^ 57) dc.step)
  else .rne

/-- A narrowing row: the half or byte of v_d that POS names is replaced. -/
def narrow (c : HosCtor) (f : Fmt) (dc : DitherCtx) : HosCtor × (W64 → Group → Nat → Nat × Flags) :=
  (c, fun w gr l =>
    let r := fconvert f fp32 (laneRnd dc w gr l) (gr.rv (hwA w) l).toNat
    let lo := cvtPos w * fmtWidth f
    (putBits (gr.rv (hwD w) l).toNat (lo + fmtWidth f - 1) lo r.1, r.2))

/-- A widening row: the half or byte of v_a that POS names. -/
def widen (c : HosCtor) (f : Fmt) : HosCtor × (W64 → Group → Nat → Nat × Flags) :=
  (c, fun w gr l => fconvert fp32 f .rne ((gr.rv (hwA w) l).toNat / 2 ^ (cvtPos w * fmtWidth f) % 2 ^ fmtWidth f))

/-- A quantising row (R191): the scale of the group's 32 lanes, in which a lane that does not execute counts as +0.0, and the lane's
element under it. -/
def quantise (c : HosCtor) (f : Fmt) (dc : DitherCtx) : HosCtor × (W64 → Group → Nat → Nat × Flags) :=
  (c, fun w gr l =>
    match mxScale f ((List.range 32).map fun m =>
        if (execMask gr w).getLsbD m then fdecode fp32 (gr.rv (hwA w) m).toNat else .fin false 0 0) with
    | none => (0xFF00, flInvalid)
    | some sc =>
      let r := mxElem f sc (laneRnd dc w gr l) (fdecode fp32 (gr.rv (hwA w) l).toNat)
      (r.1 + 256 * sc, r.2))

/-- The rows that write a 32-bit floating or converted result; `dc` is the seed and step of the group's block. -/
def floatRows (dc : DitherCtx) : List (HosCtor × (W64 → Group → Nat → Nat × Flags)) := [
  fl2 .fadd fadd, fl2 .fsub fsub, fl2 .fmul fmul,
  (.ffma, fun w gr l => ffma (modFmt w) (fin w (hwA w) gr l) (fin w (hwB w) gr l) (fin w (hwC w) gr l)),
  fl2 .fmin fmin, fl2 .fmax fmax,
  fl2 .fabs fun f a _ => (fabsBits f a, 0),
  fl2 .fneg fun f a _ => (fnegBits f a, 0),
  fl2 .fcpys fun f a b => (fcpysBits f a b, 0),
  (.fdiv, fun w gr l => fdiv fp32 (gr.rv (hwA w) l).toNat (gr.rv (hwB w) l).toNat),
  fl1 .fsqrt (fsqrt fp32), fl1 .frcp (frcp fp32), fl1 .frsq (frsq fp32), fl1 .fex2 fex2, fl1 .flg2 flg2] ++ [
  narrow .cvtBf16F32 bf16 dc, narrow .cvtF16F32 fp16 dc, narrow .cvtE4m3F32 e4m3 dc, narrow .cvtE5m2F32 e5m2 dc,
  widen .cvtF32Bf16 bf16, widen .cvtF32F16 fp16, widen .cvtF32E4m3 e4m3, widen .cvtF32E5m2 e5m2,
  (.cvtS32F32, fun w gr l =>
    let r := ftoInt fp32 (hwMod w % 4 == 1) (-2147483648) 2147483647 (gr.rv (hwA w) l).toNat
    ((BitVec.ofInt 32 r.1).toNat, r.2)),
  (.cvtU32F32, fun w gr l =>
    let r := ftoInt fp32 (hwMod w % 4 == 1) 0 4294967295 (gr.rv (hwA w) l).toNat
    ((BitVec.ofInt 32 r.1).toNat, r.2)),
  (.cvtF32S32, fun w gr l => fofInt fp32 (gr.rv (hwA w) l).toInt),
  fl1 .cvtF32U32 fun a => fofInt fp32 a] ++ [
  quantise .qmxE2m1 e2m1 dc, quantise .qmxE2m3 e2m3 dc, quantise .qmxE3m2 e3m2 dc,
  (.dqmx, fun w gr l => mxValue (mxSel (hwMod w / 16 % 4)) ((gr.rv (hwB w) l).toNat % 256) (gr.rv (hwA w) l).toNat),
  (.tcvo, fun w gr l => fromTally (tallyFmt w) (hwWindow w) (quad gr (hwA w) l))]

/-- The rows that write a tally. -/
def tallyRows : List (HosCtor × (W64 → Group → Nat → Nat × Flags)) := [
  (.tcvi, fun w gr l => toTally (hwWindow w) (fdecode (tallyFmt w) (fmtBits (tallyFmt w) (gr.rv (hwA w) l)))),
  (.tadd, fun w gr l => (tallyAdd (quad gr (hwA w) l) (quad gr (hwB w) l), 0)),
  (.tneg, fun w gr l => (tallyNeg (quad gr (hwA w) l), 0))]

/-! ### Hostel memory instructions (R172-R174, R193-R195) -/

/-- The bytes that a lane of a load, store, atomic or lock reaches: none of the executing lanes breaks a check, and the block that RANK
names is block slot `k.2` of hostel `k.1` (R148, R193). -/
structure MemReady (s : State) (x : HosCmd) (k : Nat × Nat) : Prop where
  ready : HosReady s x
  block : s.rankBlock x.h.toNat (s.group x.h.toNat x.g.toNat).block (hwRank x.w) = some k
  lanes : ∀ l < 32, Executes s x.h.toNat x.g.toNat x.w l →
    offCause (memOffset x.w (s.group x.h.toNat x.g.toNat) l) (memSize x.w) (memSize x.w) (some (s.blockAt k.1 k.2).size) = none

/-- The DPA that a lane reaches. -/
def laneDpa (s : State) (x : HosCmd) (k : Nat × Nat) (l : Nat) : Nat :=
  storeBase k.1 + (s.blockAt k.1 k.2).alloc + (memOffset x.w (s.group x.h.toNat x.g.toNat) l).toNat

/-- `n` consecutive registers of a lane as one number, lowest first (R184). -/
def regsOf (gr : Group) (r l : Nat) : Nat → Nat
  | 0 => 0
  | n + 1 => (gr.rv r l).toNat + 2 ^ 32 * regsOf gr (r + 1) l n

/-- The loads: the constructor, the registers written, and the value from the bytes read. -/
def loadRows : List (HosCtor × Nat × (Nat → Nat)) := [
  (.ldU8, 1, id), (.ldS8, 1, fun v => ((BitVec.ofNat 8 v).signExtend 32).toNat), (.ldU16, 1, id),
  (.ldS16, 1, fun v => ((BitVec.ofNat 16 v).signExtend 32).toNat), (.ld32, 1, id), (.ld64, 2, id), (.ld128, 4, id)]

/-- The stores. -/
def storeRows : List HosCtor := [.st8, .st16, .st32, .st64, .st128]

/-- The atomics (Table 6.12): the new word from the old one, v_b and v_c, with its flags. -/
def atomRows : List (HosCtor × (Nat → Nat → Nat → Nat × Flags)) :=
  let u := fun (c : HosCtor) (f : W32 → W32 → W32) => (c, fun (o b _ : Nat) => ((f (BitVec.ofNat 32 o) (BitVec.ofNat 32 b)).toNat, (0 : Flags)))
  [u .atomAdd fun o b => o + b, u .atomMin fun o b => if o.slt b then o else b, u .atomMax fun o b => if o.slt b then b else o,
   u .atomMinu fun o b => if o < b then o else b, u .atomMaxu fun o b => if o < b then b else o,
   u .atomAnd fun o b => o &&& b, u .atomOr fun o b => o ||| b, u .atomXor fun o b => o ^^^ b, u .atomExch fun _ b => b,
   (.atomCas, fun o b c => (if o = b then c else o, 0)), (.atomFadd, fun o b _ => fadd fp32 o b), (.atomTadd, fun o b _ => (tallyAdd o b, 0))]

/-- The lanes below `l` that execute and reach the same word as `l`, ascending: they act before it (R194). -/
def before (s : State) (x : HosCmd) (k : Nat × Nat) (l : Nat) : List Nat :=
  (List.range l).filter fun m => (execMask (s.group x.h.toNat x.g.toNat) x.w).getLsbD m && laneDpa s x k m == laneDpa s x k l

/-- The word at lane `l`'s address once the lanes `ms` have acted on it. -/
def wordAfter (s : State) (x : HosCmd) (k : Nat × Nat) (f : Nat → Nat → Nat → Nat × Flags) (l : Nat) (ms : List Nat) : Nat :=
  let gr := s.group x.h.toNat x.g.toNat
  ms.foldl (fun o m => (f o (regsOf gr (hwMB x.w) m (memRegs x.w)) (gr.rv (hwMC x.w) m).toNat).1)
    (s.word (laneDpa s x k l) (memSize x.w))

/-- Only the memory and one group change. -/
def OnlyGroupMem (h g : Nat) (s t : State) : Prop :=
  t = { s with hosGroups := t.hosGroups, mem := t.mem } ∧ ∀ j, j ≠ gkey h g → tabGet {} t.hosGroups j = tabGet {} s.hosGroups j

/-- Every byte that no executing lane reaches reads as before. -/
def LanesOnly (s : State) (x : HosCmd) (k : Nat × Nat) (t : State) : Prop :=
  ∀ a, (∀ l < 32, Executes s x.h.toNat x.g.toNat x.w l → ¬ (laneDpa s x k l ≤ a ∧ a < laneDpa s x k l + memSize x.w)) → t.byte a = s.byte a

/-! ### Hostel tile registers and the array (R145, R152, R196-R198) -/

/-- The fields of a group that a tile instruction leaves alone: all but the tile registers and the pc. -/
def TileWrite (h g : Nat) (m : Nat) (val : Nat → Byte) (s t : State) : Prop :=
  let a := s.group h g
  let b := t.group h g
  OnlyGroup h g s t ∧ b = { a with m := b.m, pc := a.pc + 8 } ∧
    ∀ n i, n < 16 → i < 4096 → b.rm n i = if n = m then val i else a.rm n i

/-- The lane operations of Table 5.4. -/
def laneRows : List HosCtor := [.lfma, .lscale, .lmul, .ladd, .lsub, .lmax, .lmin]

/-- The tile instructions issue: the group is whole (R145). -/
def Whole (s : State) (x : HosCmd) : Prop := (s.group x.h.toNat x.g.toNat).active = (s.group x.h.toNat x.g.toNat).live

/-! ### Porters and steward cores: the check at issue and frames (R205-R207, R215, R221, R229) -/

/-- An instruction of the porter set passes the check at issue. -/
structure PorReady (s : State) (x : PorCmd) : Prop where
  issue : s.porCanIssue x.c = true
  fetch : ∀ n, x.c = .porter n → (s.core x.c).pc.toNat < 65536
  legal : coreLegal x.c x.w = true
  row : pwRow x.w = x.op
  window : porterBadWindow x.w = false
  licensed : Licensed s (porterFeature x.w)
  free : s.porPending x.c x.w = false

/-- The command is an instruction of the porter set that passes the check at issue. -/
def PorIssues (s : State) (i : Instr) : Prop := ∃ x, i.porter = some x ∧ PorReady s x

/-- Nothing but the registers of one core changes. -/
def OnlyCore (c : CoreRef) (s t : State) : Prop :=
  match c with
  | .porter n =>
    t = { s with porters := t.porters } ∧ (∀ m, m ≠ n.toNat → t.porter m = s.porter m) ∧
      t.porter n.toNat = { s.porter n.toNat with core := t.core c }
  | .steward k =>
    t = { s with steward := { s.steward with cores := t.steward.cores } } ∧ (∀ j, j ≠ k.toNat → t.score j = s.score j) ∧
      t.score k.toNat = { s.score k.toNat with core := t.core c }

/-- A core takes the values `gs` in its g registers, `fs` in its f registers and the sticky flags `fl`, and goes on: g0 reads 0, and
every other register is as it was. -/
def CoreGets (a b : Core) (gs fs : List (Nat × W32)) (fl : W32) : Prop :=
  b = { a with g := b.g, f := b.f, flags := a.flags ||| fl, pc := a.pc + 4 } ∧
    (∀ r, b.rg r = if r = 0 then 0 else (gs.lookup r).getD (a.rg r)) ∧ ∀ r, b.rf r = (fs.lookup r).getD (a.rf r)

/-- The instruction only writes registers of its core. -/
def CoreWrites (c : CoreRef) (gs fs : List (Nat × W32)) (fl : W32) (s t : State) : Prop :=
  OnlyCore c s t ∧ CoreGets (s.core c) (t.core c) gs fs fl

/-- The constructor of a row of the porter set. -/
abbrev PorCtor := CoreRef → W32 → Instr

/-! ### Results of the porter set over bit vectors (R216, R222) -/

/-- The 15-bit immediate, sign-extended, and a pair, the low half in the even register. -/
def imm32 (w : W32) : W32 := (w.extractLsb' 17 15).signExtend 32
def pair64 (k : Core) (r : Nat) : W64 := k.rg (r + 1) ++ k.rg r

/-- A pair's two registers. -/
def pairOut (d : Nat) (v : W64) : List (Nat × W32) := [(d, v.extractLsb' 0 32), (d + 1, v.extractLsb' 32 32)]

/-- A row of g_a and g_b, and a row of g_a and the immediate. -/
def pg2 (c : PorCtor) (f : W32 → W32 → W32) : PorCtor × (W32 → Core → List (Nat × W32)) :=
  (c, fun w k => [(pwD w, f (k.rg (pwA w)) (k.rg (pwB w)))])
def pgi (c : PorCtor) (f : W32 → W32 → W32) : PorCtor × (W32 → Core → List (Nat × W32)) :=
  (c, fun w k => [(pwD w, f (k.rg (pwA w)) (imm32 w))])

/-- The g registers that the integer rows write (Tables 7.6 and 7.7). -/
def PorIntRow (row : PorCtor × (W32 → Core → List (Nat × W32))) : Prop := row ∈ [
  pg2 .porAdd fun a b => a + b, pg2 .porSub fun a b => a - b, pg2 .porAnd fun a b => a &&& b, pg2 .porOr fun a b => a ||| b,
  pg2 .porXor fun a b => a ^^^ b, pg2 .porShl fun a b => a <<< (b.toNat % 32), pg2 .porShr fun a b => a >>> (b.toNat % 32),
  pg2 .porSra fun a b => a.sshiftRight (b.toNat % 32), pg2 .porSlt fun a b => if a.slt b then 1 else 0,
  pg2 .porSltu fun a b => if a < b then 1 else 0, pg2 .porMul fun a b => a * b,
  pg2 .porMulhu fun a b => highHalf (a.zeroExtend 64 * b.zeroExtend 64),
  pg2 .porMulhs fun a b => highHalf (a.signExtend 64 * b.signExtend 64),
  (.porMulw, fun w k => pairOut (pwD w) ((k.rg (pwA w)).zeroExtend 64 * (k.rg (pwB w)).zeroExtend 64))] ++ [
  pg2 .porMin fun a b => if a.slt b then a else b, pg2 .porMax fun a b => if a.slt b then b else a,
  pg2 .porMinu fun a b => if a < b then a else b, pg2 .porMaxu fun a b => if a < b then b else a,
  pg2 .porDivu quotU, pg2 .porDivs quotS, pg2 .porRemu restU, pg2 .porRems restS,
  pg2 .porClz fun a _ => leadingZeros a, pg2 .porPopc fun a _ => oneBits a,
  (.porAddp, fun w k => pairOut (pwD w) (pair64 k (pwA w) + pair64 k (pwB w))),
  (.porSubp, fun w k => pairOut (pwD w) (pair64 k (pwA w) - pair64 k (pwB w)))] ++ [
  pgi .porAddi fun a b => a + b, pgi .porAndi fun a b => a &&& b, pgi .porOri fun a b => a ||| b, pgi .porXori fun a b => a ^^^ b,
  pgi .porSlti fun a b => if a.slt b then 1 else 0, pgi .porSltiu fun a b => if a < b then 1 else 0,
  pgi .porShli fun a b => a <<< b.toNat, pgi .porShri fun a b => a >>> b.toNat, pgi .porSrai fun a b => a.sshiftRight b.toNat,
  (.porLui, fun w _ => [(pwD w, w.extractLsb' 12 20 ++ 0#12)]),
  (.porAddpi, fun w k => pairOut (pwD w) (pair64 k (pwA w) + (w.extractLsb' 17 15).signExtend 64)),
  (.porCrcw, fun w k => [(pwD w, BitVec.ofNat 32 (crcBytes (k.rg (pwA w)).toNat (leBytes 4 (k.rg (pwB w)).toNat)))])]

/-! ### Floating results of the porter set (R218-R220), by the exact arithmetic of Machine/Float.lean -/

/-- What a floating row gives a core: its g registers, its f registers and its flags. -/
abbrev PorFl := W32 → Core → List (Nat × W32) × List (Nat × W32) × Flags

/-- An f register in the format of the opcode: FP32, or BF16 in bits 15:0. -/
def pf (w : W32) (k : Core) (r : Nat) : Nat := if pwOp w = 0x31 then (k.rf r).toNat % 65536 else (k.rf r).toNat

/-- A result into f_d, or into g_d, with its flags. -/
def toF (c : PorCtor) (f : W32 → Core → Nat × Flags) : PorCtor × PorFl :=
  (c, fun w k => ([], [(pwD w, BitVec.ofNat 32 (f w k).1)], (f w k).2))
def toG (c : PorCtor) (f : W32 → Core → Nat × Flags) : PorCtor × PorFl :=
  (c, fun w k => ([(pwD w, BitVec.ofNat 32 (f w k).1)], [], (f w k).2))

/-- A comparison: 1 where it holds. -/
def fcond (cc : Nat) (w : W32) (k : Core) : Nat × Flags :=
  (if fcompare (pFmt w) cc (pf w k (pwA w)) (pf w k (pwB w)) then 1 else 0, 0)

/-- The rounding of a conversion on a core whose leg has a seed and a step: by dither under OP 0x33, at the DVA in the pair C. -/
def porRnd (ds : Nat × Nat) (w : W32) (k : Core) : Rnd :=
  if pwOp w = 0x33 then .dither (ditherOf ds.1 ((pair64 k (pwC w)).toNat % 2 ^ 57) ds.2) else .rne

/-- The scale of one magnitude; an element under a scale; and an element's value. -/
def mxScaleOf (f : Fmt) (w : W32) (k : Core) : Nat × Flags :=
  match mxScale f [fdecode fp32 (k.rf (pwA w)).toNat] with
  | some sc => (sc, 0)
  | none => (255, flInvalid)
def mxQuant (f : Fmt) (ds : Nat × Nat) (w : W32) (k : Core) : Nat × Flags :=
  let sc := (k.rg (pwB w)).toNat % 256
  if sc = 255 then (0, flInvalid) else mxElem f sc (porRnd ds w k) (fdecode fp32 (k.rf (pwA w)).toNat)
def mxOf (f : Fmt) (w : W32) (k : Core) : Nat × Flags := mxValue f ((k.rg (pwB w)).toNat % 256) (k.rg (pwA w)).toNat

/-- An INT32 of an FP32 value. -/
def intOf (rz : Bool) (w : W32) (k : Core) : Nat × Flags :=
  let r := ftoInt fp32 rz (-2147483648) 2147483647 (k.rf (pwA w)).toNat
  ((BitVec.ofInt 32 r.1).toNat, r.2)

/-- The floating rows; `ds` is the seed and step of the core's leg. -/
def PorFloatRow (ds : Nat × Nat) (row : PorCtor × PorFl) : Prop := row ∈ [
  toF .porFadd fun w k => fadd (pFmt w) (pf w k (pwA w)) (pf w k (pwB w)),
  toF .porFsub fun w k => fsub (pFmt w) (pf w k (pwA w)) (pf w k (pwB w)),
  toF .porFmul fun w k => fmul (pFmt w) (pf w k (pwA w)) (pf w k (pwB w)),
  toF .porFfma fun w k => ffma (pFmt w) (pf w k (pwA w)) (pf w k (pwB w)) (pf w k (pwC w)),
  toF .porFmin fun w k => fmin (pFmt w) (pf w k (pwA w)) (pf w k (pwB w)),
  toF .porFmax fun w k => fmax (pFmt w) (pf w k (pwA w)) (pf w k (pwB w)),
  toF .porFdiv fun w k => fdiv (pFmt w) (pf w k (pwA w)) (pf w k (pwB w)),
  toF .porFsqrt fun w k => fsqrt (pFmt w) (pf w k (pwA w)),
  toF .porFabs fun w k => (fabsBits (pFmt w) (pf w k (pwA w)), 0),
  toF .porFneg fun w k => (fnegBits (pFmt w) (pf w k (pwA w)), 0),
  toG .porFeq (fcond 0), toG .porFlt (fcond 2), toG .porFle (fcond 3),
  toG .porFmvG fun w k => (pf w k (pwA w), 0),
  toF .porFmvF fun w k => (if pwOp w = 0x31 then (k.rg (pwA w)).toNat % 65536 else (k.rg (pwA w)).toNat, 0)] ++ [
  toF .porCvtBf16F32 fun w k => fconvert bf16 fp32 (porRnd ds w k) (k.rf (pwA w)).toNat,
  toF .porCvtF32Bf16 fun w k => fconvert fp32 bf16 .rne ((k.rf (pwA w)).toNat % 65536),
  toG .porCvtE4m3F32 fun w k => fconvert e4m3 fp32 (porRnd ds w k) (k.rf (pwA w)).toNat,
  toG .porCvtE5m2F32 fun w k => fconvert e5m2 fp32 (porRnd ds w k) (k.rf (pwA w)).toNat,
  toF .porCvtF32E4m3 fun w k => fconvert fp32 e4m3 .rne ((k.rg (pwA w)).toNat % 256),
  toF .porCvtF32E5m2 fun w k => fconvert fp32 e5m2 .rne ((k.rg (pwA w)).toNat % 256),
  toG .porCvtS32F32 (intOf false), toG .porCvtS32F32Rz (intOf true),
  toF .porCvtF32S32 fun w k => fofInt fp32 (k.rg (pwA w)).toInt] ++ [
  toG .porMxscE2m1 (mxScaleOf e2m1), toG .porMxscE2m3 (mxScaleOf e2m3), toG .porMxscE3m2 (mxScaleOf e3m2),
  toG .porMxqE2m1 (mxQuant e2m1 ds), toG .porMxqE2m3 (mxQuant e2m3 ds), toG .porMxqE3m2 (mxQuant e3m2 ds),
  toF .porMxdE2m1 (mxOf e2m1), toF .porMxdE2m3 (mxOf e2m3), toF .porMxdE3m2 (mxOf e3m2)]

/-! ### Local memory of a porter (R209, R216, R217, R221) -/

/-- The address of a load, g_a plus the immediate, and of a store, whose immediate lies in two fields. -/
def loadAddr (w : W32) (k : Core) : Nat := (k.rg (pwA w) + imm32 w).toNat
def storeAddr (w : W32) (k : Core) : Nat := (k.rg (pwA w) + (w.extractLsb' 22 10 ++ w.extractLsb' 7 5).signExtend 32).toNat

/-- The loads: size, and the registers that the number read goes to. -/
def PorLoadRow (row : PorCtor × Nat × (W32 → Nat → List (Nat × W32) × List (Nat × W32))) : Prop := row ∈ [
  (.porLdB, 1, fun w v => ([(pwD w, (BitVec.ofNat 8 v).signExtend 32)], [])),
  (.porLdBu, 1, fun w v => ([(pwD w, BitVec.ofNat 32 v)], [])),
  (.porLdH, 2, fun w v => ([(pwD w, (BitVec.ofNat 16 v).signExtend 32)], [])),
  (.porLdHu, 2, fun w v => ([(pwD w, BitVec.ofNat 32 v)], [])),
  (.porLdW, 4, fun w v => ([(pwD w, BitVec.ofNat 32 v)], [])),
  (.porLdD, 8, fun w v => (pairOut (pwD w) (BitVec.ofNat 64 v), [])),
  (.porLdf, 4, fun w v => ([], [(pwD w, BitVec.ofNat 32 v)]))]

/-- The stores: size, and the number stored. -/
def PorStoreRow (row : PorCtor × Nat × (W32 → Core → Nat)) : Prop := row ∈ [
  (.porStB, 1, fun w k => (k.rg (pwB w)).toNat % 2 ^ 8), (.porStH, 2, fun w k => (k.rg (pwB w)).toNat % 2 ^ 16),
  (.porStW, 4, fun w k => (k.rg (pwB w)).toNat), (.porStD, 8, fun w k => (pair64 k (pwB w)).toNat),
  (.porStf, 4, fun w k => (k.rf (pwB w)).toNat)]

/-- An access of `n` bytes lies in local memory, aligned to its size. -/
def LocalOk (a n : Nat) : Prop := a + n ≤ 65536 ∧ a % n = 0

/-- Only one core and the memory change, the memory within `n` bytes from `a`. -/
def CoreStores (c : CoreRef) (a n : Nat) (v : Nat) (fl : W32) (s t : State) : Prop :=
  OnlyCore c { s with mem := t.mem } t ∧ CoreGets (s.core c) (t.core c) [] [] fl ∧ SameMemBut a n s t ∧ t.word a n = v

/-! ### Packets of the porter mesh (R99, R223, R228, R233) -/

/-- A packet of `n` flits enters the mesh at an end on a channel, its contents in the last flit, and nothing else of the mesh changes. -/
def Sends (vc : Nat) (src : MeshEnd) (dst : MeshDst) (n : Nat) (body : MeshBody) (s t : State) : Prop :=
  ∃ l : List Flit, ∃ z : Flit, l.length + 1 = n ∧
    (∀ f ∈ l, f.src = src ∧ f.dst = dst ∧ f.pkt = s.mesh.nextPkt ∧ f.last = false ∧ f.body = none) ∧
    z.src = src ∧ z.dst = dst ∧ z.pkt = s.mesh.nextPkt ∧ z.last = true ∧ z.body = some body ∧
    t.mesh = { s.mesh with queues := t.mesh.queues, nextPkt := s.mesh.nextPkt + 1 } ∧
    ∀ k, tabGet [] t.mesh.queues k =
      if k = queueKey src.router (if src.att then 5 else 4) vc then tabGet [] s.mesh.queues k ++ l ++ [z] else tabGet [] s.mesh.queues k

/-- The packet sent to an end when it has taken a packet `b` that meets `p`, and the state with that packet taken: the first one that meets
`p` goes. -/
def Takes (e : MeshEnd) (p : MeshBody → Bool) (b : MeshBody) (s u : State) : Prop :=
  ∃ l vc r, s.inbox e = l ++ (vc, b) :: r ∧ (∀ x ∈ l, p x.2 = false) ∧ p b = true ∧ u = s.setInbox e (l ++ r)

/-- POR.STATUS with SLOTS and DRAINED following the number of taken slots. -/
def slotStatus (v : W64) (k : Nat) : W64 := fldPut (fldPut v POR.STATUS_SLOTS k) POR.STATUS_DRAINED (if k = 0 then 1 else 0)

/-- A porter's request takes its slot `i`, is counted, leaves as a packet, and the porter goes on (R223, R228). -/
def Requests (n i : Nat) (r : PorReq) (vc flits : Nat) (dst : MeshEnd) (body : MeshBody) (s t : State) : Prop :=
  t = { s with porters := t.porters, regs := t.regs, mesh := t.mesh } ∧ (∀ m, m ≠ n → t.porter m = s.porter m) ∧
    (let a := s.porter n
     let b := t.porter n
     b = { a with slots := b.slots, core := { a.core with pc := a.core.pc + 4 } } ∧
       (∀ j, tabFind b.slots j = if j = i then some { r with id := (s.reg (POR.REQ_COUNT n)).toNat } else tabFind a.slots j) ∧
       t.reg (POR.STATUS n) = slotStatus (s.reg (POR.STATUS n)) (a.slots.length + 1)) ∧
    SameRegs [POR.STATUS n, POR.REQ_COUNT n] s t ∧ t.reg (POR.REQ_COUNT n) = s.reg (POR.REQ_COUNT n) + 1 ∧
    Sends vc (coreEnd n) (.one dst) flits body s t

/-- The completion word that C names is aligned and lies in local memory. -/
def ComplOk (k : Core) (w : W32) : Prop := pwC w ≠ 0 → (k.rg (pwC w)).toNat % 4 = 0 ∧ (k.rg (pwC w)).toNat + 4 ≤ 65536

/-- A far request of a porter: its row, the length, the offset in local memory and whether the request moves local bytes, the alignment
of its addresses, what it does at memory, and the bytes that it carries. -/
structure FarRow where
  instr : Instr
  op : Nat
  dst : Nat
  n : Nat
  moves : Bool
  al : Nat
  acc : AccOp
  data : List Byte

/-- Whether the length of a request, its alignment, and its place in local memory are as R224 and R209 ask. -/
def FarRow.lenOk (r : FarRow) (dva : Nat) : Prop := (r.moves = true → 4 ≤ r.n ∧ r.n ≤ 4096 ∧ r.n % 4 = 0) ∧ dva % 4096 + r.n ≤ 4096
def FarRow.alignOk (r : FarRow) (dva : Nat) (k : Core) (w : W32) : Prop :=
  dva % r.al = 0 ∧ (r.moves = true → r.dst % r.al = 0) ∧ (pwC w ≠ 0 → (k.rg (pwC w)).toNat % 4 = 0)
def FarRow.placeOk (r : FarRow) (k : Core) (w : W32) : Prop :=
  (r.moves = true → r.dst + r.n ≤ 65536) ∧ (pwC w ≠ 0 → (k.rg (pwC w)).toNat + 4 ≤ 65536)

/-- The far requests of Table 7.10 as a porter issues them. -/
def IsFarRow (n : BitVec 12) (w : W32) (s : State) (r : FarRow) : Prop :=
  let c := CoreRef.porter n
  let k := s.core c
  let wide := pwTY w = 1
  let fl := if wide then 8 else 4
  let len := (k.rg (pwB w)).toNat
  let loc := (k.rg (pwD w)).toNat
  let out := s.bytes (porterBase n.toNat + loc) len
  r ∈ [{ instr := .porFld c w, op := 0x40, dst := pwD w, n := fl, moves := false, al := 4, acc := .read, data := [] },
       { instr := .porFst c w, op := 0x41, dst := pwD w, n := fl, moves := false, al := 4, acc := .write,
         data := leBytes fl (if wide then (pair64 k (pwB w)).toNat else (k.rg (pwB w)).toNat) },
       { instr := .porFget c w, op := 0x42, dst := loc, n := len, moves := true, al := 4, acc := .read, data := [] },
       { instr := .porFput c w, op := 0x43, dst := loc, n := len, moves := true, al := 4, acc := .write, data := out },
       { instr := .porFred c w, op := 0x44, dst := loc, n := len, moves := true, al := fredAlign (pwTY w), acc := .add (pwTY w), data := out },
       { instr := .porTaud c w, op := 0x45, dst := pwD w, n := 0, moves := false, al := 4, acc := .audit, data := [] }]

/-- A core goes to an address, with a link in its g registers. -/
def Jumps (c : CoreRef) (a : Nat) (gs : List (Nat × W32)) (s t : State) : Prop :=
  OnlyCore c s t ∧ t.core c = { s.core c with g := (t.core c).g, pc := BitVec.ofNat 32 a } ∧
    ∀ r, (t.core c).rg r = if r = 0 then 0 else (gs.lookup r).getD ((s.core c).rg r)

/-- The branches of Table 7.7. -/
def PorBranchRow (row : PorCtor × (W32 → W32 → Bool)) : Prop := row ∈ [
  (.porBeq, fun a b => a == b), (.porBne, fun a b => a != b), (.porBlt, fun a b => a.slt b), (.porBge, fun a b => !a.slt b),
  (.porBltu, fun a b => a.ult b), (.porBgeu, fun a b => !a.ult b)]

/-- A packet to the dispatcher or the steward. -/
def Notifies (n : Nat) (body : MeshBody) (s t : State) : Prop := Sends 3 (coreEnd n) (.one stewardEnd) 1 body s t

/-! ### The steward's memory (R423-R425) -/

/-- The DPA of a steward core's access: SEG_HI above the 32-bit address. -/
def segDpa (s : State) (k : Nat) (a : Nat) : Nat := (tabGet 0 (s.score k).csr 0x10).toNat % 65536 * 2 ^ 32 + a

/-- The bytes of a line that an enabled way of the L2 holds without a stored error. -/
def L2Holds (s : State) (l : Nat) (d : List Byte) : Prop :=
  ∃ w e, s.l2Way l = some w ∧ s.l2Line l w = some e ∧ e.data = d ∧ e.err = 0

/-- Every line of the L2 stands in a way of its set, no line stands twice, no way that holds one is off, and no stored error is left. -/
def L2Ok (s : State) : Prop :=
  (s.steward.lines.map (·.1)).Nodup ∧
  ∀ e ∈ s.steward.lines, ∃ v, e.2 = some v ∧ v.err = 0 ∧ e.1 = wayKey v.line (e.1 % 16) ∧ s.wayOff (e.1 % 16) = false ∧
    ∀ e' ∈ s.steward.lines, ∀ v', e'.2 = some v' → v'.line = v.line → e'.1 = e.1

/-! ### Events, guestbook entries and interrupts (R482-R490) -/

/-- One new entry of a kind, cause and source, stamped now, waits for its commit; nothing else of the guestbook changes. -/
def Logs (kind cause source : Nat) (s t : State) : Prop :=
  ∃ e, t.guestbook = { s.guestbook with waiting := s.guestbook.waiting ++ [e] } ∧ e.kind = kind ∧ e.cause = cause ∧ e.source = source ∧
    e.stamp = s.etc

/-- An interrupt cause is pending. -/
def Raised (k : Nat) (t : State) : Prop := bitOf (t.reg GB.IRQ_STATUS).toNat k = true

/-- A write of four or eight bytes at an offset turns the register there into `f` of its value, and nothing else changes. -/
def WritesReg (who : Writer) (off : Nat) (wide : Bool) (v : W64) (f : W64 → W64) (s : State) : Prop :=
  s.mayWrite who off = true → Runs (.registerWrite who (BitVec.ofNat 26 off) wide v) s fun t =>
    t = { s with regs := t.regs } ∧ SameRegs [off] s t ∧ t.reg off = f (s.reg off)

/-- A register's field takes a value, and nothing else of it changes. -/
def fieldIs (t s : State) (r : Nat) (f : Fld) (v : Nat) : Prop := t.reg r = fldPut (s.reg r) f v

/-! ### The shared buffer and the crossroads (R39-R57, R66-R98) -/

/-- A slice has no background work. -/
def SliceIdle (s : State) (sl : Nat) : Prop :=
  s.sliceHere sl = false ∨ (let v := s.slice sl
    v.bgR = [] ∧ v.bgW = [] ∧ v.rmw = [] ∧ v.corrQ = [] ∧ v.scrubHeld = [] ∧ s.scrubActive sl = false)

/-- The `n` bytes from `a` lie in one tile that is there, is not poisoned and holds no error in them. -/
def TileGood (s : State) (a n : Nat) : Prop :=
  0 < n ∧ a % 4096 + n ≤ 4096 ∧ s.tileGone (a / 4096) = false ∧ (s.tile (a / 4096)).poisoned = false ∧ s.reserveShut a n = false ∧
    ∀ wd ∈ wordsOf a n, s.bufWordErr wd = 0

/-- No upper site holds anything, no courier channel exists, no beat stands on the seam or waits to be completed, and no transfer waits at a port
but those of `q`. -/
def PortsFree (s : State) (q : List XPort) : Prop :=
  s.couriers.chans = [] ∧ s.uppers = [] ∧ (∀ sl, redFirst (s.slice sl).red = none) ∧
    ∀ h < 2, (∀ k, tabGet [] (s.half h).seam k = []) ∧ ((s.half h).ops.map (·.1)).Nodup ∧ ∀ x ∈ (s.half h).ops, ⟨h, x.1⟩ ∈ q

/-- The timetable of a half names one meeting alone at a slot: a column of the shared buffer, a direction, an entry. -/
def OneMeeting (s : State) (e t col d : Nat) (x : TtEntry) : Prop :=
  col < 48 ∧ reservedSlot t col = false ∧ s.bankEntry e (s.bankAt e t) t col d = some x ∧
    s.slotEntries e (s.bankAt e t) (t % 4096) = [(col, d, x)]

/-- A half reaches slot `t` free to run it. -/
def SlotRuns (s : State) (e t : Nat) : Prop :=
  s.running = true ∧ s.nowSlot e = t ∧ s.realignWaits e = false ∧ s.mustHold e t = false ∧
    ∀ col < 48, reservedSlot t col = true → SliceIdle s (48 * e + col)

/-- The slot counter of a half is one on, the period counter with its wrap (R66). -/
def SlotOn (s t : State) (e : Nat) : Prop :=
  t.nowSlot e = (s.nowSlot e + 1) % 2 ^ 76 ∧ t.fld (XR.TT_SLOT e) XR.TT_SLOT_SLOT = (s.fld (XR.TT_SLOT e) XR.TT_SLOT_SLOT + 1) % 4096

/-! ### Couriers (R241-R264) -/

/-- A channel has nothing under way. -/
def ChanIdle (v : Chan) : Prop :=
  v.moving = false ∧ v.jobs = [] ∧ v.reads = [] ∧ v.stopping = false ∧ v.parkKind = 0 ∧ v.arrOut = false ∧ v.arrCause = 0

/-- A channel becomes `w`, but for the pages that it has looked up ahead (R249). -/
def ChanIs (c ch : Nat) (w : Chan) (t : State) : Prop :=
  t.chan c ch = { w with ahead := (t.chan c ch).ahead, asked := (t.chan c ch).asked }

/-- A descriptor that no leg queued, and that hashes nothing. -/
def Plain (d : Desc) : Prop := (d.by_ = .driver ∨ d.by_ = .steward) ∧ d.launch = 0 ∧ d.hash = false ∧ d.op ≠ oHASH ∧ d.prov = false

/-! ### The central translation unit and the mesh (R99-R102, R210, R211, R265-R294) -/

/-- The look-aside arrays translate an address, and by one translation alone. -/
def CtuHolds (c : Ctu) (ast dva : Nat) (x : Trans) : Prop :=
  (∃ a < 3, ∃ e ∈ tabGet [] (c.array a) (tlbSet a ast dva), e.hits ast dva = true) ∧
    ∀ a < 3, ∀ e ∈ tabGet [] (c.array a) (tlbSet a ast dva), e.hits ast dva = true → e.t = x

/-- They do not translate it. -/
def CtuMisses (c : Ctu) (ast dva : Nat) : Prop :=
  ∀ a < 3, ∀ e ∈ tabGet [] (c.array a) (tlbSet a ast dva), e.hits ast dva = false

/-- No walk is in progress on a lookup's frame. -/
def NoWalkOn (s : State) (q : Lookup) : Prop :=
  ∀ i < 16, ∀ w, s.walk i = some w → ¬ (w.ast = q.ast ∧ w.dva / 4096 % 2 ^ 45 = q.dva / 4096 % 2 ^ 45)

/-- A request at a translation stop has its answer, and no other stop changes. -/
def StopAnswered (k id : Nat) (a : Answer) (s t : State) : Prop :=
  (∀ j, j ≠ k → t.stop j = s.stop j) ∧
    t.stop k = { s.stop k with reqs := (s.stop k).reqs.map fun r => if r.id = id then { r with ans := some a } else r }

/-- The translation of a leaf entry that joins no run (Table 9.1). -/
def leafOf (level dva e : Nat) : Trans :=
  { va := dva / 2 ^ (12 + 9 * level) * 2 ^ (12 + 9 * level), pa := bitsOf e 47 12 * 4096, log2 := 12 + 9 * level,
    r := bitOf e 3, w := bitOf e 4, key := bitsOf e 10 5 }

/-- No pending fault waits for the fault queue. -/
def NoRecordWaits (s : State) : Prop := ∀ e ∈ s.ctu.pending, ∀ p, e.2 = some p → p.record ≠ 1

/-- The priority of a virtual channel (R101). -/
def vcRank (vc : Nat) : Nat := if vc = 3 then 0 else if vc = 1 then 1 else if vc = 2 then 2 else 3

/-! ### Memory sites (R295-R325) -/

/-- A site takes an access of `n` bytes under a key, and no stored error stands in the granules that it touches (R298, R308, R315, R319). -/
def SiteOk (s : State) (i a n key : Nat) : Prop :=
  0 < n ∧ s.flag (MEM.STATUS i) MEM.STATUS_PRESENT = true ∧ s.siteEnabled i = true ∧ siteBase i ≤ a ∧
    a + n ≤ siteBase i + s.siteBytes i ∧ bitOf (s.reg (MEM.KEY_VALID i)).toNat key = true ∧
    (∀ x, (a - siteBase i) / 4096 ≤ x → x ≤ (a + n - 1 - siteBase i) / 4096 → (s.site i).retiredTile x = false) ∧
    ∀ wd, a / 64 ≤ wd / 8 → wd / 8 ≤ (a + n - 1) / 64 → tabGet 0 s.wordErr wd = 0

/-- A site has no other work in its trackers. -/
def SiteQuiet (v : Site) : Prop := v.planned = [] ∧ v.adds = [] ∧ v.mesh = []

/-- Only one memory site's own state and the listed registers change. -/
def OnlySite (i : Nat) (v : Site) (l : List Nat) (s t : State) : Prop :=
  t = { s with sites := t.sites, regs := t.regs, guestbook := t.guestbook, pcie := t.pcie } ∧ SameRegs l s t ∧ t.site i = v ∧
    ∀ j, j ≠ i → t.site j = s.site j

/-! ### Oxlux ports (R326-R362) -/

/-- A port's own state becomes `o`, and of the registers only those listed change. -/
def OnlyOx (n : Nat) (o : Oxlux) (l : List Nat) (s t : State) : Prop :=
  t = { s with ox := t.ox, regs := t.regs, guestbook := t.guestbook } ∧ SameRegs l s t ∧ t.oxl n = o ∧ ∀ j, j ≠ n → t.oxl j = s.oxl j

/-- A port is in a training state, and UP says whether that is ACTIVE (Table 11.3). -/
def OxStands (n st : Nat) (t : State) : Prop := t.oxState n = st ∧ t.flag (OX.STATUS n) OX.STATUS_UP = (if st = 6 then true else false)

/-- Lanes `a` to `a + 2 ^ c - 1` have all locked, at an aligned place (R331). -/
def GroupLocked (locked : BitVec 8) (c a : Nat) : Prop := a % 2 ^ c = 0 ∧ a + 2 ^ c ≤ 8 ∧ ∀ l, a ≤ l → l < a + 2 ^ c → locked.getLsbD l = true

/-- The first packet of a channel, with a header of this opcode and nothing reserved set, stands in the port's receive buffer. -/
def RxFirst (s : State) (n vc opc : Nat) (p : OxRx) (rest : List OxRx) : Prop :=
  tabGet [] (s.oxl n).rx vc = p :: rest ∧ (hdrOf p.head).opc = opc ∧ hdrClean p.head = true ∧ p.drop = false

/-- That packet leaves the buffer and its flits' credits are owed (R348). -/
def RxTaken (n vc : Nat) (p : OxRx) (rest : List OxRx) (s t : State) : Prop :=
  tabGet [] (t.oxl n).rx vc = rest ∧ tabGet 0 (t.oxl n).owe vc = tabGet 0 (s.oxl n).owe vc + p.payload.length

/-- A response of one flit joins the queue of its channel: ACK, or READ_RESP to a read, with a status (R353). -/
def OxAnswers (n : Nat) (h : OxHdr) (cause : Nat) (s t : State) : Prop :=
  tabGet [] (t.oxl n).pkts 1 = tabGet [] (s.oxl n).pkts 1 ++
    [{ payload := [({ opc := if h.opc = 1 then 0x81 else 0x82, tag := h.tag, len := h.len, status := cause } : OxHdr).bytes []] }]

/-! ### Upper sites (R363-R390) -/

/-- The final flit of a command that ends in a cause (R378), stamped with the slot counter of the site's half. -/
def upFinal (s : State) (n tag : Nat) (write : Bool) (cause : Nat) : BitVec 2176 :=
  let slot := s.fld (XR.TT_SLOT (n / 2)) XR.TT_SLOT_SLOT
  if write then upFlit { ckind := 3, ctag := tag, cstatus := cause, slot := slot } []
  else upFlit { pkind := 2, ptag := tag, pbeat := 15, pstatus := cause, slot := slot } []

/-- A header that a die may send: its tags and tile fit their fields, and what is reserved is zero. -/
def HdrFits (h : UpHdr) : Prop :=
  h.ptag < 64 ∧ h.pbeat < 16 ∧ h.ctag < 64 ∧ h.ctile < 2 ^ 18 ∧ h.code < 2 ^ 32 ∧ h.slot = 0 ∧ h.reserved = 0 ∧ h.pkind < 3 ∧ h.ckind < 3

/-- An aperture in force grants the tile (R370). -/
def Granted (s : State) (n tile : Nat) (write : Bool) : Prop :=
  ∃ i < 8, s.flag (UP.APERTURE n i) UP.APERTURE_VALID = true ∧ s.fld (UP.APERTURE n i) UP.APERTURE_BASE_TILE ≤ tile ∧
    tile ≤ s.fld (UP.APERTURE n i) UP.APERTURE_LIMIT_TILE ∧ tile < 196608 ∧
    s.flag (UP.APERTURE n i) (if write then UP.APERTURE_WR else UP.APERTURE_RD) = true

/-- A sideband message of a type, whose CRC is right. -/
def SbIs (msg : BitVec 256) (ty : Nat) : Prop := sbCrcOk msg = true ∧ sbType msg = ty

/-- The supply of a site is off and its ports are out of service. -/
def UpOff (n : Nat) (t : State) : Prop :=
  (t.upper n).phase = 0 ∧ (t.upper n).rstN = false ∧ (t.upper n).pg = false ∧ t.flag (UP.STATUS n) UP.STATUS_POWERED = false ∧
    t.fld (UP.PORTS n) UP.PORTS_ACTIVE = 0 ∧ t.reg (PT.RAIL (18 + n)) = 0

/-- One bit of a field takes a value, and no other bit of it changes. -/
def BitIs (s t : State) (r : Nat) (f : Fld) (k : Nat) (b : Bool) : Prop :=
  ∀ j < 32, bitOf (t.fld r f) j = if j = k then b else bitOf (s.fld r f) j
/-! ### Launches, the dispatcher and milestones (R409-R447) -/

/-- A launch's semaphore word lies in a tile of the buffer that takes it. -/
def SemGood (s : State) (k : Nat) : Prop :=
  let a := s.fld (LNCH.SEM k) LNCH.SEM_DPA / 8 * 8
  a < 0x30000000 ∧ TileGood s a 8 ∧ (s.slice (sliceOf (a / 4096)).1).rmw = []

/-- A launch slot enters a state with a cause: its LAUNCH entry is logged and its semaphore word written (R437, R446, R447). -/
def Ends (k st cause : Nat) (s t : State) : Prop :=
  t.slotState k = st ∧ t.fld (LNCH.STATUS k) LNCH.STATUS_CAUSE = cause ∧ Logs kLAUNCH cause (srcOf 11 0) s t ∧
    t.word (s.fld (LNCH.SEM k) LNCH.SEM_DPA / 8 * 8) 8 =
      (t.launch k).stepsDone % 2 ^ 48 + cause * 2 ^ 48 + st * 2 ^ 56

/-- The groups of a launch stop, and no other group changes. -/
def GroupsStop (l : BitVec 16) (s t : State) : Prop :=
  ∀ h g, t.group h g = if (s.group h g).used = true ∧ (s.group h g).launch = l then { s.group h g with stopped := true } else s.group h g

/-- The context of a launch slot starts to be killed for a cause (R446, R482). -/
def Kills (k cause source : Nat) (s t : State) : Prop :=
  t.fld (LNCH.STATUS k) LNCH.STATUS_CAUSE = cause ∧ t.slotState k = s.slotState k ∧ (t.launch k).killing = true ∧ Raised iKILL t ∧
    Logs kKILL cause source s t ∧ GroupsStop (s.launchId k) s t ∧ t.mem = s.mem

/-- No courier channel exists, and nothing waits at the CTU. -/
def NothingWaits (s : State) : Prop :=
  s.couriers.chans = [] ∧ s.ctu.waiting = [] ∧ s.ctu.missed = [] ∧ ∀ i < 64, s.pend i = none

/-- The steward has stopped a context: its arrivals are dropped, its groups stopped, and a kill notice goes to its porters. -/
def ContextStops (k : Nat) (s t : State) : Prop :=
  t.launch k = { s.launch k with killing := true, killSent := true } ∧ t.mileMsgs = s.mileMsgs.filter (fun m => m.slot != k) ∧
    GroupsStop (s.launchId k) s t ∧ t.mem = s.mem ∧ (s.launchPorters k = [] → t.mesh = s.mesh) ∧
    (s.launchPorters k ≠ [] → (∀ n ∈ s.launchPorters k, n < 4096) → ∃ rows cols : W64,
      (∀ n ∈ s.launchPorters k, rows.getLsbD (n / 64) = true ∧ cols.getLsbD (n % 64) = true) ∧
      Sends 3 stewardEnd (.many rows cols) 1 (.kill (s.launchId k)) { s with mesh := { s.mesh with acks := t.mesh.acks } } t)

/-- A step of a launch begins: every leg unstarted, no milestone reached, no batch digest but that of no stream (R133, R445). -/
def stepStart (l : Launch) : Launch :=
  { l with runs := l.legs.map LegEntry.fresh, mileRuns := l.miles.map fun _ => {}, dbatch := digNum (sha384 [4]), closing := false,
           tallyRange := false }

/-- The launch has no stream, its milestones expect an arrival each, and no message is held: a step begins with nothing to do but decide
its legs. -/
def PlainStep (s : State) (l : Launch) : Prop := s.disp.held = [] ∧ l.streams = [] ∧ ∀ m ∈ l.miles, m.expect ≠ 0

/-- A milestone of a launch that runs: its place, its entry and its record. -/
def MileOn (s : State) (k j : Nat) (m : MileEntry) (r : MileRun) : Prop :=
  s.slotState k = 2 ∧ (s.launch k).killing = false ∧ s.mileIdx k m.id = some j ∧ s.mileAt k j = some m ∧
    (s.launch k).mileRuns[j]? = some r

/-- Only the record of one milestone changes, and its steward messages. -/
def MileIs (k j : Nat) (r : MileRun) (msgs : Nat → List (List Byte)) (s t : State) : Prop :=
  t = { s with launches := t.launches, stewardTx := t.stewardTx } ∧
    t.launch k = { s.launch k with mileRuns := listUpd (fun _ => r) (s.launch k).mileRuns j } ∧ (∀ i, i ≠ k → t.launch i = s.launch i) ∧
    ∀ x, tabGet [] t.stewardTx x = tabGet [] s.stewardTx x ++ msgs x

/-- The message of Table 14.8, in 64 bytes. -/
def mileBytes (s : State) (k id ty : Nat) : List Byte :=
  padTo 64 ([BitVec.ofNat 8 ty, 0] ++ leBytes 2 id ++ leBytes 4 (s.fld (LNCH.JOB k) LNCH.JOB_TAG) ++ leBytes 8 (s.launch k).step.toNat ++
    leBytes 2 (s.fld GLB.NODE_ID GLB.NODE_ID_NODE))

/-- A command releases a milestone: RELEASE goes to every child port, the step milestone closes the step, and legs are decided (R411,
R442, R445). -/
def Releases (i : Instr) (k j : Nat) (m : MileEntry) (r : MileRun) (s u : State) : Prop :=
  ∃ v : State, exec i s = .next v.admitLegs ∧ v = { u with launches := v.launches, stewardTx := v.stewardTx } ∧
    v.launch k = { u.launch k with
      mileRuns := listUpd (fun _ => { r with released := true }) (u.launch k).mileRuns j,
      closing := (u.launch k).closing || decide ((u.launch k).stepMile = m.id) } ∧
    (∀ i, i ≠ k → v.launch i = u.launch i) ∧
    ∀ x, tabGet [] v.stewardTx x = tabGet [] u.stewardTx x ++
      (if m.kind = 1 ∧ x < 16 ∧ bitOf m.children x = true then [mileBytes s k m.id 0x11] else [])

/-- No thermal zone waits for a milestone. -/
def NoDefer (s : State) (k id : Nat) : Prop := ∀ z < 24, (k, id) ∉ (s.zone z).deferMiles

/-- A steward message of a type stands first on VC3 of an Oxlux port. -/
def MsgFirst (s : State) (x ty : Nat) (p : OxRx) (rest : List OxRx) : Prop :=
  tabGet [] (s.oxl x).rx 3 = p :: rest ∧ p.bad = false ∧ leAt p.head 64 1 = ty
/-! ### The PCIe port, the strongbox, bring-up and part reset (R394, R448-R476) -/

/-- The PCIe block logs the first fault of an access; a later one only counts as an overflow (Table 14.13). -/
def PcieLogged (dpa cause bar : Nat) (write : Bool) (s t : State) : Prop :=
  let r := PCIE.ERR_LOG
  (s.flag r PCIE.ERR_LOG_VALID = true → fieldIs t s r PCIE.ERR_LOG_OVERFLOW 1) ∧
    (s.flag r PCIE.ERR_LOG_VALID = false → t.flag r PCIE.ERR_LOG_VALID = true ∧ t.fld r PCIE.ERR_LOG_DPA = dpa % 2 ^ 48 ∧
      t.fld r PCIE.ERR_LOG_CAUSE = cause ∧ t.fld r PCIE.ERR_LOG_BAR = bar ∧ t.flag r PCIE.ERR_LOG_WRITE = write)

/-- No launch slot is checked or runs. -/
def NoLaunch (s : State) : Prop := ∀ k < 16, s.slotState k ≠ 1 ∧ s.slotState k ≠ 2

/-- A submission is over: RESULT, its entry and its interrupt, and the copy is gone; the nonce of a token or a fuse command is replaced by a
free value (R464, R466). -/
def SubmitEnds (result : Nat) (s t : State) : Prop :=
  let ty := if isKeyRecord s.sbx.copy then 0 else boxType s.sbx.copy
  t.fld SBX.STATUS SBX.STATUS_RESULT = result ∧ t.flag SBX.STATUS SBX.STATUS_BUSY = false ∧ t.flag SBX.CTRL SBX.CTRL_SUBMIT = false ∧
    Logs kSUBMIT 0 (srcOf 14 0) s t ∧ Raised iSUBMIT t ∧ t.sbx.copy = [] ∧ t.mem = s.mem ∧
    (ty ≠ 4 → ty ≠ 5 → t.free = s.free ∧ ∀ k < 6, t.reg (SBX.NONCE k) = s.reg (SBX.NONCE k)) ∧
    (ty = 4 ∨ ty = 5 → t.free = s.free + 1 ∧
      ∀ k < 6, t.reg (SBX.NONCE k) = BitVec.ofNat 64 (leAt (padTo 48 (Config.freeBytes s.free 48)) (8 * k) 8))

/-- A rail's register is 0 for every rail, and nothing of memory or of a launch is left. -/
def AllOff (t : State) : Prop :=
  t.mem = [] ∧ t.wordErr = [] ∧ t.launches = [] ∧ t.hosGroups = [] ∧ t.porters = [] ∧ t.sites = [] ∧ t.ox = [] ∧ t.boot = {} ∧ t.sbx = {} ∧
    t.couriers.chans = [] ∧ t.fld BRG.STATUS BRG.STATUS_STAGE = 0
/-! ### The whole block (R6, R47, R474, R498) -/

/-- What a fuse map may become: no floor falls, a revoked slot, a used block of the attestation key and the debug fuse stay blown, and a site
generation that has been recorded stays (R471, R473, R474). -/
def FusesOnlyBlow (a b : Fuses) : Prop :=
  (∀ k, tabGet 0 a.floors k ≤ tabGet 0 b.floors k) ∧ (∀ k : Nat, a.revoked.getLsbD k = true → b.revoked.getLsbD k = true) ∧
    (∀ k : Nat, a.hssBlocks.getLsbD k = true → b.hssBlocks.getLsbD k = true) ∧ (a.debugged = true → b.debugged = true) ∧
    (∀ i < 32, a.gen i ≠ 0 → b.gen i = a.gen i) ∧ b.serial = a.serial

/-- The units that a licence enables in one half of `n` units from `lo`: the first `k` of those present, in ascending order (R6). -/
def EnabledIn (present : Nat → Bool) (lo n k : Nat) (on : Nat → Bool) : Prop :=
  ∀ i < n, on (lo + i) = true ↔ present (lo + i) = true ∧ ((List.range i).filter fun j => present (lo + j)).length < k

/-- An offset of the register space that no register, window, ring or record holds (R498). -/
def ReservedOffset (off : Nat) : Prop :=
  regFind off = none ∧ windowOf off = none ∧ ¬ (0xBF0000 ≤ off ∧ off < 0xBF0100) ∧ ¬ (0x301000 ≤ off ∧ off < 0x302000) ∧
    ¬ (0x501000 ≤ off ∧ off < 0x501400) ∧ ¬ (0x501800 ≤ off ∧ off < 0x501808) ∧ ¬ (0x3C00000 ≤ off ∧ off < 0x4000000)

end Sys2Proof.Safety
end

