-- ==== Sys2Proof/Certificates/Slice0/Obligations.lean ====
section
/-!
DEFINITION. Sys2Proof/Certificates/Slice0/Obligations.lean: the statements for the provers.
-/

open Sys2Proof Sys2Proof.Machine Sys2Proof.Safety

/-! ### Hostel instructions that write registers (R187-R192) -/

/-- The integer rows. The predicate rows. -/
def Obligations.HostelIntegerResults : Prop :=
  (∀ row ∈ intRows, ∀ (h : BitVec 3) (g : BitVec 6) (w : W64) (s : State), HosIssues s (row.1 h g w) →
    Runs (row.1 h g w) s (LanesWrite h.toNat g.toNat w (fun gr l => (row.2 w gr l).1) (fun gr l => (row.2 w gr l).2) s)) ∧
  (∀ row ∈ predRows, ∀ (h : BitVec 3) (g : BitVec 6) (w : W64) (s : State), HosIssues s (row.1 h g w) →
    Runs (row.1 h g w) s (LanesSet h.toNat g.toNat w (row.2 w) s))

/-- The floating rows. The tally rows. -/
def Obligations.HostelFloatResults : Prop :=
  (∀ (h : BitVec 3) (g : BitVec 6) (w : W64) (s : State), ∀ row ∈ floatRows (s.ditherCtx h.toNat g.toNat), HosIssues s (row.1 h g w) →
    Runs (row.1 h g w) s
      (LanesWrite h.toNat g.toNat w (fun gr l => BitVec.ofNat 32 (row.2 w gr l).1) (fun gr l => BitVec.ofNat 32 (row.2 w gr l).2) s)) ∧
  (∀ row ∈ tallyRows, ∀ (h : BitVec 3) (g : BitVec 6) (w : W64) (s : State), HosIssues s (row.1 h g w) →
    Runs (row.1 h g w) s
      (LanesWriteRun h.toNat g.toNat w 4 (fun gr l => (row.2 w gr l).1) (fun gr l => BitVec.ofNat 32 (row.2 w gr l).2) s))

/-! ### Hostel: issue and faults (R8, R121, R139, R177, R182) -/

/-- Where an issued word stops before its effect, for every hostel row. What a fault of a hostel does to the context, in a launch slot where
it runs and is not yet being killed. -/
def Obligations.HostelIssueStops : Prop :=
  (∀ (i : Instr) (x : HosCmd) (s : State), i.hostel = some x →
    let h := x.h.toNat
    let g := x.g.toNat
    (s.canIssue h g = false → exec i s = .next s) ∧
    (s.canIssue h g = true →
      (hostelLegal x.w = false → exec i s = .next (s.hostelFault h g 0 cILLEGAL)) ∧
      (hostelLegal x.w = true → hwOp x.w = x.op →
        (hostelBadWindow x.w = true → exec i s = .next (s.hostelFault h g 0 cTALLY_WINDOW)) ∧
        (hostelBadWindow x.w = false → ¬ Licensed s (hostelFeature x.w) → exec i s = .next (s.hostelFault h g 0 cUNLICENSED)) ∧
        (hostelBadWindow x.w = false → Licensed s (hostelFeature x.w) → s.interlocked h g x.w = true → exec i s = .next s)))) ∧
  (∀ (s : State) (h g lane cause k : Nat), h < 8 → g < 64 → lane < 32 → cause < 256 → s.slotOf (s.group h g).launch = some k →
    (s.launch k).killing = false → s.flag (HOS.KILL_LOG h) HOS.KILL_LOG_VALID = false →
    let gr := s.group h g
    let t := s.hostelFault h g lane cause
    t.fld (HOS.KILL_LOG h) HOS.KILL_LOG_LAUNCH = gr.launch.toNat ∧ t.fld (HOS.KILL_LOG h) HOS.KILL_LOG_GROUP = g ∧
      t.fld (HOS.KILL_LOG h) HOS.KILL_LOG_LANE = lane ∧ t.fld (HOS.KILL_LOG h) HOS.KILL_LOG_CAUSE = cause ∧
      t.fld (HOS.KILL_LOG h) HOS.KILL_LOG_PC = gr.pc.toNat ∧ t.flag (HOS.KILL_LOG h) HOS.KILL_LOG_VALID = true ∧
      t.fld (LNCH.STATUS k) LNCH.STATUS_CAUSE = cause ∧ (t.launch k).killing = true ∧
      (∀ h' g', (s.group h' g').used = true → (s.group h' g').launch = gr.launch → (t.group h' g').stopped = true) ∧
      (∀ h' g', (s.group h' g').launch ≠ gr.launch → t.group h' g' = s.group h' g') ∧
      (∀ h' o, o ∈ t.arrayQ h' ↔ o ∈ s.arrayQ h' ∧ o.launch ≠ gr.launch) ∧
      (∃ e, t.guestbook.waiting = s.guestbook.waiting ++ [e] ∧ e.kind = kKILL ∧ e.cause = cause ∧ e.launch = gr.launch ∧
        e.stamp = s.etc ∧ e.source = srcOf 4 h) ∧
      t.mem = s.mem)

/-! ### Hostel: memory (R148, R149, R172-R174, R178, R193-R195) -/

/-- Loads from the stores of the issuing hostel. -/
def Obligations.HostelLoads : Prop :=
  ∀ row ∈ loadRows, ∀ (x : HosCmd) (s : State) (k : Nat × Nat), (row.1 x.h x.g x.w).hostel = some x → MemReady s x k → k.1 = x.h.toNat →
    Runs (row.1 x.h x.g x.w) s (LanesWriteRun x.h.toNat x.g.toNat x.w row.2.1
      (fun _ l => row.2.2 (s.word (laneDpa s x k l) (memSize x.w))) (fun _ _ => 0) s)

/-- Stores to the stores of the issuing hostel: of several lanes at a byte the highest is the last. -/
def Obligations.HostelStores : Prop :=
  ∀ c ∈ storeRows, ∀ (x : HosCmd) (s : State) (k : Nat × Nat), (c x.h x.g x.w).hostel = some x → MemReady s x k → k.1 = x.h.toNat →
    Runs (c x.h x.g x.w) s fun t =>
      let gr := s.group x.h.toNat x.g.toNat
      let n := memSize x.w
      OnlyGroupMem x.h.toNat x.g.toNat s t ∧ t.group x.h.toNat x.g.toNat = { gr with pc := gr.pc + 8 } ∧ LanesOnly s x k t ∧
        ∀ l < 32, Executes s x.h.toNat x.g.toNat x.w l → ∀ i < n,
          (∀ m < 32, l < m → Executes s x.h.toNat x.g.toNat x.w m →
            ¬ (laneDpa s x k m ≤ laneDpa s x k l + i ∧ laneDpa s x k l + i < laneDpa s x k m + n)) →
          t.byte (laneDpa s x k l + i) = BitVec.ofNat 8 (regsOf gr (hwD x.w) l (memRegs x.w) / 256 ^ i)

/-- Atomics on the stores of the issuing hostel: the lanes act in ascending order, and each sees the lower lanes' results. -/
def Obligations.HostelAtomics : Prop :=
  ∀ row ∈ atomRows, ∀ (x : HosCmd) (s : State) (k : Nat × Nat), (row.1 x.h x.g x.w).hostel = some x → MemReady s x k → k.1 = x.h.toNat →
    Runs (row.1 x.h x.g x.w) s fun t =>
      let gr := s.group x.h.toNat x.g.toNat
      let gt := t.group x.h.toNat x.g.toNat
      let n := memSize x.w
      OnlyGroupMem x.h.toNat x.g.toNat s t ∧ gt = { gr with v := gt.v, flags := gt.flags, pc := gr.pc + 8 } ∧ LanesOnly s x k t ∧
        (∀ l < 32, Executes s x.h.toNat x.g.toNat x.w l →
          regsOf gt (hwD x.w) l (memRegs x.w) = wordAfter s x k row.2 l (before s x k l) ∧
          t.word (laneDpa s x k l) n = wordAfter s x k row.2 l (before s x k l ++ [l] ++
            (List.range 32).filter fun m => decide (l < m) && (execMask gr x.w).getLsbD m && laneDpa s x k m == laneDpa s x k l)) ∧
        (∀ r l, r < 128 → l < 32 → ¬ (hwD x.w ≤ r ∧ r < hwD x.w + memRegs x.w ∧ Executes s x.h.toNat x.g.toNat x.w l) →
          gt.rv r l = gr.rv r l) ∧
        ∀ i, gt.flags.getLsbD i = true ↔ gr.flags.getLsbD i = true ∨ ∃ l < 32, Executes s x.h.toNat x.g.toNat x.w l ∧
          (BitVec.ofNat 32 (row.2 (wordAfter s x k row.2 l (before s x k l)) (regsOf gr (hwMB x.w) l (memRegs x.w))
            (gr.rv (hwMC x.w) l).toNat).2).getLsbD i = true

/-- Try-acquire: never waits, and gives each lane its status of Table 5.9. Release: the lanes that own their locks free them; the lowest
lane that does not kills the context, and the locks of it and of the lanes above it stay. -/
def Obligations.HostelLocks : Prop :=
  (∀ (x : HosCmd) (s : State) (k : Nat × Nat), (Instr.acq x.h x.g x.w).hostel = some x → MemReady s x k → k.1 = x.h.toNat →
    Runs (.acq x.h x.g x.w) s fun t =>
      let h := x.h.toNat
      let g := x.g.toNat
      let gr := s.group h g
      let gt := t.group h g
      OnlyGroupMem h g s t ∧ gt = { gr with v := gt.v, pc := gr.pc + 8 } ∧ LanesOnly s x k t ∧
        (∀ l < 32, Executes s h g x.w l → before s x k l = [] →
          (s.word (laneDpa s x k l) 4 = 0 → gt.rv (hwD x.w) l = 0 ∧ t.word (laneDpa s x k l) 4 = ownerWord h g l) ∧
          (s.word (laneDpa s x k l) 4 = ownerWord h g l → gt.rv (hwD x.w) l = 3 ∧ t.word (laneDpa s x k l) 4 = ownerWord h g l) ∧
          (∀ m < 32, m ≠ l → s.word (laneDpa s x k l) 4 = ownerWord h g m →
            gt.rv (hwD x.w) l = 2 ∧ t.word (laneDpa s x k l) 4 = ownerWord h g m) ∧
          (∀ h' g' m, h' < 8 → g' < 64 → m < 32 → (h' ≠ h ∨ g' ≠ g) → s.word (laneDpa s x k l) 4 = ownerWord h' g' m →
            gt.rv (hwD x.w) l = 1 ∧ t.word (laneDpa s x k l) 4 = ownerWord h' g' m)) ∧
        (∀ l < 32, Executes s h g x.w l → ∀ m, m ∈ before s x k l → s.word (laneDpa s x k l) 4 = 0 → gt.rv (hwD x.w) l = 2) ∧
        ∀ r l, r < 128 → l < 32 → ¬ (r = hwD x.w ∧ Executes s h g x.w l) → gt.rv r l = gr.rv r l) ∧
  (∀ (x : HosCmd) (s : State) (k : Nat × Nat), (Instr.rel x.h x.g x.w).hostel = some x → MemReady s x k → k.1 = x.h.toNat →
    let h := x.h.toNat
    let g := x.g.toNat
    ((∀ l < 32, Executes s h g x.w l → s.word (laneDpa s x k l) 4 = ownerWord h g l) →
      Runs (.rel x.h x.g x.w) s fun t =>
        OnlyGroupMem h g s t ∧ t.group h g = { s.group h g with pc := (s.group h g).pc + 8 } ∧ LanesOnly s x k t ∧
          ∀ l < 32, Executes s h g x.w l → t.word (laneDpa s x k l) 4 = 0) ∧
    (∀ l < 32, Executes s h g x.w l → s.word (laneDpa s x k l) 4 ≠ ownerWord h g l →
      (∀ m < l, Executes s h g x.w m → s.word (laneDpa s x k m) 4 = ownerWord h g m) →
      ∃ u : State, exec (.rel x.h x.g x.w) s = .next (u.hostelFault h g l cLOCK_OWNER) ∧ u = { s with mem := u.mem } ∧
        (∀ m < l, Executes s h g x.w m → u.word (laneDpa s x k m) 4 = 0) ∧
        ∀ a, (∀ m < l, Executes s h g x.w m → ¬ (laneDpa s x k m ≤ a ∧ a < laneDpa s x k m + 4)) → u.byte a = s.byte a))

/-- A lane whose offset is misaligned or out of its block kills the context, with the lowest such lane's cause, before any access. -/
def Obligations.HostelMemoryFaults : Prop :=
  ∀ (i : Instr) (x : HosCmd) (s : State) (l c : Nat), i.hostel = some x → HosReady s x → x.op.cls = 7 ∨ x.op.cls = 8 → l < 32 →
    let h := x.h.toNat
    let g := x.g.toNat
    let size := (s.rankBlock h (s.group h g).block (hwRank x.w)).map fun k => (s.blockAt k.1 k.2).size
    let bad := fun (m : Nat) => offCause (memOffset x.w (s.group h g) m) (memSize x.w) (memSize x.w) size
    Executes s h g x.w l → bad l = some c → (∀ m < l, Executes s h g x.w m → bad m = none) →
      exec i s = .next (s.hostelFault h g l c) ∧
      (c = cMISALIGNED ↔ memOffset x.w (s.group h g) l % (memSize x.w : Int) ≠ 0) ∧ (c = cMISALIGNED ∨ c = cSEGMENT)

/-- An access to the store of a peer waits in the group's queue, and PEER_ACCESS_DONE makes the oldest one to that store take effect, or
kills the context where the peer's store cannot be reached. -/
def Obligations.HostelPeerAccesses : Prop :=
  (∀ (i : Instr) (x : HosCmd) (s : State) (k : Nat × Nat), i.hostel = some x → x.op.cls = 7 ∨ x.op.cls = 8 → MemReady s x k →
    k.1 ≠ x.h.toNat → (∃ l < 32, Executes s x.h.toNat x.g.toNat x.w l) →
    Runs i s fun t =>
      let gr := s.group x.h.toNat x.g.toNat
      ∃ accs, GroupBecomes x.h.toNat x.g.toNat { gr with pc := gr.pc + 8, peer := gr.peer ++ [.mem x.w k.1 accs] } s t ∧
        accs.map LaneAcc.lane = (List.range 32).filter (execMask gr x.w).getLsbD ∧
        accs.map LaneAcc.dpa = ((List.range 32).filter (execMask gr x.w).getLsbD).map (laneDpa s x k)) ∧
  (∀ (h : BitVec 3) (g : BitVec 6) (target : BitVec 3) (s : State) (p : PeerOp) (l r : List PeerOp),
    (s.group h.toNat g.toNat).peer = l ++ p :: r → (∀ q ∈ l, q.target ≠ target.toNat) → p.target = target.toNat →
    let gr := s.group h.toNat g.toNat
    let s' := s.setGroup h.toNat g.toNat { gr with peer := l ++ r }
    (s.hostelUp target.toNat = true → s.flag (HOS.STATUS target.toNat) HOS.STATUS_FENCED = false →
      Runs (.peerAccessDone h g target) s fun t =>
        t = s'.peerApply h.toNat g.toNat p ∧
        (∀ c imm, p = .sig target.toNat c imm →
          t.ctr target.toNat c = s.ctr target.toNat c + BitVec.ofNat 32 imm ∧ t.mem = s.mem ∧
          t.group h.toNat g.toNat = { gr with peer := l ++ r })) ∧
    (s.hostelUp target.toNat = false → (s.slotOf gr.launch).isSome = true →
      Runs (.peerAccessDone h g target) s fun t =>
        (t.group h.toNat g.toNat).stopped = true ∧ t.mem = s.mem ∧ t.killing gr.launch = true))

/-! ### Hostel: tile registers and the array (R145, R152, R197, R198) -/

/-- The tile-register instructions of a whole group. -/
def Obligations.HostelTiles : Prop :=
  ∀ (x : HosCmd) (s : State), HosReady s x → Whole s x →
    let h := x.h.toNat
    let g := x.g.toNat
    let gr := s.group h g
    let low := fun (r : Nat) => (gr.rv r ((lowLane gr.active).getD 0)).toNat
    let off : Int := low (hwA x.w) + hwOff x.w
    (∀ k, s.rankBlock h gr.block (hwRank x.w) = some k → k.1 = h → offCause off 4096 128 (some (s.blockAt k.1 k.2).size) = none →
      let dpa := storeBase k.1 + (s.blockAt k.1 k.2).alloc + off.toNat
      ((Instr.tld x.h x.g x.w).hostel = some x → Runs (.tld x.h x.g x.w) s (TileWrite h g (hwD x.w) (fun i => s.byte (dpa + i)) s)) ∧
      ((Instr.tst x.h x.g x.w).hostel = some x → Runs (.tst x.h x.g x.w) s fun t =>
        OnlyGroupMem h g s t ∧ t.group h g = { gr with pc := gr.pc + 8 } ∧ SameMemBut dpa 4096 s t ∧
          ∀ i < 4096, t.byte (dpa + i) = gr.rm (hwD x.w) i)) ∧
    ((Instr.tmov x.h x.g x.w).hostel = some x → Runs (.tmov x.h x.g x.w) s (TileWrite h g (hwD x.w) (fun i => gr.rm (hwA x.w % 16) i) s)) ∧
    ((Instr.tzero x.h x.g x.w).hostel = some x → Runs (.tzero x.h x.g x.w) s (TileWrite h g (hwD x.w) (fun _ => 0) s)) ∧
    ((Instr.trd x.h x.g x.w).hostel = some x → Runs (.trd x.h x.g x.w) s
      (LanesWrite h g x.w (fun gr l => BitVec.ofNat 32 (leVal (gr.rmBytes (hwA x.w % 16) (low (hwB x.w) % 32 * 128 + 4 * l) 4))) (fun _ _ => 0) s)) ∧
    ((Instr.twr x.h x.g x.w).hostel = some x → Runs (.twr x.h x.g x.w) s
      (TileWrite h g (hwD x.w) (fun i =>
        if i / 128 = low (hwB x.w) % 32 ∧ gr.active.getLsbD (i % 128 / 4) = true then
          BitVec.ofNat 8 ((gr.rv (hwA x.w) (i % 128 / 4)).toNat / 256 ^ (i % 4))
        else gr.rm (hwD x.w) i) s))

/-- A tile or matrix instruction of a group that is not whole kills the context. EXIT and the rejoin check: lanes that exit leave both masks
and do not return, the last EXIT frees the group's slot. -/
def Obligations.HostelDivergence : Prop :=
  (∀ (i : Instr) (x : HosCmd) (s : State), i.hostel = some x → HosReady s x → ¬ Whole s x →
    (x.op.cls = 9 ∨ x.op.cls = 0xA ∨ x.op.cls = 0xB → exec i s = .next (s.hostelFault x.h.toNat x.g.toNat 0 cDIVERGENT_MATRIX)) ∧
    (x.op = ⟨0xD, 0⟩ ∨ x.op = ⟨0xD, 1⟩ → exec i s = .next (s.hostelFault x.h.toNat x.g.toNat 0 cDIVERGENT_BARRIER))) ∧
  ((∀ (x : HosCmd) (s : State), HosReady s x → (Instr.exit x.h x.g x.w).hostel = some x →
    let h := x.h.toNat
    let g := x.g.toNat
    let gr := s.group h g
    (gr.live &&& ~~~gr.active ≠ 0 →
      Runs (.exit x.h x.g x.w) s (GroupBecomes h g { gr with pc := gr.pc + 8, live := gr.live &&& ~~~gr.active, active := 0 } s)) ∧
    (gr.live &&& ~~~gr.active = 0 → gr.peer = [] → (∀ o ∈ s.arrayQ h, o.group ≠ g) →
      Runs (.exit x.h x.g x.w) s fun t => t.group h g = {} ∧ t.mem = s.mem ∧
        ∀ k, k ≠ gkey h g → tabGet {} t.hosGroups k = tabGet {} s.hosGroups k)) ∧
  ∀ (h : BitVec 3) (g : BitVec 6) (s : State) (e : Rejoin) (rest : List Rejoin),
    let gr := s.group h.toNat g.toNat
    gr.used = true → gr.stopped = false → gr.wait = .none → gr.stack = e :: rest → gr.pc.toNat = e.rejoin →
    (e.pendMask ≠ 0 → e.pendPc < 262144 → e.pendPc ≠ e.rejoin →
      Runs (.rejoin h g) s (GroupBecomes h.toNat g.toNat
        { gr with pc := BitVec.ofNat 18 e.pendPc, active := e.pendMask &&& gr.live, stack := { e with pendMask := 0 } :: rest } s)) ∧
    (e.pendMask = 0 → (∀ f r, rest = f :: r → gr.pc.toNat ≠ f.rejoin) →
      Runs (.rejoin h g) s (GroupBecomes h.toNat g.toNat { gr with active := e.saved &&& gr.live, stack := rest } s)))

/-- Matrix and lane instructions join the array queue of 8, or wait while it is full; a lane instruction that breaks a check of R198 kills
the context. ARRAY_START takes the oldest instruction of the queue: a dot instruction writes its tile register alone, a lane instruction the
bytes of its destination stream alone; an empty queue leaves all as it is. -/
def Obligations.HostelArray : Prop :=
  (∀ (x : HosCmd) (s : State), HosReady s x → Whole s x →
    let h := x.h.toNat
    let g := x.g.toNat
    let gr := s.group h g
    let v := fun (r : Nat) => (gr.rv r ((lowLane gr.active).getD 0)).toNat
    let joins := fun (i : Instr) (o : ArrayOp) =>
      ((s.arrayQ h).length < 8 → Runs i s fun t =>
        t = { s with hosGroups := t.hosGroups, hosArray := t.hosArray } ∧ t.arrayQ h = s.arrayQ h ++ [o] ∧
        (∀ h', h' ≠ h → t.arrayQ h' = s.arrayQ h') ∧ t.group h g = { gr with pc := gr.pc + 8 } ∧
        ∀ k, k ≠ gkey h g → tabGet {} t.hosGroups k = tabGet {} s.hosGroups k) ∧
      (8 ≤ (s.arrayQ h).length → exec i s = .next s)
    ((Instr.mdot x.h x.g x.w).hostel = some x → dotBusy gr x.w = false →
      joins (.mdot x.h x.g x.w) { group := g, launch := gr.launch, word := x.w, d0 := 0, a0 := 0, b0 := 0, n := 0, s := 0, dva := 0 }) ∧
    ∀ c ∈ laneRows, (c x.h x.g x.w).hostel = some x →
      (v (hwN x.w) = 0 → Runs (c x.h x.g x.w) s (GroupBecomes h g { gr with pc := gr.pc + 8 } s)) ∧
      (v (hwN x.w) ≠ 0 →
        (∀ e, laneCause x.w (s.blockAt h gr.block).size (v (hwD x.w)) (v (hwA x.w)) (v (hwB x.w)) (v (hwN x.w)) = some e →
          exec (c x.h x.g x.w) s = .next (s.hostelFault h g ((lowLane gr.active).getD 0) e)) ∧
        (laneCause x.w (s.blockAt h gr.block).size (v (hwD x.w)) (v (hwA x.w)) (v (hwB x.w)) (v (hwN x.w)) = none →
          let base := storeBase h + (s.blockAt h gr.block).alloc
          joins (c x.h x.g x.w)
            { group := g, launch := gr.launch, word := x.w, d0 := base + v (hwD x.w), a0 := base + v (hwA x.w), b0 := base + v (hwB x.w),
              n := v (hwN x.w), s := v (hwC x.w), dva := if hwDTH x.w then v (hwDV x.w) + 2 ^ 32 * v (hwDV x.w + 1) else 0 }))) ∧
  (∀ (h : BitVec 3) (s : State),
    (s.arrayQ h.toNat = [] → exec (.arrayStart h) s = .next s) ∧
    ∀ (o : ArrayOp) (q : List ArrayOp), s.arrayQ h.toNat = o :: q →
      Runs (.arrayStart h) s fun t =>
        let gr := s.group h.toNat o.group
        let gt := t.group h.toNat o.group
        t = { s with regs := t.regs, hosGroups := t.hosGroups, hosArray := t.hosArray, mem := t.mem } ∧ t.arrayQ h.toNat = q ∧
        SameRegs [HOS.STATUS h.toNat, HOS.ARRAY_BUSY h.toNat] s t ∧
        t.fld (HOS.STATUS h.toNat) HOS.STATUS_ARRAY_MODE = (if hwClass o.word = 0xA then 0 else 1) ∧
        (∀ k, k ≠ gkey h.toNat o.group → tabGet {} t.hosGroups k = tabGet {} s.hosGroups k) ∧
        (hwClass o.word = 0xA → t.mem = s.mem ∧ gt = { gr with m := gt.m, flags := gt.flags } ∧
          (∀ n i, n < 16 → i < 4096 → n ≠ hwD o.word % 16 → gt.rm n i = gr.rm n i) ∧
          ∀ i j, i < 32 → j < 32 →
            leVal (gt.rmBytes (hwD o.word) (128 * i + 4 * j) 4) =
              (dotElem o.word (gr.rowOf (hwMA o.word) i) (gr.rowOf (hwMBt o.word) j)
                (if hwZ o.word then 0 else bitsOf (gr.rowOf (hwD o.word) i) (32 * j + 31) (32 * j))).1) ∧
        (hwClass o.word ≠ 0xA → gt = { gr with flags := gt.flags } ∧ SameMemBut o.d0 (o.n * laneSizeOut o.word) s t))

/-! ### Hostel: control flow (R141-R144, R199) -/

/-- Branches, calls and NOP: the pc, the link register and the reconvergence stack; the faults of a divergent branch past the 16th entry,
and of an indirect target that is not one. -/
def Obligations.HostelControl : Prop :=
  ∀ (x : HosCmd) (s : State), HosReady s x →
    let h := x.h.toNat
    let g := x.g.toNat
    let gr := s.group h g
    let goes := fun (v : Group) => GroupBecomes h g v s
    let tgt := BitVec.ofNat 18 (8 * hwTarget x.w)
    let taken := gr.active &&& (if hwBN x.w then ~~~gr.rp (hwBP x.w) else gr.rp (hwBP x.w))
    let links := fun (pc : BitVec 18) (t : State) =>
      let gt := t.group h g
      OnlyGroup h g s t ∧ gt = { gr with v := gt.v, pc := pc } ∧ ∀ r l, r < 128 → l < 32 →
        gt.rv r l = if r = hwD x.w ∧ gr.active.getLsbD l = true then BitVec.ofNat 32 (gr.pc + 8).toNat else gr.rv r l
    ((Instr.bra x.h x.g x.w).hostel = some x → Runs (.bra x.h x.g x.w) s (goes { gr with pc := tgt })) ∧
    ((Instr.nop x.h x.g x.w).hostel = some x → Runs (.nop x.h x.g x.w) s (goes { gr with pc := gr.pc + 8 })) ∧
    ((Instr.call x.h x.g x.w).hostel = some x → Runs (.call x.h x.g x.w) s (links tgt)) ∧
    ((Instr.brc x.h x.g x.w).hostel = some x →
      (taken = 0 → Runs (.brc x.h x.g x.w) s (goes { gr with pc := gr.pc + 8 })) ∧
      (taken ≠ 0 → taken = gr.active → Runs (.brc x.h x.g x.w) s (goes { gr with pc := tgt })) ∧
      (taken ≠ 0 → taken ≠ gr.active → gr.stack.length < 16 → Runs (.brc x.h x.g x.w) s (goes
        { gr with
          pc := gr.pc + 8, active := gr.active &&& ~~~taken,
          stack := { rejoin := 8 * hwRejoin x.w, saved := gr.active, pendPc := 8 * hwTarget x.w, pendMask := taken } :: gr.stack })) ∧
      (taken ≠ 0 → taken ≠ gr.active → 16 ≤ gr.stack.length → exec (.brc x.h x.g x.w) s = .next (s.hostelFault h g 0 cRECONVERGE_OVERFLOW))) ∧
    ∀ a : Nat,
      ((∀ l < 32, gr.active.getLsbD l = true → (gr.rv (hwTarget x.w % 128) l).toNat = a) ∧ gr.active ≠ 0 ∧ a % 8 = 0 ∧ a < 262144 →
        ((Instr.brx x.h x.g x.w).hostel = some x → Runs (.brx x.h x.g x.w) s (goes { gr with pc := BitVec.ofNat 18 a })) ∧
        ((Instr.ret x.h x.g x.w).hostel = some x → Runs (.ret x.h x.g x.w) s (goes { gr with pc := BitVec.ofNat 18 a })) ∧
        ((Instr.callx x.h x.g x.w).hostel = some x → Runs (.callx x.h x.g x.w) s (links (BitVec.ofNat 18 a)))) ∧
      ((∀ l < 32, gr.active.getLsbD l = true → (gr.rv (hwTarget x.w % 128) l).toNat = a) ∧ gr.active ≠ 0 ∧ ¬ (a % 8 = 0 ∧ a < 262144) →
        ∀ i ∈ [Instr.brx x.h x.g x.w, .ret x.h x.g x.w, .callx x.h x.g x.w], i.hostel = some x →
          exec i s = .next (s.hostelFault h g ((lowLane gr.active).getD 0) cDIVERGENT_BRANCH)) ∧
      ((∃ l < 32, ∃ m < 32, gr.active.getLsbD l = true ∧ gr.active.getLsbD m = true ∧
          gr.rv (hwTarget x.w % 128) l ≠ gr.rv (hwTarget x.w % 128) m) →
        ∀ i ∈ [Instr.brx x.h x.g x.w, .ret x.h x.g x.w, .callx x.h x.g x.w], i.hostel = some x →
          exec i s = .next (s.hostelFault h g ((lowLane gr.active).getD 0) cDIVERGENT_BRANCH))

/-! ### Hostel: synchronisation and special registers (R186, R201-R203) -/

/-- Barriers, fences and waits: what the group waits for, and when it goes on. A barrier opens when every live group of its block has
arrived, and not before. -/
def Obligations.HostelWaits : Prop :=
  ((∀ (x : HosCmd) (s : State), HosReady s x →
    let h := x.h.toNat
    let g := x.g.toNat
    let gr := s.group h g
    let goes := fun (w : GWait) => GroupBecomes h g { gr with pc := gr.pc + 8, wait := w } s
    let c := ((s.blockAt h gr.block).ctrBase + hwK x.w) % 64
    let reached := fun (v : W32) => decide (0 ≤ (s.ctr h c - v).toInt)
    let low := gr.rv (hwA x.w) ((lowLane gr.active).getD 0)
    ((Instr.barb x.h x.g x.w).hostel = some x → Whole s x →
      Runs (.barb x.h x.g x.w) s (goes (if gr.peer = [] then .barb else .fenceThen .barb))) ∧
    ((Instr.barc x.h x.g x.w).hostel = some x → Whole s x →
      Runs (.barc x.h x.g x.w) s (goes (if gr.peer = [] then .barc else .fenceThen .barc))) ∧
    ((Instr.fence x.h x.g x.w).hostel = some x → Runs (.fence x.h x.g x.w) s (goes (if gr.peer = [] then .none else .fence))) ∧
    ((Instr.waitaI x.h x.g x.w).hostel = some x → Runs (.waitaI x.h x.g x.w) s
      (goes (if reached (BitVec.ofNat 32 (hwImm24 x.w)) then .none else .waita c (BitVec.ofNat 32 (hwImm24 x.w))))) ∧
    ((Instr.waitaR x.h x.g x.w).hostel = some x → Runs (.waitaR x.h x.g x.w) s (goes (if reached low then .none else .waita c low))) ∧
    ((Instr.rda x.h x.g x.w).hostel = some x → Runs (.rda x.h x.g x.w) s (LanesWrite h g x.w (fun _ _ => s.ctr h c) (fun _ _ => 0) s))) ∧
  ∀ (h : BitVec 3) (g : BitVec 6) (s : State),
    let gr := s.group h.toNat g.toNat
    gr.stopped = false →
    (∀ c v, gr.wait = .waita c v →
      (0 ≤ (s.ctr h.toNat c - v).toInt → Runs (.waitaResume h g) s (GroupBecomes h.toNat g.toNat { gr with wait := .none } s)) ∧
      ((s.ctr h.toNat c - v).toInt < 0 → exec (.waitaResume h g) s = .next s)) ∧
    (gr.wait = .fence → gr.peer = [] → Runs (.fenceComplete h g) s (GroupBecomes h.toNat g.toNat { gr with wait := .none } s)) ∧
    (gr.wait = .fenceThen .barb → gr.peer = [] → Runs (.fenceComplete h g) s (GroupBecomes h.toNat g.toNat { gr with wait := .barb } s)) ∧
    (gr.wait = .fenceThen .barc → gr.peer = [] → Runs (.fenceComplete h g) s (GroupBecomes h.toNat g.toNat { gr with wait := .barc } s)) ∧
    (gr.peer ≠ [] → exec (.fenceComplete h g) s = .next s)) ∧
  (∀ (h : BitVec 3) (b : BitVec 3) (s : State),
    let mine := fun (g : Nat) => g < 64 ∧ (s.group h.toNat g).used = true ∧ (s.group h.toNat g).block = b.toNat
    ((∀ g, mine g → (s.group h.toNat g).wait = .barb) →
      Runs (.barrierRelease h b false) s fun t => t = { s with hosGroups := t.hosGroups } ∧
        ∀ k, tabGet {} t.hosGroups k =
          if 64 * h.toNat ≤ k ∧ mine (k - 64 * h.toNat) then { tabGet {} s.hosGroups k with wait := .none } else tabGet {} s.hosGroups k) ∧
    ((∃ g, mine g ∧ (s.group h.toNat g).wait ≠ .barb) → exec (.barrierRelease h b false) s = .next s) ∧
    ((∃ g, mine g ∧ (s.group h.toNat g).wait ≠ .barc) → (s.blockAt h.toNat b.toNat).used = true →
      exec (.barrierRelease h b true) s = .next s) ∧
    ((∀ k ∈ s.clusterBlocks (s.blockAt h.toNat b.toNat), ∀ g ∈ s.liveGroups k.1 k.2, (s.group k.1 g).wait = .barc) →
      Runs (.barrierRelease h b true) s fun t => t = { s with hosGroups := t.hosGroups } ∧
        ∀ k ∈ s.clusterBlocks (s.blockAt h.toNat b.toNat), ∀ g ∈ s.liveGroups k.1 k.2,
          t.group k.1 g = { s.group k.1 g with wait := .none }))

/-- Signals and milestones: SIGA adds to the arrival counter of the block that RANK names, and MILE records the group's arrival, after the
group's accesses in flight. -/
def Obligations.HostelSignals : Prop :=
  ∀ (x : HosCmd) (s : State), HosReady s x →
    let h := x.h.toNat
    let g := x.g.toNat
    let gr := s.group h g
    let bl := s.blockAt h gr.block
    ((Instr.siga x.h x.g x.w).hostel = some x →
      (∀ k, s.rankBlock h gr.block (hwSRank x.w) = some k →
        let c := ((s.blockAt k.1 k.2).ctrBase + hwK x.w) % 64
        let imm := BitVec.ofNat 32 (hwImm24 x.w)
        (gr.peer = [] → k.1 = h → Runs (.siga x.h x.g x.w) s fun t =>
          t = { s with hosGroups := t.hosGroups, hosCtrs := t.hosCtrs } ∧ t.group h g = { gr with pc := gr.pc + 8 } ∧
            t.ctr h c = s.ctr h c + imm ∧ ∀ j, j ≠ 64 * h + c → tabGet 0 t.hosCtrs j = tabGet 0 s.hosCtrs j) ∧
        (gr.peer = [] → k.1 ≠ h → Runs (.siga x.h x.g x.w) s
          (GroupBecomes h g { gr with pc := gr.pc + 8, peer := [.sig k.1 c (hwImm24 x.w)] } s)) ∧
        (gr.peer ≠ [] → Runs (.siga x.h x.g x.w) s
          (GroupBecomes h g { gr with pc := gr.pc + 8, wait := .fenceThen (.siga (hwSRank x.w) (hwK x.w) (hwImm24 x.w)) } s))) ∧
      (s.rankBlock h gr.block (hwSRank x.w) = none → exec (.siga x.h x.g x.w) s = .next (s.hostelFault h g 0 cSEGMENT))) ∧
    ((Instr.mile x.h x.g x.w).hostel = some x → gr.peer = [] →
      let id := hwImm24 x.w % 65536
      (bl.miles.length < 4 → (∀ m ∈ bl.miles, m.1 ≠ id) → gr.gidx < 64 → (∃ g' < 64, (s.group h g').used = true ∧ (s.group h g').block = gr.block ∧
          (s.group h g').gidx ≠ gr.gidx ∧ (s.group h g').gidx < 64) → (∀ m ∈ bl.miles, Nat.land m.2 (s.liveMask h gr.block) ≠ s.liveMask h gr.block) →
        Runs (.mile x.h x.g x.w) s fun t =>
          t.group h g = { gr with pc := gr.pc + 8 } ∧ (t.blockAt h gr.block).miles = bl.miles ++ [(id, 2 ^ gr.gidx)] ∧ t.mileMsgs = s.mileMsgs) ∧
      (bl.miles = [] → s.liveMask h gr.block = 2 ^ gr.gidx →
        Runs (.mile x.h x.g x.w) s fun t =>
          t.group h g = { gr with pc := gr.pc + 8 } ∧ (t.blockAt h gr.block).miles = [] ∧ t.mileMsgs = s.mileMsgs ++ [⟨bl.slot, id⟩]))

/-- MOVS and WSR. s_cycle, which counts clock cycles, is a free value of the model (log 9). -/
def Obligations.HostelSpecialRegisters : Prop :=
  ∀ (x : HosCmd) (s : State), HosReady s x →
    let h := x.h.toNat
    let g := x.g.toNat
    let gr := s.group h g
    let b := s.blockAt h gr.block
    let narrow : List (Nat × (Nat → Nat)) := [(0x00, fun l => l), (0x01, fun _ => g), (0x02, fun _ => gr.gidx), (0x03, fun _ => b.ngroups),
      (0x04, fun _ => b.rank), (0x05, fun _ => b.nblocks), (0x06, fun _ => h), (0x07, fun _ => gr.launch.toNat), (0x08, fun _ => gr.active.toNat),
      (0x09, fun _ => gr.live.toNat), (0x0A, fun _ => gr.flags.toNat), (0x0B, fun _ => b.size), (0x0C, fun _ => b.ctrBase),
      (0x0D, fun _ => b.blkid.toNat), (0x0E, fun _ => b.chip.toNat), (0x0F, fun _ => b.nchips.toNat)]
    let wide : List (Nat × Nat) := [(0x10, b.segBase.toNat), (0x12, b.seed.toNat), (0x14, b.step.toNat)]
    ((Instr.movs x.h x.g x.w).hostel = some x →
      (∀ r ∈ narrow, hwA x.w = r.1 → Runs (.movs x.h x.g x.w) s (LanesWriteRun h g x.w 1 (fun _ l => r.2 l) (fun _ _ => 0) s)) ∧
      (∀ r ∈ wide, hwA x.w = r.1 → Runs (.movs x.h x.g x.w) s (LanesWriteRun h g x.w 2 (fun _ _ => r.2) (fun _ _ => 0) s)) ∧
      (hwA x.w = 0x16 → Runs (.movs x.h x.g x.w) s fun t => t.free = s.free + 1 ∧
        LanesWriteRun h g x.w 2 (fun _ _ => (Config.freeCycle s.free).toNat) (fun _ _ => 0) { s with free := t.free } t)) ∧
    ((Instr.wsr x.h x.g x.w).hostel = some x →
      (∀ l < 32, Executes s h g x.w l → (∀ m < l, ¬ Executes s h g x.w m) →
        Runs (.wsr x.h x.g x.w) s (GroupBecomes h g { gr with pc := gr.pc + 8, flags := gr.rv (hwA x.w) l &&& 0x3F#32 } s)) ∧
      ((∀ l < 32, ¬ Executes s h g x.w l) → Runs (.wsr x.h x.g x.w) s (GroupBecomes h g { gr with pc := gr.pc + 8 } s)))

/-! ### The porter set on porters and steward cores (R205-R222, R423) -/

/-- The integer rows and CRCW. The floating rows. On a steward core, which runs no leg, dither has seed 0 and step 0: the model's choice
(log 12). -/
def Obligations.PorterArithmetic : Prop :=
  (∀ row, PorIntRow row → ∀ (c : CoreRef) (w : W32) (s : State), PorIssues s (row.1 c w) →
    Runs (row.1 c w) s (CoreWrites c (row.2 w (s.core c)) [] 0 s)) ∧
  (∀ (c : CoreRef) (w : W32) (s : State), ∀ row, PorFloatRow (s.coreDither c) row → PorIssues s (row.1 c w) →
    Runs (row.1 c w) s (CoreWrites c (row.2 w (s.core c)).1 (row.2 w (s.core c)).2.1 (BitVec.ofNat 32 (row.2 w (s.core c)).2.2) s))

/-- Where an issued word stops before its effect, for every row of the porter set. What a fault of a porter does to its context, in a launch
slot where it runs and is not yet being killed. -/
def Obligations.PorterIssueStops : Prop :=
  (∀ (i : Instr) (x : PorCmd) (s : State), i.porter = some x →
    let bad := fun (cause : Nat) => exec i s = .next (s.coreFault x.c cause)
    let fetches := ∀ n, x.c = .porter n → (s.core x.c).pc.toNat < 65536
    (s.porCanIssue x.c = false → exec i s = .next s) ∧
    (s.porCanIssue x.c = true →
      (¬ fetches → bad cSEGMENT) ∧
      (fetches → coreLegal x.c x.w = false → bad cILLEGAL) ∧
      (fetches → coreLegal x.c x.w = true → pwRow x.w = x.op →
        (porterBadWindow x.w = true → bad cTALLY_WINDOW) ∧
        (porterBadWindow x.w = false → ¬ Licensed s (porterFeature x.w) → bad cUNLICENSED) ∧
        (porterBadWindow x.w = false → Licensed s (porterFeature x.w) → s.porPending x.c x.w = true → exec i s = .next s)))) ∧
  (∀ (s : State) (n : BitVec 12) (cause bus detail k : Nat), cause < 256 →
    let p := s.porter n.toNat
    let l := p.msg.launch
    s.slotOf l = some k → (s.launch k).killing = false → s.flag (POR.KILL_LOG n.toNat) POR.KILL_LOG_VALID = false →
    let t := s.porFaultAt n.toNat cause bus detail
    t.fld (POR.KILL_LOG n.toNat) POR.KILL_LOG_LAUNCH = l.toNat ∧ t.fld (POR.KILL_LOG n.toNat) POR.KILL_LOG_CAUSE = cause ∧
      t.fld (POR.KILL_LOG n.toNat) POR.KILL_LOG_PC = p.core.pc.toNat % 65536 ∧ t.flag (POR.KILL_LOG n.toNat) POR.KILL_LOG_VALID = true ∧
      t.porter n.toNat = { p with stopped := true } ∧ (∀ m, m ≠ n.toNat → t.porter m = s.porter m) ∧
      t.fld (LNCH.STATUS k) LNCH.STATUS_CAUSE = cause ∧ (t.launch k).killing = true ∧
      (∀ h g, (s.group h g).used = true → (s.group h g).launch = l → (t.group h g).stopped = true) ∧
      (∃ e, t.guestbook.waiting = s.guestbook.waiting ++ [e] ∧ e.kind = kKILL ∧ e.cause = cause ∧ e.launch = l ∧
        e.stamp = s.etc ∧ e.source = srcOf 3 n.toNat ∧ e.detail = detail % 2 ^ 64) ∧
      Notifies n.toNat (.killed n.toNat l) s t ∧ t.mem = s.mem)

/-- An exception of a steward core is precise: nothing but the core's saved pc, cause and address and its pc changes. Where the handler
stands is a free value of the model (log 13). The supervisor extension, and WAITQ and MOVS on a steward core. What the manual does not give
of its special registers is a free value or no write: the model's choice (log 12). -/
def Obligations.StewardSupervisor : Prop :=
  (∀ (s : State) (k : BitVec 2) (cause addr : Nat),
    let v := s.score k.toNat
    let t := s.scoreTrap k.toNat cause addr
    let u := t.score k.toNat
    (t = { s with steward := { s.steward with cores := t.steward.cores }, free := s.free + 1 } ∧
      (∀ j, j ≠ k.toNat → t.score j = s.score j) ∧
      u = { v with core := { v.core with pc := u.core.pc }, epc := v.core.pc, ecause := cause, eaddr := addr, trapped := true, waiting := false } ∧
      u.core.pc.toNat % 4 = 0) ∧
    ∀ w, PorIssues t (.eret (.steward k) w) → Runs (.eret (.steward k) w) t fun r =>
      OnlyCore (.steward k) (t.setScore k.toNat { u with trapped := false }) r ∧ r.core (.steward k) = v.core) ∧
  (∀ (k : BitVec 2) (w : W32) (s : State),
    let c := CoreRef.steward k
    let v := s.score k.toNat
    let next := { v.core with pc := v.core.pc + 4 }
    let becomes := fun (x : SCore) (t : State) => t = { s with steward := { s.steward with cores := t.steward.cores } } ∧
      (∀ j, j ≠ k.toNat → t.score j = s.score j) ∧ t.score k.toNat = x
    (PorIssues s (.csrr c w) → pwI w = 0x10 → Runs (.csrr c w) s (CoreWrites c [(pwD w, tabGet 0 v.csr 0x10)] [] 0 s)) ∧
    (PorIssues s (.csrr c w) → pwI w ≠ 0x10 → Runs (.csrr c w) s fun t => t.free = s.free + 1 ∧
      CoreWrites c [(pwD w, BitVec.ofNat 32 (Config.freeWord s.free).toNat)] [] 0 { s with free := s.free + 1 } t) ∧
    (PorIssues s (.csrw c w) → pwI w ≠ 0x10 → Runs (.csrw c w) s (becomes { v with core := next })) ∧
    (PorIssues s (.csrw c w) → pwI w = 0x10 → Runs (.csrw c w) s fun t => (∃ x, becomes { v with core := next, csr := x } t) ∧
      (tabGet 0 (t.score k.toNat).csr 0x10).toNat = (v.core.rg (pwA w)).toNat % 65536) ∧
    (PorIssues s (.eret c w) → Runs (.eret c w) s (becomes { v with core := { v.core with pc := v.epc }, trapped := false })) ∧
    (PorIssues s (.wfi c w) → Runs (.wfi c w) s (becomes { v with core := next, wfi := true })) ∧
    Runs (.wakeInterrupt k) s (becomes { v with wfi := false }) ∧
    (PorIssues s (.iinv c w) → Runs (.iinv c w) s (becomes { v with core := next })) ∧
    (PorIssues s (.porWaitq c w) → Runs (.porWaitq c w) s (becomes { v with core := next })) ∧
    (PorIssues s (.porMovs c w) → pwI w = 7 → Runs (.porMovs c w) s (CoreWrites c [(pwD w, v.core.flags)] [] 0 s)) ∧
    (PorIssues s (.sync c w) → s.steward.evict = [] → v.stream = none → Runs (.sync c w) s (becomes { v with core := next })) ∧
    (PorIssues s (.sync c w) → s.steward.evict ≠ [] → v.stream = none → exec (.sync c w) s = .next s) ∧
    ∀ l d, let a := segDpa s k.toNat (v.core.rg (pwA w) + imm32 w).toNat
      stwCached a = true → l = a / 64 → s.fillOf l = none → L2Holds s l d → (∀ j < 4, (s.score j).stream = none) → s.evictHeld l = false →
      s.steward.evict.length < 16 →
      let clean := fun (t : State) => t.steward.evict = s.steward.evict ++
        (match s.l2Way l with
         | some b => (match s.l2Line l b with
           | some e => if e.dirty then [{ line := l, data := d, en := List.replicate 64 true }] else []
           | none => [])
         | none => [])
      (PorIssues s (.cmoClean c w) → Runs (.cmoClean c w) s fun t => clean t ∧ L2Holds t l d ∧ (t.core c).pc = v.core.pc + 4 ∧ t.mem = s.mem) ∧
      (PorIssues s (.cmoInval c w) → Runs (.cmoInval c w) s fun t => t.steward.evict = s.steward.evict ∧ (L2Ok s → t.l2Way l = none) ∧
        (∀ j < 4, ∀ e ∈ (t.score j).l1, e.1 ≠ l) ∧ (t.core c).pc = v.core.pc + 4 ∧ t.mem = s.mem) ∧
      (PorIssues s (.cmoFlush c w) → Runs (.cmoFlush c w) s fun t => clean t ∧ (L2Ok s → t.l2Way l = none) ∧
        (∀ j < 4, ∀ e ∈ (t.score j).l1, e.1 ≠ l) ∧ (t.core c).pc = v.core.pc + 4 ∧ t.mem = s.mem) ∧
      (PorIssues s (.cmoZl c w) → Runs (.cmoZl c w) s fun t => L2Holds t l (List.replicate 64 0) ∧
        (∀ j < 4, ∀ e ∈ (t.score j).l1, e.1 ≠ l) ∧ (t.core c).pc = v.core.pc + 4 ∧ t.mem = s.mem))

/-- The branches and jumps. On a steward core, whose pc is 32 bits wide in the model (log 13), a target has no upper bound. -/
def Obligations.PorterBranches : Prop :=
  ∀ (c : CoreRef) (w : W32) (s : State),
    let k := s.core c
    let bound := fun (a : Nat) => ∀ n, c = .porter n → a < 65536
    let goes := fun (i : Instr) (a : W32) (gs : List (Nat × W32)) =>
      (bound a.toNat → a.toNat % 4 = 0 → Runs i s (Jumps c a.toNat gs s)) ∧
      (bound a.toNat → a.toNat % 4 ≠ 0 → exec i s = .next (s.coreFault c cMISALIGNED)) ∧
      (¬ bound a.toNat → exec i s = .next (s.coreFault c cSEGMENT))
    let off := ((w.extractLsb' 22 10 ++ w.extractLsb' 7 5).signExtend 32) <<< 2
    (∀ row, PorBranchRow row → PorIssues s (row.1 c w) →
      (row.2 (k.rg (pwA w)) (k.rg (pwB w)) = true → goes (row.1 c w) (k.pc + off) []) ∧
      (row.2 (k.rg (pwA w)) (k.rg (pwB w)) = false → Runs (row.1 c w) s (CoreWrites c [] [] 0 s))) ∧
    (PorIssues s (.porJal c w) → goes (.porJal c w) (k.pc + ((w.extractLsb' 12 20).signExtend 32) <<< 2) [(pwD w, k.pc + 4)]) ∧
    (PorIssues s (.porJalr c w) → goes (.porJalr c w) (k.rg (pwA w) + imm32 w) [(pwD w, k.pc + 4)])

/-- Loads, stores and tallies of a porter's local memory. -/
def Obligations.PorterLocalMemory : Prop :=
  ∀ (n : BitVec 12) (w : W32) (s : State),
    let c := CoreRef.porter n
    let k := s.core c
    let base := porterBase n.toNat
    let fault := fun (a m : Nat) => s.porFault n.toNat (if 65536 < a + m then cSEGMENT else cMISALIGNED)
    (∀ row, PorLoadRow row → PorIssues s (row.1 c w) →
      let a := loadAddr w k
      let out := row.2.2 w (s.word (base + a) row.2.1)
      (LocalOk a row.2.1 → Runs (row.1 c w) s (CoreWrites c out.1 out.2 0 s)) ∧
      (¬ LocalOk a row.2.1 → exec (row.1 c w) s = .next (fault a row.2.1))) ∧
    (∀ row, PorStoreRow row → PorIssues s (row.1 c w) →
      let a := storeAddr w k
      (LocalOk a row.2.1 → Runs (row.1 c w) s (CoreStores c (base + a) row.2.1 (row.2.2 w k) 0 s)) ∧
      (¬ LocalOk a row.2.1 → exec (row.1 c w) s = .next (fault a row.2.1))) ∧
    (let a := (k.rg (pwA w)).toNat
     let b := (k.rg (pwB w)).toNat
     let d := (k.rg (pwD w)).toNat
     let f := if w.getLsbD 31 then bf16 else fp32
     let x := if w.getLsbD 31 then (k.rf (pwA w)).toNat % 65536 else (k.rf (pwA w)).toNat
     let win := ((w.extractLsb' 22 9).toInt : Int)
     (PorIssues s (.porTcvi c w) →
       (LocalOk d 16 → Runs (.porTcvi c w) s
         (CoreStores c (base + d) 16 (toTally win (fdecode f x)).1 (BitVec.ofNat 32 (toTally win (fdecode f x)).2) s)) ∧
       (¬ LocalOk d 16 → exec (.porTcvi c w) s = .next (fault d 16))) ∧
     (PorIssues s (.porTcvo c w) →
       let r := fromTally f win (s.word (base + a) 16)
       (LocalOk a 16 → Runs (.porTcvo c w) s (CoreWrites c [] [(pwD w, BitVec.ofNat 32 r.1)] (BitVec.ofNat 32 r.2) s)) ∧
       (¬ LocalOk a 16 → exec (.porTcvo c w) s = .next (fault a 16))) ∧
     (PorIssues s (.porTaddm c w) →
       (LocalOk a 16 → LocalOk b 16 → LocalOk d 16 → Runs (.porTaddm c w) s
         (CoreStores c (base + d) 16 (tallyAdd (s.word (base + a) 16) (s.word (base + b) 16)) 0 s)) ∧
       (¬ LocalOk a 16 → exec (.porTaddm c w) s = .next (fault a 16)) ∧
       (LocalOk a 16 → ¬ LocalOk b 16 → exec (.porTaddm c w) s = .next (fault b 16)) ∧
       (LocalOk a 16 → LocalOk b 16 → ¬ LocalOk d 16 → exec (.porTaddm c w) s = .next (fault d 16))))

/-- The far requests of a porter. Where several checks of a request fail, the length is judged first and the place last: the model's order
(log 15). -/
def Obligations.PorterFarRequests : Prop :=
  ∀ (n : BitVec 12) (w : W32) (s : State) (r : FarRow), IsFarRow n w s r → PorIssues s r.instr →
    let p := s.porter n.toNat
    let k := p.core
    let dva := (pair64 k (pwA w)).toNat
    let compl := if pwC w = 0 then none else some (k.rg (pwC w)).toNat
    (r.lenOk dva → r.alignOk dva k w → r.placeOk k w →
      (∀ i, p.freeSlot = some i → p.slots.length < 8 → Runs r.instr s
        (Requests n.toNat i { op := r.op, dst := r.dst, n := r.n, compl := compl } 0
          (if r.moves then 1 + (r.data.length + 63) / 64 else 1) (edgeEnd (stopOf n.toNat))
          (.far dva { op := r.acc, dpa := 0, n := r.n, data := r.data, launch := p.msg.launch, who := .porter n.toNat i, back := coreEnd n.toNat }) s)) ∧
      (p.freeSlot = none → exec r.instr s = .next s)) ∧
    (¬ r.lenOk dva → exec r.instr s = .next (s.porFault n.toNat cLENGTH)) ∧
    (r.lenOk dva → ¬ r.alignOk dva k w → exec r.instr s = .next (s.porFault n.toNat cMISALIGNED)) ∧
    (r.lenOk dva → r.alignOk dva k w → ¬ r.placeOk k w → exec r.instr s = .next (s.porFault n.toNat cSEGMENT))

/-- The grid requests of a porter, and their effect at the target. -/
def Obligations.PorterGridRequests : Prop :=
  ∀ (n : BitVec 12) (w : W32) (s : State),
    let c := CoreRef.porter n
    let p := s.porter n.toNat
    let k := p.core
    let g := (k.rg (pwA w)).toNat
    let tgt := 64 * (g / 2 ^ 22 % 64) + g / 2 ^ 16 % 64
    let off := g % 65536
    let len := (k.rg (pwB w)).toNat
    let loc := (k.rg (pwD w)).toNat
    let compl := if pwC w = 0 then none else some (k.rg (pwC w)).toNat
    (PorIssues s (.porGput c w) → ComplOk k w → g < 2 ^ 28 → 4 ≤ len → len ≤ 4096 → len % 4 = 0 → off % 4 = 0 → loc % 4 = 0 →
      off + len ≤ 65536 → loc + len ≤ 65536 → ∀ i, p.freeSlot = some i → p.slots.length < 8 →
      Runs (.porGput c w) s (Requests n.toNat i { op := 0x46, dst := 0, n := len, compl := compl } 2 (1 + (len + 63) / 64) (coreEnd tgt)
        (.gput p.msg.launch off (s.bytes (porterBase n.toNat + loc) len) (.porter n.toNat i) (coreEnd n.toNat)) s)) ∧
    (PorIssues s (.porGadd c w) → ComplOk k w → g < 2 ^ 28 → off % 4 = 0 → ∀ i, p.freeSlot = some i → p.slots.length < 8 →
      Runs (.porGadd c w) s (Requests n.toNat i { op := 0x47, dst := 0, n := 4, compl := compl } 2 1 (coreEnd tgt)
        (.gadd p.msg.launch off (k.rg (pwB w)) (.porter n.toNat i) (coreEnd n.toNat)) s)) ∧
    (2 ^ 28 ≤ g → ∀ i ∈ [Instr.porGput c w, .porGadd c w], PorIssues s i → exec i s = .next (s.porFault n.toNat cSEGMENT)) ∧
    (∀ (who : Asker) (back : MeshEnd) (l : BitVec 16) (o : Nat) (data : List Byte) (u : State),
      Takes (coreEnd n.toNat) (fun b => match b with | .gput _ _ _ _ _ => true | _ => false) (.gput l o data who back) s u →
      Runs (.gridWrite n) s fun t =>
        (s.porRuns n.toNat l = true → t = { u with mem := t.mem, mesh := t.mesh } ∧ t.mem = (u.putBytes (porterBase n.toNat + o) data).mem ∧
          Sends 1 (coreEnd n.toNat) (.one back) 1 (.resp who 0 []) u t) ∧
        (s.porRuns n.toNat l = false → t = { u with mesh := t.mesh, guestbook := t.guestbook } ∧
          Sends 1 (coreEnd n.toNat) (.one back) 1 (.resp who cFOREIGN []) u t)) ∧
    ∀ (who : Asker) (back : MeshEnd) (l : BitVec 16) (o : Nat) (v : W32) (u : State),
      Takes (coreEnd n.toNat) (fun b => match b with | .gadd _ _ _ _ _ => true | .req { op := .add _, .. } => true | _ => false)
        (.gadd l o v who back) s u → s.porRuns n.toNat l = true →
      Runs (.gridAdd n) s fun t => t = { u with mem := t.mem, mesh := t.mesh } ∧ SameMemBut (porterBase n.toNat + o) 4 s t ∧
        BitVec.ofNat 32 (t.word (porterBase n.toNat + o) 4) = BitVec.ofNat 32 (s.word (porterBase n.toNat + o) 4) + v ∧
        Sends 1 (coreEnd n.toNat) (.one back) 1 (.resp who 0 []) u t

/-- FAR_RESPONSE: the response of a request frees its slot, delivers its data and adds one to its completion word; an error kills the
context with BUS_ERROR, but for a tile audit, whose data it is. -/
def Obligations.PorterResponses : Prop :=
  ∀ (n : BitVec 12) (m slot cause : Nat) (data : List Byte) (s u : State),
    Takes (coreEnd n.toNat) (fun b => match b with | .resp (.porter _ _) _ _ => true | _ => false) (.resp (.porter m slot) cause data) s u →
    let p := s.porter n.toNat
    let base := porterBase n.toNat
    (tabFind p.slots slot = none → exec (.farResponse n) s = .next u) ∧
    ∀ r, tabFind p.slots slot = some r →
      (cause = 0 ∨ r.op = 0x45 → Runs (.farResponse n) s fun t =>
        let q := t.porter n.toNat
        let v := if r.op = 0x42 then u.putBytes (base + r.dst) data else u
        t = { u with porters := t.porters, regs := t.regs, mem := t.mem } ∧ (∀ j, j ≠ n.toNat → t.porter j = s.porter j) ∧
          q = { p with slots := q.slots, core := { p.core with g := q.core.g } } ∧
          (∀ j, tabFind q.slots j = if j = slot then none else tabFind p.slots j) ∧
          (∀ j, q.core.rg j = if j = 0 then 0 else
            ((if r.op = 0x40 ∧ r.n ≠ 8 then [(r.dst, BitVec.ofNat 32 (leVal data))]
              else if r.op = 0x40 ∨ r.op = 0x45 then pairOut r.dst (BitVec.ofNat 64 (leVal data)) else []).lookup j).getD (p.core.rg j)) ∧
          t.mem = (match r.compl with
            | none => v
            | some o => v.putBytes (base + o) (leBytes 4 (v.word (base + o) 4 + 1))).mem ∧
          SameRegs [POR.STATUS n.toNat] s t) ∧
      (cause ≠ 0 → r.op ≠ 0x45 → p.stopped = false → ∃ v : State, exec (.farResponse n) s = .next (v.porFaultAt n.toNat cBUS_ERROR cause p.core.pc.toNat) ∧
        v = { u with porters := v.porters, regs := v.regs } ∧ SameRegs [POR.STATUS n.toNat] s v ∧
        ∀ j, tabFind (v.porter n.toNat).slots j = if j = slot then none else tabFind p.slots j)

/-- Waits, milestones, the end of a leg and special registers of a porter. s_cycle is a free value of the model (log 9). -/
def Obligations.PorterWaits : Prop :=
  ∀ (n : BitVec 12) (w : W32) (s : State),
    let c := CoreRef.porter n
    let p := s.porter n.toNat
    let k := p.core
    let idle := { p with wait := .none, core := { k with pc := k.pc + 4 } }
    let waits := fun (x : PorWait) (t : State) => t = { s with porters := t.porters } ∧ (∀ m, m ≠ n.toNat → t.porter m = s.porter m) ∧
      t.porter n.toNat = { p with wait := x }
    let goes := fun (t : State) => t = { s with porters := t.porters, regs := t.regs, mesh := t.mesh } ∧
      (∀ m, m ≠ n.toNat → t.porter m = s.porter m) ∧ t.porter n.toNat = idle
    let reached := fun (a : Nat) (b : W32) => 0 ≤ (BitVec.ofNat 32 (s.word (porterBase n.toNat + a) 4) - b).toInt
    let ends := fun (i : Instr) (x : PorWait) => ∀ y, x = y →
      (∀ q, y = .waitq q → p.slots.length ≤ q → Runs i s fun t => goes t ∧ t.regs = s.regs ∧ t.mesh = s.mesh) ∧
      (∀ id, y = .mile id → p.slots = [] → Runs i s fun t => goes t ∧ t.regs = s.regs ∧ Notifies n.toNat (.mile p.msg id) s t) ∧
      (y = .exit → p.slots = [] → Runs i s fun t => goes t ∧ SameRegs [POR.STATUS n.toNat] s t ∧
        t.reg (POR.STATUS n.toNat) = fldPut (s.reg (POR.STATUS n.toNat)) POR.STATUS_RUNNING 0 ∧
        Notifies n.toNat (.done p.msg k.flags) s t)
    (∀ r ∈ [(Instr.porWaitq c w, PorWait.waitq (pwI w)), (.porMile c w, .mile (pwU w)), (.porExit c w, .exit)], PorIssues s r.1 →
      ends r.1 r.2 ∧ (s.porReady n.toNat r.2 = false → Runs r.1 s (waits r.2))) ∧
    (PorIssues s (.porWaitw c w) →
      let a := (k.rg (pwA w)).toNat
      let b := k.rg (pwB w)
      (LocalOk a 4 → reached a b → Runs (.porWaitw c w) s fun t => goes t ∧ t.regs = s.regs ∧ t.mesh = s.mesh) ∧
      (LocalOk a 4 → ¬ reached a b → Runs (.porWaitw c w) s (waits (.waitw a b))) ∧
      (¬ LocalOk a 4 → exec (.porWaitw c w) s = .next (s.porFault n.toNat (if 65536 < a + 4 then cSEGMENT else cMISALIGNED)))) ∧
    ((∀ a b, p.wait ≠ .waitw a b) → ends (.waitqResume c) p.wait) ∧
    (∀ a b, p.wait = .waitw a b →
      (reached a b → Runs (.waitwResume c) s fun t => goes t ∧ t.regs = s.regs ∧ t.mesh = s.mesh) ∧
      (¬ reached a b → exec (.waitwResume c) s = .next s)) ∧
    (PorIssues s (.porMovs c w) →
      let m := p.msg
      (∀ r ∈ [(0x00, n.toNat / 64), (0x01, n.toNat % 64), (0x02, m.pidx), (0x03, m.nporters), (0x04, m.launch.toNat), (0x05, m.chip),
          (0x06, m.nchips), (0x07, k.flags.toNat), (0x08, m.args), (0x09, p.slots.length)], pwI w = r.1 →
        Runs (.porMovs c w) s (CoreWrites c [(pwD w, BitVec.ofNat 32 r.2)] [] 0 s)) ∧
      (pwI w = 0x10 → Runs (.porMovs c w) s (CoreWrites c (pairOut (pwD w) m.seed) [] 0 s)) ∧
      (pwI w = 0x12 → Runs (.porMovs c w) s (CoreWrites c (pairOut (pwD w) m.step) [] 0 s)) ∧
      (pwI w = 0x14 → Runs (.porMovs c w) s fun t => t.free = s.free + 1 ∧
        CoreWrites c (pairOut (pwD w) (Config.freeCycle s.free)) [] 0 { s with free := s.free + 1 } t)) ∧
    ∀ d : CoreRef, PorIssues s (.porWsr d w) → Runs (.porWsr d w) s fun t => OnlyCore d s t ∧
      t.core d = { s.core d with flags := (s.core d).rg (pwA w), pc := (s.core d).pc + 4 }

/-- Legs, kills and loads at a porter: the steward's packets, and the reads and writes at its interface port. -/
def Obligations.PorterPackets : Prop :=
  ∀ (n : BitVec 12) (s u : State),
    let m := n.toNat
    let p := s.porter m
    let st := POR.STATUS m
    let only := fun (t : State) => t = { u with porters := t.porters, regs := t.regs, mem := t.mem, mesh := t.mesh } ∧
      ∀ j, j ≠ m → t.porter j = s.porter j
    (∀ x, Takes (coreEnd m) (fun b => match b with | .start _ => true | _ => false) (.start x) s u →
      (s.flag st POR.STATUS_RUNNING = false → s.flag st POR.STATUS_IMAGE_OK = true → Runs (.start n) s fun t => only t ∧
        t.porter m = { p with core := { pc := BitVec.ofNat 32 x.entry }, msg := x, wait := .none, stopped := false } ∧
        SameRegs [st] s t ∧ t.reg st = fldPut (s.reg st) POR.STATUS_RUNNING 1 ∧ t.mem = s.mem) ∧
      (s.flag st POR.STATUS_RUNNING = true ∨ s.flag st POR.STATUS_IMAGE_OK = false →
        Runs (.start n) s fun t => t = { u with mesh := t.mesh } ∧ Notifies m (.startRefused m x) u t)) ∧
    (∀ l, Takes (coreEnd m) (fun b => match b with | .kill _ => true | _ => false) (.kill l) s u →
      (s.porRuns m l = true → Runs (.kill n) s fun t => only t ∧ t.porter m = { p with stopped := true, wait := .none } ∧
        SameRegs [st] s t ∧ t.flag st POR.STATUS_RUNNING = false ∧ t.mem = s.mem) ∧
      (s.porRuns m l = false → exec (.kill n) s = .next u)) ∧
    (Takes (coreEnd m) (fun b => match b with | .loadBegin => true | _ => false) .loadBegin s u → Runs (.loadBegin n) s fun t => only t ∧
      t.porter m = { p with loadCount := 0, loadDropped := false } ∧ SameRegs [st, POR.IMAGE_CRC m] s t ∧ t.mem = s.mem ∧
      t.fld (POR.IMAGE_CRC m) POR.IMAGE_CRC_VALUE = 0 ∧ t.flag st POR.STATUS_IMAGE_OK = false) ∧
    (∀ off data, Takes (coreEnd m) (fun b => match b with | .load _ _ => true | _ => false) (.load off data) s u →
      (s.flag st POR.STATUS_RUNNING = false → off + data.length ≤ 65536 → Runs (.load n) s fun t => only t ∧
        t.porter m = { p with loadCount := p.loadCount + data.length } ∧ SameRegs [POR.IMAGE_CRC m] s t ∧
        t.mem = (s.putBytes (porterBase m + off) data).mem ∧
        t.fld (POR.IMAGE_CRC m) POR.IMAGE_CRC_VALUE = crcBytes (s.fld (POR.IMAGE_CRC m) POR.IMAGE_CRC_VALUE) data % 2 ^ 32) ∧
      (s.flag st POR.STATUS_RUNNING = true → Runs (.load n) s fun t => t = { u with porters := t.porters } ∧
        (∀ j, j ≠ m → t.porter j = s.porter j) ∧ t.porter m = { p with loadDropped := true })) ∧
    (∀ count crc, Takes (coreEnd m) (fun b => match b with | .loadCheck _ _ => true | _ => false) (.loadCheck count crc) s u →
      let good := p.loadDropped = false ∧ p.loadCount = count ∧ s.fld (POR.IMAGE_CRC m) POR.IMAGE_CRC_VALUE = crc.toNat
      (good → Runs (.loadCheck n) s fun t => t = { u with regs := t.regs } ∧ SameRegs [st] s t ∧
        t.reg st = fldPut (s.reg st) POR.STATUS_IMAGE_OK 1) ∧
      (¬ good → Runs (.loadCheck n) s fun t => t = { u with mesh := t.mesh } ∧ Notifies m (.imageBad m) u t)) ∧
    ∀ r : MemReq, Takes (coreEnd m) (fun b => match b with | .req { op := .read, .. } => true | .req { op := .write, .. } => true | _ => false)
        (.req r) s u → Runs (.interfacePortAccess n) s fun t =>
      (r.op = .read → t = { u with mesh := t.mesh } ∧
        Sends 1 (coreEnd m) (.one r.back) (if r.n ≤ 8 then 1 else (r.n + 63) / 64) (.resp r.who 0 (s.bytes r.dpa r.n)) u t) ∧
      (r.op = .write → t = { u with mem := t.mem, mesh := t.mesh } ∧ t.mem = (s.putBytes r.dpa r.data).mem ∧
        Sends 1 (coreEnd m) (.one r.back) 1 (.resp r.who 0 []) u t)

/-- Fences and power of a porter. -/
def Obligations.PorterPower : Prop :=
  ∀ (n : BitVec 12) (s : State),
    let m := n.toNat
    let st := POR.STATUS m
    let cleared := fun (t : State) => ∀ a, t.byte a = if porterBase m ≤ a ∧ a < porterBase m + 65536 then 0 else s.byte a
    (s.flag st POR.STATUS_PRESENT = true → s.flag BRG.STATUS BRG.STATUS_PART_RESET_BUSY = false →
      Runs (.porterFence n) s (fun t => t.flag st POR.STATUS_FENCED = true ∧ t.flag st POR.STATUS_RUNNING = false ∧
        (t.porter m).stopped = true ∧ t.flag (POR.CTRL m) POR.CTRL_FENCE = true ∧ t.mem = s.mem ∧
        (∀ k, s.flag st POR.STATUS_RUNNING = true → (s.porter m).stopped = false → s.slotOf (s.porter m).msg.launch = some k →
          (t.launch k).killing = true) ∧
        ∀ e ∈ t.inbox (coreEnd m), isLoad e.2 = true) ∧
      Runs (.porterUnfence n) s fun t => t = { s with regs := t.regs, guestbook := t.guestbook } ∧ SameRegs [st, POR.CTRL m] s t ∧
        t.flag st POR.STATUS_FENCED = false ∧ t.flag (POR.CTRL m) POR.CTRL_FENCE = false ∧
        ∃ e, t.guestbook.waiting = s.guestbook.waiting ++ [e] ∧ e.kind = kUNIT ∧ e.source = srcOf 3 m ∧ e.payload = [2]) ∧
    (s.flag st POR.STATUS_PRESENT = true → s.flag st POR.STATUS_FENCED = true → s.flag st POR.STATUS_DRAINED = true →
      Runs (.porterPowerOff n) s fun t => t = { s with regs := t.regs, mem := t.mem, porters := t.porters } ∧ cleared t ∧
        t.porter m = {} ∧ (∀ j, j ≠ m → t.porter j = s.porter j) ∧ t.flag st POR.STATUS_POWERED = false) ∧
    (s.flag st POR.STATUS_FENCED = false ∨ s.flag st POR.STATUS_DRAINED = false → exec (.porterPowerOff n) s = .next s) ∧
    (s.flag st POR.STATUS_PRESENT = true → s.flag st POR.STATUS_POWERED = false →
      Runs (.porterPowerOn n) s fun t => t = { s with regs := t.regs, porters := t.porters } ∧ SameRegs [POR.CTRL m] s t ∧
        t.flag (POR.CTRL m) POR.CTRL_POWER_OFF = false ∧ t.porter m = { s.porter m with powering := true }) ∧
    ((s.porter m).powering = true → Runs (.porterIslandReady n) s fun t => cleared t ∧ t.porter m = {} ∧
      t.flag st POR.STATUS_POWERED = true ∧ t.flag st POR.STATUS_IMAGE_OK = false ∧ SameRegs [st] s t)

/-! ### Steward cores (R423-R431) -/

/-- Loads and stores of a steward core, and the fills and evictions of its L2. -/
def Obligations.StewardMemory : Prop :=
  (∀ (k : BitVec 2) (w : W32) (s : State),
    let c := CoreRef.steward k
    let v := s.score k.toNat
    (∀ row, PorLoadRow row → PorIssues s (row.1 c w) →
      let a := segDpa s k.toNat (loadAddr w v.core)
      let out := fun (d : List Byte) => row.2.2 w (leVal ((d.drop (a % 64)).take row.2.1))
      (a % row.2.1 ≠ 0 → exec (row.1 c w) s = .next (s.scoreTrap k.toNat cMISALIGNED a)) ∧
      (a % row.2.1 = 0 → stwCached a = true → v.stream = none →
        (∀ e, v.l1.find? (fun e => e.1 == a / 64) = some e → Runs (row.1 c w) s (CoreWrites c (out e.2).1 (out e.2).2 0 s)) ∧
        ((∀ e ∈ v.l1, e.1 ≠ a / 64) → ∀ d, L2Holds s (a / 64) d → Runs (row.1 c w) s fun t =>
          t = { s with steward := { s.steward with cores := t.steward.cores } } ∧
          CoreGets v.core (t.core c) (out d).1 (out d).2 0 ∧ (a / 64, d) ∈ (t.score k.toNat).l1) ∧
        ((∀ e ∈ v.l1, e.1 ≠ a / 64) → s.l2Way (a / 64) = none → s.evictOf (a / 64) = none →
          s.fillOf (a / 64) = none → (s.l2Alloc (a / 64)).isSome = true → Runs (row.1 c w) s fun t =>
          (t.score k.toNat).waiting = true ∧ t.core c = s.core c ∧ t.mem = s.mem ∧ ∃ f, t.fillOf (a / 64) = some f ∧ f.back = none))) ∧
    ∀ row, PorStoreRow row → PorIssues s (row.1 c w) →
      let a := segDpa s k.toNat (storeAddr w v.core)
      (a % row.2.1 ≠ 0 → exec (row.1 c w) s = .next (s.scoreTrap k.toNat cMISALIGNED a)) ∧
      (a % row.2.1 = 0 → stwCached a = true → v.stream = none → ∀ d, L2Holds s (a / 64) d → Runs (row.1 c w) s fun t =>
        CoreGets v.core (t.core c) [] [] 0 ∧ t.mem = s.mem ∧ (t.l2Way (a / 64) = s.l2Way (a / 64)) ∧
        L2Holds t (a / 64) (d.take (a % 64) ++ leBytes row.2.1 (row.2.2 w v.core) ++ d.drop (a % 64 + row.2.1)))) ∧
  (∀ (line : BitVec 48) (s : State) (f : Fill) (data : List Byte), let l := line.toNat
    s.fillOf l = some f → (∀ g ∈ s.steward.fills, g.line = l → g = f) → f.back = some (0, data) → data.length = 64 → f.cmos = [] → f.way < 16 →
    s.evictHeld l = false →
    (f.waits = [] → Runs (.l2FillDone line) s fun t => t.fillOf l = none ∧ t.l2Line l f.way = some { line := l, dirty := false, data := data } ∧
      t.mem = s.mem ∧ t.regs = s.regs) ∧
    ∀ (k : BitVec 2) (off : Nat) (d : LoadDst), f.waits = [.load k.toNat off d] → Runs (.l2FillDone line) s fun t => t.fillOf l = none ∧
      t.l2Line l f.way = some { line := l, dirty := false, data := data } ∧ (t.score k.toNat).waiting = false ∧
      (l, data) ∈ (t.score k.toNat).l1 ∧ t.core (.steward k) = ((s.core (.steward k)).load d ((data.drop off).take d.size)).next ∧ t.mem = s.mem) ∧
  (∀ (s : State) (e : EvEntry) (r : List EvEntry), s.steward.evict = e :: r → e.open_ = none →
    (e.sent = false → 64 * e.line < 0x30000000 → Runs .evictionWrite s fun t =>
      t = { s with steward := { s.steward with evict := { e with sent := true, left := 1 } :: r }, slices := t.slices } ∧
      let sl := (sliceOf (64 * e.line / 4096)).1
      (t.slice sl).bgW = (s.slice sl).bgW ++
        [{ cls := .steward, dpa := 64 * e.line, len := 64, data := e.data, en := e.en, who := .evict e.line }]) ∧
    (e.sent = true → e.left = 0 → Runs .evictionWrite s fun t => t.steward.evict = r ∧ t.mem = s.mem ∧ t.regs = s.regs) ∧
    (e.sent = true → e.left ≠ 0 → exec .evictionWrite s = .next s)) ∧
  ∀ s : State, L2Ok s → s.steward.fills = [] →
    let done := fun (t : State) => t.flag STW.L2_MAINT STW.L2_MAINT_GO = false ∧ SameRegs [STW.L2_MAINT] s t ∧ t.mem = s.mem
    let wrote := fun (t : State) => ∀ l w e, s.l2Line l w = some e → e.line = l → e.dirty = true → lineEntry e ∈ t.steward.evict
    Runs .cleanAll s (fun t => done t ∧ wrote t ∧ ∀ l w e, t.l2Line l w = some e → e.dirty = false ∧
      ∃ o, s.l2Line l w = some o ∧ o.line = e.line ∧ o.data = e.data) ∧
    Runs .flushAll s (fun t => done t ∧ wrote t ∧ ∀ l, t.l2Way l = none) ∧
    Runs .invalAll s fun t => done t ∧ t.steward.evict = s.steward.evict ∧ ∀ l, t.l2Way l = none

/-! ### Registers, elapsed time and the guestbook (R13, R71, R106, R454, R485-R489, R497-R503) -/

/-- Register writes, at a register of each access code: read-write whole and by half, write-1-to-clear, read-write until the seal, and
read-only; a staging window of the timetable; writes that reach no register; and elapsed time, with the latch of its high word. -/
def Obligations.RegisterWrites : Prop :=
  ∀ (who : Writer) (s : State) (v : W64),
    WritesReg who GLB.SCRATCH true v (fun _ => v) s ∧
    WritesReg who GLB.SCRATCH false v (fun o => (o &&& 0xFFFFFFFF00000000#64) ||| (v &&& 0xFFFFFFFF#64)) s ∧
    WritesReg who GB.IRQ_ENABLE false v (fun o => (o &&& 0xFFFFFFFFFFFFF000#64) ||| (v &&& 0xFFF#64)) s ∧
    WritesReg who GB.IRQ_STATUS false v (fun o => o &&& ~~~(v &&& 0xFFF#64)) s ∧
    WritesReg who PT.POWER_LIMIT false v
      (fun o => if s.flag PT.CTRL PT.CTRL_SEAL then o else (o &&& 0xFFFFFFFFFFFFF800#64) ||| (v &&& 0x7FF#64)) s ∧
    WritesReg who GLB.COUNTS true v id s ∧
    (∀ (e i : Nat), e < 2 → i < 655360 → i % 2 = 0 → s.mayWrite who (0x940000 + e * 0x140000 + 2 * i) = true →
      Runs (.registerWrite who (BitVec.ofNat 26 (0x940000 + e * 0x140000 + 2 * i)) false v) s fun t =>
        let k := 2 ^ 20 * s.stagingBank e + i
        (s.flag (XR.TT_CTRL e) XR.TT_CTRL_ARM = true → t = s) ∧
        (s.flag (XR.TT_CTRL e) XR.TT_CTRL_ARM = false → t = { s with halves := t.halves } ∧ t.half (1 - e) = s.half (1 - e) ∧
          t.half e = { s.half e with bank := (t.half e).bank } ∧ ∀ j, tabGet 0 (t.half e).bank j =
            if j = k then v.extractLsb' 0 16 &&& 0x1FFF#16 else if j = k + 1 then v.extractLsb' 16 16 &&& 0x1FFF#16
            else tabGet 0 (s.half e).bank j)) ∧
    (∀ (off : BitVec 26) (wide : Bool),
      (off.toNat % (if wide then 8 else 4) ≠ 0 ∨ (who = .host ∧ s.boot.ready = false) → exec (.registerWrite who off wide v) s = .next s)) ∧
    Runs .etcTick s (fun t => t = { s with regs := t.regs } ∧ SameRegs [ETC.VALUE] s t ∧ t.reg ETC.VALUE = s.reg ETC.VALUE + 80) ∧
    Runs .etcLowRead s fun t => t = { s with etcLatch := t.etcLatch } ∧ t.csrRead (ETC.VALUE + 4) 4 = s.etc / 2 ^ 32 ∧
      ∀ u, exec .etcTick t = .next u → u.csrRead (ETC.VALUE + 4) 4 = s.etc / 2 ^ 32

/-- The commit of the first waiting entry, with its sequence number, its place in the ring and its copy in the retention ring; the search of
the guestbook by time; and the clearing of the retention ring. -/
def Obligations.Guestbook : Prop :=
  (∀ (s : State) (l r : List GbEntry) (e : GbEntry), s.guestbook.waiting = l ++ e :: r → e.seq = 0 → (∀ o ∈ l, gbBefore e o = true) →
    (∀ o ∈ r, gbBefore o e = false) →
    let n := s.fld GB.HEAD_SEQ GB.HEAD_SEQ_SEQ
    let old := s.fld GB.OLDEST_SEQ GB.OLDEST_SEQ_SEQ
    let full := (n + 2 ^ 32 - old) % 2 ^ 32 = 16384
    let kept := [kKILL, kLINK, kTHERMAL, kHEALTH, kSHUTDOWN, kUNIT, kBOOT]
    (s.boot.ready = true → e.stamp + 100000 ≤ s.etc → Runs .guestbookCommit s fun t =>
      let c := { e with seq := BitVec.ofNat 32 n }
      t = { s with regs := t.regs, guestbook := t.guestbook } ∧ t.guestbook.waiting = l ++ r ∧
        (∀ k, tabFind t.guestbook.ring k = if k = n % 16384 then some c else tabFind s.guestbook.ring k) ∧
        SameRegs [GB.HEAD_SEQ, GB.OLDEST_SEQ] s t ∧ t.fld GB.HEAD_SEQ GB.HEAD_SEQ_SEQ = (n + 1) % 2 ^ 32 ∧
        t.fld GB.OLDEST_SEQ GB.OLDEST_SEQ_SEQ = (if full then (old + 1) % 2 ^ 32 else old) ∧
        (e.kind ∈ kept → t.guestbook.retained.getLast? = some c ∧ t.guestbook.retained.length ≤ max 64 s.guestbook.retained.length) ∧
        (e.kind ∉ kept → t.guestbook.retained = s.guestbook.retained)) ∧
    (s.boot.ready = false ∨ s.etc < e.stamp + 100000 → exec .guestbookCommit s = .next s)) ∧
  ∀ (s : State) (x : W64),
    Runs (.find x) s (fun t => t = { s with regs := t.regs, finding := some x.toNat } ∧ SameRegs [GB.FIND, GB.FIND_RESULT] s t ∧
      t.reg GB.FIND = x ∧ t.flag GB.FIND_RESULT GB.FIND_RESULT_VALID = false) ∧
    (s.finding = some x.toNat → (∀ l, s.guestbook.lost = some l → l < x.toNat) →
      let misses := fun (o : GbEntry) => bitOf o.flags 1 = true ∨ o.stamp < x.toNat
      Runs .findDone s fun t => t = { s with regs := t.regs, finding := none } ∧ SameRegs [GB.FIND_RESULT] s t ∧
        t.flag GB.FIND_RESULT GB.FIND_RESULT_VALID = true ∧ t.flag GB.FIND_RESULT GB.FIND_RESULT_TRUNCATED = false ∧
        (∀ l e r, s.gbInOrder = l ++ e :: r → (∀ o ∈ l, misses o) → ¬ misses e → t.fld GB.FIND_RESULT GB.FIND_RESULT_SEQ = e.seq.toNat) ∧
        ((∀ o ∈ s.gbInOrder, misses o) → t.fld GB.FIND_RESULT GB.FIND_RESULT_SEQ = s.fld GB.HEAD_SEQ GB.HEAD_SEQ_SEQ)) ∧
    (s.finding = some x.toNat → (∃ l, s.guestbook.lost = some l ∧ x.toNat ≤ l) →
      Runs .findDone s fun t => t.flag GB.FIND_RESULT GB.FIND_RESULT_TRUNCATED = true ∧
        t.fld GB.FIND_RESULT GB.FIND_RESULT_SEQ = s.fld GB.OLDEST_SEQ GB.OLDEST_SEQ_SEQ) ∧
    Runs .retainClear s fun t => t = { s with guestbook := { s.guestbook with retained := [] } }

/-! ### The crossroads, the shared buffer and the reduction units (R39-R57, R66-R98, R227) -/

/-- Arming, checking and switching the timetable, RUN, holds and realignment. -/
def Obligations.TimetableControl : Prop :=
  ∀ (east : Bool) (s : State),
    let e := halfOf east
    let regs := fun (l : List Nat) (t : State) => t = { s with regs := t.regs } ∧ SameRegs l s t
    (s.flag (XR.TT_CTRL e) XR.TT_CTRL_ARM = false → Runs (.arm east) s fun t => regs [XR.TT_CTRL e, XR.TT_STATUS e] t ∧
      fieldIs t s (XR.TT_CTRL e) XR.TT_CTRL_ARM 1 ∧ fieldIs t s (XR.TT_STATUS e) XR.TT_STATUS_CHECK_BUSY 1) ∧
    (s.flag (XR.TT_STATUS e) XR.TT_STATUS_CHECK_BUSY = true →
      (s.firstBreach e = none → Runs (.ttCheckDone east) s fun t => regs [XR.TT_STATUS e] t ∧
        t.reg (XR.TT_STATUS e) = fldPut (fldPut (s.reg (XR.TT_STATUS e)) XR.TT_STATUS_CHECK_BUSY 0) XR.TT_STATUS_SWITCH_PENDING 1) ∧
      (∀ b, s.firstBreach e = some b → b.slot < 4096 → b.col < 80 → b.rule < 9 → Runs (.ttCheckDone east) s fun t =>
        t = { s with regs := t.regs, disp := t.disp } ∧ SameRegs [XR.TT_CTRL e, XR.TT_STATUS e, XR.CHECK_LOG e] s t ∧ t.disp.staged = none ∧
        t.flag (XR.TT_STATUS e) XR.TT_STATUS_CHECK_FAIL = true ∧ t.flag (XR.TT_STATUS e) XR.TT_STATUS_CHECK_BUSY = false ∧
        t.flag (XR.TT_CTRL e) XR.TT_CTRL_ARM = false ∧ t.flag (XR.CHECK_LOG e) XR.CHECK_LOG_VALID = true ∧
        t.fld (XR.CHECK_LOG e) XR.CHECK_LOG_SLOT = b.slot ∧ t.fld (XR.CHECK_LOG e) XR.CHECK_LOG_COLUMN = b.col ∧
        t.flag (XR.CHECK_LOG e) XR.CHECK_LOG_DIRECTION = b.wr ∧ t.fld (XR.CHECK_LOG e) XR.CHECK_LOG_RULE = b.rule) ∧
      (∀ slot col d, slot < 4096 → col < 80 → d < 2 → slot % 64 = col % 64 →
        (s.bankEntry e (s.stagingBank e) slot col d).isSome = true → (s.firstBreach e).isSome = true)) ∧
    (s.switchReady = true → s.switchable 0 = true → s.switchable 1 = true → Runs .bankSwitch s fun t =>
      (∀ k < 2, t.activeBank k = s.stagingBank k ∧ t.flag (XR.TT_CTRL k) XR.TT_CTRL_ARM = false ∧
        t.flag (XR.TT_STATUS k) XR.TT_STATUS_SWITCH_PENDING = false) ∧ t.mesh.pendingMcast = none ∧
      (∀ l, s.mesh.pendingMcast = some l → ∀ k, tabGet 0 t.mesh.mcast k = if k < l.length then l.getD k 0 else tabGet 0 s.mesh.mcast k) ∧
      t.disp.staged = none ∧ t.mem = s.mem ∧ t.halves = s.halves) ∧
    (s.switchReady = false ∨ s.switchable 0 = false ∨ s.switchable 1 = false → exec .bankSwitch s = .next s) ∧
    (s.running = false → Runs .runSet s fun t => regs [XR.TT_CTRL 0, XR.TT_CTRL 1, XR.TT_SLOT 0, XR.TT_SLOT 1] t ∧
      ∀ k < 2, fieldIs t s (XR.TT_CTRL k) XR.TT_CTRL_RUN 1 ∧ t.fld (XR.TT_SLOT k) XR.TT_SLOT_SLOT = 0) ∧
    (s.running = true → exec .runSet s = .next s) ∧
    Runs .runClear s (fun t => regs [XR.TT_CTRL 0, XR.TT_CTRL 1] t ∧ ∀ k < 2, fieldIs t s (XR.TT_CTRL k) XR.TT_CTRL_RUN 0) ∧
    ((s.half e).realign = false → Runs (.seamHoldEnd east) s fun t => regs [XR.TT_STATUS e] t ∧ fieldIs t s (XR.TT_STATUS e) XR.TT_STATUS_HOLDING 0) ∧
    Runs .realign s fun t => t = { s with regs := t.regs, halves := t.halves } ∧ SameRegs [XR.SEAM_STATUS 0, XR.SEAM_STATUS 1] s t ∧
      (∀ k < 2, t.flag (XR.SEAM_STATUS k) XR.SEAM_STATUS_SPLIT_ACTIVE = false) ∧
      (s.nowSlot 0 = s.nowSlot 1 → t.halves = s.halves) ∧
      ∀ k < 2, s.nowSlot (1 - k) < s.nowSlot k →
        (∀ j < 2, t.flag (XR.SEAM_STATUS j) XR.SEAM_STATUS_REALIGN_PENDING = true) ∧ t.half k = { s.half k with realign := true } ∧
          t.half (1 - k) = s.half (1 - k)

/-- A slot of a half: the counter; a hold; a read meeting and a write meeting of an edge port's request; and, while RUN is 0, background
reads and writes of the shared buffer. -/
def Obligations.TimetableSlots : Prop :=
  ∀ (east : Bool) (s : State),
    let e := halfOf east
    let now := s.nowSlot e
    (s.running = true → s.realignWaits e = true ∨ s.mustHold e now = true → Runs (.timetableSlot east) s fun t =>
      t = { s with regs := t.regs } ∧ SameRegs [XR.TT_STATUS e, XR.SEAM_HOLD_CYCLES e] s t ∧
      fieldIs t s (XR.TT_STATUS e) XR.TT_STATUS_HOLDING 1 ∧ t.reg (XR.SEAM_HOLD_CYCLES e) = s.reg (XR.SEAM_HOLD_CYCLES e) + 1) ∧
    (SlotRuns s e now → PortsFree s [] → Runs (.timetableSlot east) s fun t => SlotOn s t e ∧ t.nowSlot (1 - e) = s.nowSlot (1 - e) ∧
      t.flag (XR.TT_STATUS e) XR.TT_STATUS_HOLDING = false ∧ t.mem = s.mem ∧ t.tiles = s.tiles) ∧
    (∀ (k : BitVec 5) (o : XOp) (r : MemReq) (col d : Nat) (x : TtEntry),
      let q : XPort := ⟨e, 88 + k.toNat⟩
      let sl := 48 * e + col
      SlotRuns s e now → PortsFree s [q] → OneMeeting s e now col d x → x.port = q.port → x.mcast = false → x.completion = false →
      x.reduce = false → s.xops q = [o] → o.req = some r → o.port = q.port → o.red = none → o.whole = false → o.due = none → o.ready = true →
      o.cause = 0 → o.moved = [] → o.arrived = 0 → o.got = [] → o.blocks = 1 → o.next sl x.upper = some (o.addr / 128) →
      isUpper o = false → TileGood s o.addr o.n →
      (d = 0 → o.write = false → Runs (.timetableSlot east) s fun t => t.xops q = [] ∧ t.mem = s.mem ∧ SlotOn s t e ∧
        ∃ n, Sends 1 (edgeEnd (32 * e + k.toNat)) (.one r.back) n (.resp r.who 0 (s.bufBytes o.addr o.n)) s t) ∧
      (d = 1 → o.write = true → o.data.length = o.n → o.addr % 8 = 0 → o.n % 8 = 0 → (s.slice sl).rmw = [] →
        Runs (.timetableSlot east) s fun t => t.xops q = [] ∧ SlotOn s t e ∧ (∀ i < o.n, t.bufByte (o.addr + i) = o.data.getD i 0) ∧
        (∀ a, ¬ (o.addr ≤ a ∧ a < o.addr + o.n) → t.bufByte a = s.bufByte a) ∧
        ∃ n, Sends 1 (edgeEnd (32 * e + k.toNat)) (.one r.back) n (.resp r.who 0 []) s t)) ∧
    (∀ (col : Nat) (b : BgReq),
      let sl := 48 * e + col
      let v := s.slice sl
      s.running = false → s.couriers.chans = [] → col < 48 → s.sliceHere sl = true → (∀ c < 48, c ≠ col → SliceIdle s (48 * e + c)) →
      v.rmw = [] → v.corrQ = [] → v.scrubHeld = [] → s.scrubActive sl = false → b.foreign = false → TileGood s b.dpa b.len →
      (∀ l, v.bgR = [b] → v.bgW = [] → b.who = .line l → Runs (.timetableSlot east) s fun t => (t.slice sl).bgR = [] ∧ t.mem = s.mem ∧
        t.tiles = s.tiles ∧ t.steward.fills = s.steward.fills.map fun f => if f.line = l then { f with back := some (0, s.bufBytes b.dpa b.len) } else f) ∧
      (∀ l, v.bgW = [b] → v.bgR = [] → b.who = .evict l → b.dpa % 8 = 0 → b.len % 8 = 0 → b.data.length = b.len → b.en = List.replicate b.len true →
        (sliceOf (b.dpa / 4096)).1 = sl →
        Runs (.timetableSlot east) s fun t => (t.slice sl).bgW = [] ∧ (∀ i < b.len, t.bufByte (b.dpa + i) = b.data.getD i 0) ∧
        ∀ a, ¬ (b.dpa ≤ a ∧ a < b.dpa + b.len) → t.bufByte a = s.bufByte a)) ∧
    ∀ (k : BitVec 5) (o : XOp) (r : MemReq),
      let q : XPort := ⟨e, 88 + k.toNat⟩
      (s.xops q).find? (fun o => o.req.isSome && decide (4096 ≤ o.age)) = some o → o.req = some r → Runs (.edgePortNoSlot east k) s fun t =>
        t.xops q = (s.xops q).filter (fun p => !p.same o) ∧ t.mem = s.mem ∧
        ∃ n, Sends 1 (edgeEnd (32 * e + k.toNat)) (.one r.back) n (.resp r.who cNO_SLOT []) s t

/-- Scrub passes, combines and closings of the reduction units, and tile audits. -/
def Obligations.SliceEvents : Prop :=
  ∀ (sl : BitVec 7) (s : State),
    let i := sl.toNat
    let v := s.slice i
    i < 96 →
    (s.sliceHere i = true → s.flag (SLICE.SCRUB i) SLICE.SCRUB_ENABLE = true →
      (s.scrubActive i = false → Runs (.scrubPassStart sl) s fun t => t = { s with regs := t.regs, slices := t.slices } ∧
        SameRegs [SLICE.STATUS i] s t ∧ fieldIs t s (SLICE.STATUS i) SLICE.STATUS_SCRUB_ACTIVE 1 ∧ t.slice i = { v with scrubPos := 0 }) ∧
      (s.scrubActive i = true → Runs (.scrubPassStart sl) s fun t => t = { s with regs := t.regs, slices := t.slices } ∧
        SameRegs [SLICE.STATUS i] s t ∧ fieldIs t s (SLICE.STATUS i) SLICE.STATUS_SCRUB_LATE 1 ∧ t.slice i = { v with scrubDue := true })) ∧
    (∀ (l r : List RedBeat) (b : RedBeat) (h : RedHeld), v.red = l ++ b :: r → b.ready = some h →
      (∀ c ∈ l ++ r, (c.idx ≠ b.idx ∨ c.beat ≠ b.beat) ∧ ∀ g, c.ready = some g → h.order < g.order) →
      Runs (.reduceCombine sl) s fun t => t = { s with slices := t.slices } ∧ (∀ j, j ≠ i → t.slice j = s.slice j) ∧
        ∃ c, (t.slice i).red = l ++ c :: r ∧ c.acc = redCombine (redOp b.desc) b.acc h.data ∧ c.e = b.e + 1 ∧ c.idx = b.idx ∧ c.beat = b.beat ∧
          c.held = b.held.filter (fun g => g.idx != h.idx) ∧ (c.done = true ↔ b.e + 1 = redCount b.desc) ∧
          c.poison = (b.poison || h.bad)) ∧
    ((∀ b ∈ v.red, b.ready = none) → exec (.reduceCombine sl) s = .next s) ∧
    (∀ l : BitVec 16, s.slotOf l = none → (∃ b ∈ v.red, redLaunch b.desc = l) → Runs (.reduceClose sl l) s fun t =>
      (t.slice i).red = v.red.filter (fun b => redLaunch b.desc != l) ∧ t.mem = s.mem ∧ Logs kREDUCE_CLOSE 0 (srcOf 1 i) s t ∧
      ∀ b ∈ v.red, redLaunch b.desc = l → b.arrived ≠ 0 → (t.tile (tileAt i (redTile b.desc))).poisoned = true) ∧
    (∀ (l : BitVec 16) (k : Nat), s.slotOf l = some k → s.slotState k = 2 → (s.launch k).killing = false → exec (.reduceClose sl l) s = .next s) ∧
    ∀ (q : Audit) (rest : List Audit), v.audits = q :: rest → (sliceOf q.tile).1 = i → TileGood s (4096 * q.tile) 4096 →
      let good := crcBytes 0 (s.bufBytes (4096 * q.tile) 4096) = s.codeAhead q.tile
      Runs (.tileAudit sl) s fun t => (t.slice i).audits = rest ∧ t.mem = s.mem ∧ (t.tile q.tile).poisoned = (if good then false else true) ∧
        Sends 1 (edgeEnd (stopOf q.porter)) (.one (coreEnd q.porter)) 1 (.resp (.porter q.porter q.slot) 0
          (leBytes 4 (if good then 0 else 1) ++ leBytes 4 (s.tile q.tile).code.toNat)) s t

/-! ### Couriers (R241-R264) -/

/-- Pushes, starts, discards, stops and resumes of a channel. -/
def Obligations.CourierChannels : Prop :=
  ∀ (c : BitVec 5) (ch : BitVec 4) (s : State),
    let C := c.toNat
    let H := ch.toNat
    let v := s.chan C H
    let push := CH.CTRL C H
    let stat := CH.STATUS C H
    (∀ who : Writer,
      let d : Desc := { words := (List.range 16).map fun i => s.reg (CH.DESC C H i), by_ := if who = .host then .driver else .steward }
      (s.flag push CH.CTRL_PUSH = true → exec (.push c ch who) s = .next s) ∧
      (s.flag push CH.CTRL_PUSH = false → v.waiting = [] → 4 ≤ v.queue.length → Runs (.push c ch who) s fun t =>
        t = { s with regs := t.regs, couriers := t.couriers } ∧ SameRegs [push] s t ∧ t.flag push CH.CTRL_PUSH = true ∧
          t.chan C H = { v with waiting := [d] }) ∧
      (s.flag push CH.CTRL_PUSH = false → v.waiting = [] → v.queue.length < 4 → d.launch = 0 →
        (d.ok C = true → d.hash = false → d.op ≠ oHASH → d.cls = 1 → Runs (.push c ch who) s fun t =>
          t = { s with regs := t.regs, couriers := t.couriers, ctu := t.ctu } ∧ t.flag push CH.CTRL_PUSH = false ∧
          ChanIs C H { v with queue := v.queue ++ [{ d with id := v.nextDesc }], nextDesc := v.nextDesc + 1, failed := false } t ∧
          t.fld stat CH.STATUS_QUEUED = v.queue.length + 1) ∧
        (d.ok C = false → Runs (.push c ch who) s fun t => t = { s with regs := t.regs, couriers := t.couriers } ∧
          t.chan C H = { v with failed := true } ∧ t.flag stat CH.STATUS_ERR_SEEN = true ∧ t.flag push CH.CTRL_PUSH = false))) ∧
    (∀ row ∈ [(Instr.copy c ch, oCOPY), (.convert c ch, oCONVERT), (.reduce c ch, oREDUCE), (.courierAdd c ch, oADD), (.discard c ch, oDISCARD),
              (.hash c ch, oHASH), (.watch c ch, oWATCH)],
      (v.queue = [] ∨ v.moving = true ∨ (∃ d r, v.queue = d :: r ∧ d.op ≠ row.2) → exec row.1 s = .next s) ∧
      (∀ d r start, v.queue = d :: r → d.op = row.2 → d.op ≠ oDISCARD → ChanIdle v → s.chanReady C H d = some start → 0 < d.tiles →
        (d.op = oWATCH ∨ (d.cls = 0 ∧ s.nowSlot (C / 16) + d.lead < d.firstSlot start 0 0)) → Runs row.1 s fun t =>
          t = { s with regs := t.regs, couriers := t.couriers, ctu := t.ctu } ∧ t.fld stat CH.STATUS_STATE = 2 ∧
          ChanIs C H { v with moving := true, startSlot := start, next := 0, landed := 0, shift := 0 } t ∧
          (d.hash = true ∨ d.op = oHASH → tabGet 0 t.couriers.lanes C = H + 1 ∧ t.flag stat CH.STATUS_HASH_FAILED = false))) ∧
    (∀ d p x, v.queue = [d] → d.op = oDISCARD → ChanIdle v → v.waiting = [] → Plain d → d.units = 1 → d.arrMode = 0 → d.dstPieces 0 = [p] →
      v.page d p.dva false = some (.page x) → x.w = true →
      let a := x.pa + (p.dva - x.va)
      a % 4096 = 0 → a < 0x30000000 → s.tileGone (a / 4096) = false → s.reserveShut a 4096 = false → Runs (.discard c ch) s fun t =>
        (t.chan C H).queue = [] ∧ (t.chan C H).moving = false ∧ (t.chan C H).landed = 1 ∧
        ∀ b, t.bufByte b = if b / 4096 = a / 4096 then 0 else s.bufByte b) ∧
    (v.moving = false → Runs (.channelAbort c ch) s fun t => (t.chan C H).queue = [] ∧ (t.chan C H).waiting = [] ∧ t.mem = s.mem) ∧
    (v.moving = true → v.jobs ≠ [] → v.queue ≠ [] → v.arrCause = 0 → Runs (.channelAbort c ch) s fun t => t.mem = s.mem ∧
      t.chan C H = { v with queue := v.queue.take 1, waiting := [], stopping := true, parkKind := 0 }) ∧
    (v.parkKind = 0 ∨ v.queue = [] → exec (.tileResume c ch) s = .next s) ∧
    ∀ d r src dst, v.queue = d :: r → v.parkKind ≠ 0 → v.moving = true → v.jobs = [] → v.stopping = false → v.arrCause = 0 →
      d.cls = 0 → d.op ≠ oDISCARD → d.op ≠ oWATCH → d.arrMode ≠ 2 → v.next < d.units → v.landed ≠ d.tiles →
      (s.chanLook C H).placeUnit C ((s.chanLook C H).chan C H) d v.next = .ok src dst →
      let due := d.firstSlot v.startSlot v.shift v.next
      let need := s.nowSlot (C / 16) + d.lead
      let up := (need - due + 4095) / 4096
      need < due + 4096 * up → Runs (.tileResume c ch) s fun t => t = { s with regs := t.regs, couriers := t.couriers, ctu := t.ctu } ∧
        ChanIs C H { v with parkKind := 0, shift := v.shift + up } t ∧ t.fld (CH.SHIFT C H) CH.SHIFT_SHIFT = (v.shift + up) % 2 ^ 32

/-- What a unit delivers, its landing, its error, the increments it causes, and the provenance record. -/
def Obligations.CourierTiles : Prop :=
  ∀ (c : BitVec 5) (ch : BitVec 4) (s : State),
    let C := c.toNat
    let H := ch.toNat
    let v := s.chan C H
    let key := chanKey C H
    let log := COUR.ERR_LOG C
    (∀ d r q rest, v.queue = d :: r → v.jobs = q :: rest → v.next = d.units → v.moving = true → v.stopping = false → v.arrCause = 0 →
      (∀ l, rest = [] → q.wrote = false → q.cause = 0 → q.out = [] → q.dst ≠ [] → d.dstSlice = true → d.cls = 0 → d.dither = false →
        let n := 4096 / d.dstSize * d.srcSize
        let p := max 1 (d.dstSize / d.srcSize)
        (if q.k % p = 0 then q.srcLeft = 0 ∧ l = q.got.flatMap (·.2) else v.kept = some (q.k * n / 4096, l)) →
        let b := (l.drop (q.k % p * n)).take n
        Runs (.tileLanded c ch) s fun t => t = { s with regs := t.regs, couriers := t.couriers, ctu := t.ctu } ∧
          ChanIs C H { v with jobs := [{ q with out := (if d.op = oCONVERT then d.convert none q.k b else b) }],
                              kept := if p = 1 then v.kept else some (q.k * n / 4096, l) } t) ∧
      (rest ≠ [] → q.wrote = true → q.cause = 0 → Plain d → d.arrPerDesc = false → (∀ j ∈ rest, j.srcLeft ≠ 0 ∧ j.cause = 0) →
        Runs (.tileLanded c ch) s fun t => t = { s with regs := t.regs, couriers := t.couriers, ctu := t.ctu } ∧
          ChanIs C H { v with jobs := rest, landed := v.landed + 1 } t ∧
          t.reg (CH.TILES C H) = BitVec.ofNat 64 (v.landed + 1) ∧
          tabGet [] t.couriers.incs key = tabGet [] s.couriers.incs key ++ List.replicate (if d.arrMode = 0 then 0 else 1)
            (d.launch, if d.arrMode = 1 then .hostel (d.arrIndex / 64 % 8) (d.arrIndex % 64) else if d.arrMode = 2 then .word d.arrDva
              else .courier (d.arrIndex / 64 % 32) (d.arrIndex % 64))) ∧
      (rest = [] → q.wrote = true → q.cause = 0 → Plain d → d.arrMode = 0 → v.reads = [] → v.waiting = [] → v.landed + 1 = d.tiles →
        Runs (.tileLanded c ch) s fun t => t.mem = s.mem ∧ (t.chan C H).queue = r ∧ (t.chan C H).moving = false ∧
          (t.chan C H).landed = d.tiles ∧ (t.chan C H).failed = false) ∧
      (q.cause ≠ 0 → q.cause < 256 → rest = [] → Plain d → v.waiting = [] → s.flag log COUR.ERR_LOG_VALID = false →
        Runs (.tileLanded c ch) s fun t => t.mem = s.mem ∧ (t.chan C H).queue = r ∧ (t.chan C H).failed = true ∧
          t.flag (CH.STATUS C H) CH.STATUS_ERR_SEEN = true ∧ t.flag log COUR.ERR_LOG_VALID = true ∧
          t.fld log COUR.ERR_LOG_CHANNEL = H ∧ t.fld log COUR.ERR_LOG_CAUSE = q.cause ∧
          t.fld log COUR.ERR_LOG_TILE = q.k % 2 ^ 32)) ∧
    (∀ l g rest, v.arrOut = false → v.queue = [] → tabGet [] s.couriers.incs key = (l, g) :: rest →
      (∀ h i, g = .hostel h i → Runs (.arrivalVisible c ch) s fun t => t = { s with couriers := t.couriers, hosCtrs := t.hosCtrs } ∧
        tabGet [] t.couriers.incs key = rest ∧
        ∀ k, tabGet 0 t.hosCtrs k = if k = h * 64 + i then tabGet 0 s.hosCtrs k + 1 else tabGet 0 s.hosCtrs k) ∧
      (∀ h i, g = .courier h i → h < 32 → i < 64 → Runs (.arrivalVisible c ch) s fun t =>
        t = { s with couriers := t.couriers, regs := t.regs } ∧ tabGet [] t.couriers.incs key = rest ∧ SameRegs [COUR.ARRIVE h i] s t ∧
        t.fld (COUR.ARRIVE h i) COUR.ARRIVE_VALUE = (s.fld (COUR.ARRIVE h i) COUR.ARRIVE_VALUE + 1) % 2 ^ 32)) ∧
    ∀ d k (e : StreamEntry) x slot leg, v.queue = [d] → d.by_ = .leg slot leg → s.slotOf d.launch = some k →
      (s.launch k).streams.find? (fun e => e.kind == 1 && e.ctx == d.hctx) = some e → d.op = oHASH → d.prov = true → v.moving = true → v.record = false →
      v.stopping = false → v.jobs = [] → v.reads = [] → v.waiting = [] → v.arrCause = 0 → v.landed = d.units → d.arrMode = 0 → 1 < (s.run slot leg).descsLeft →
      s.recordPages C H d e.len = ([some (.page x), some (.page x)], s) → x.w = true → 48 ≤ e.len →
      (∀ i < 48, d.srcByte (e.len - 48 + i) = d.srcByte (e.len - 48) + i) →
      let a := x.pa + (d.srcByte (e.len - 48) - x.va)
      x.va ≤ d.srcByte (e.len - 48) → d.srcByte (e.len - 48) + 48 ≤ x.va + 2 ^ x.log2 → a % 8 = 0 → TileGood s a 48 → a < 0x30000000 →
      (s.slice (sliceOf (a / 4096)).1).rmw = [] →
      Runs (.provenanceRecordWrite c ch) s fun t =>
        (∀ i < 48, t.bufByte (a + i) = (sha384 (s.preimage k d.hctx (e.len - 48))).getD i 0) ∧
        (∀ b, ¬ (a ≤ b ∧ b < a + 48) → t.bufByte b = s.bufByte b) ∧ t.hashCtx k d.hctx = {} ∧
        ∃ g, t.guestbook = { s.guestbook with waiting := s.guestbook.waiting ++ [g] } ∧ g.kind = kPROVENANCE ∧
          g.payload = s.preimage k d.hctx (e.len - 48)

/-! ### The central translation unit and the mesh (R99-R102, R210, R211, R265-R294) -/

/-- Lookups that hit and miss, the start and the steps of a walk, and invalidation. -/
def Obligations.CtuWalks : Prop :=
  ∀ s : State,
    (∀ (port : BitVec 7) (q : Lookup) (rest : List Lookup) (k id : Nat), s.ctuQueue port.toNat = q :: rest → q.who = .stop k id → q.dva < 2 ^ 57 →
      (∀ x, CtuHolds s.ctu q.ast q.dva x → Runs (.ctuLookup port) s fun t =>
        t = { s with regs := t.regs, ctu := t.ctu, stops := t.stops } ∧ SameRegs [CTU.LOOKUPS] s t ∧ t.reg CTU.LOOKUPS = s.reg CTU.LOOKUPS + 1 ∧
          t.ctuQueue port.toNat = rest ∧ StopAnswered k id (.page x) s t) ∧
      (CtuMisses s.ctu q.ast q.dva → NoWalkOn s q → Runs (.ctuLookup port) s fun t =>
        t = { s with regs := t.regs, ctu := { s.ctu with queues := t.ctu.queues, missed := s.ctu.missed ++ [q] } } ∧
          SameRegs [CTU.LOOKUPS, CTU.MISSES] s t ∧ t.reg CTU.LOOKUPS = s.reg CTU.LOOKUPS + 1 ∧ t.reg CTU.MISSES = s.reg CTU.MISSES + 1 ∧
          t.ctuQueue port.toNat = rest)) ∧
    (∀ (q : Lookup) (rest : List Lookup) (i : Nat), s.ctu.missed = q :: rest → NoWalkOn s q → i < 16 → s.walk i = none →
      (∀ j < i, s.walk j ≠ none) → q.dva < 2 ^ 57 → s.flag (CTU.ROOT q.ast) CTU.ROOT_VALID = true →
      tableOk (s.fld (CTU.ROOT q.ast) CTU.ROOT_ADDR * 4096) = true →
      let e := s.fld (CTU.ROOT q.ast) CTU.ROOT_ADDR * 4096 + 8 * (q.dva / 2 ^ 48 % 512)
      let a := e / 256 * 256
      Runs .walkStart s fun t => t.ctu = { s.ctu with missed := rest, walks := t.ctu.walks } ∧ SameRegs [CTU.STATUS] s t ∧ t.mem = s.mem ∧
        t.walk i = some { ast := q.ast, dva := q.dva, level := 4, entry := e, back := none, waiters := [q] } ∧
        (∀ j off, targetOf a = .site j off →
          Sends 0 walkerEnd (.one (siteEnd j)) 1 (.req { op := .read, dpa := a, n := 256, who := .walker i, back := walkerEnd }) s t) ∧
        (targetOf a = .buffer → let sl := (sliceOf (a / 4096)).1
          (t.slice sl).bgR = (s.slice sl).bgR ++ [{ cls := .walker, dpa := a, len := 256, who := .walker i }])) ∧
    (s.ctu.missed = [] ∨ (∃ q r, s.ctu.missed = q :: r ∧ NoWalkOn s q ∧ ∀ i < 16, s.walk i ≠ none) → exec .walkStart s = .next s) ∧
    (∀ (wk : BitVec 4) (w : Walk) (beat : List Byte), s.walk wk.toNat = some w →
      let e := leAt beat (w.entry % 256 / 8 * 8) 8
      (w.back = none → exec (.walkStepDone wk) s = .next s) ∧
      (w.back = some (0, beat) → w.discard = false →
        (bitOf e 0 = true → pteBad w.level e = false → bitOf e 1 = false → Runs (.walkStepDone wk) s fun t =>
          t.walk wk.toNat = some { w with
            level := w.level - 1, back := none, entry := bitsOf e 47 12 * 4096 + 8 * (w.dva / 2 ^ (12 + 9 * (w.level - 1)) % 512) } ∧ t.mem = s.mem ∧ t.stops = s.stops) ∧
        (∀ q k id, w.waiters = [q] → q.who = .stop k id →
          (bitOf e 0 = true → pteBad w.level e = false → bitOf e 1 = true → bitOf e 2 = true → bitsOf e 50 48 = 0 →
            Runs (.walkStepDone wk) s fun t => t = { s with regs := t.regs, ctu := t.ctu, stops := t.stops } ∧ t.walk wk.toNat = none ∧
              StopAnswered k id (.page (leafOf w.level w.dva e)) s t ∧
              ⟨w.ast, leafOf w.level w.dva e⟩ ∈ tabGet [] (t.ctu.array w.level) (tlbSet w.level w.ast (leafOf w.level w.dva e).va)) ∧
          (bitOf e 0 = false → s.flag CTU.CTRL CTU.CTRL_STALL_REPLAY = false → Runs (.walkStepDone wk) s fun t =>
            t = { s with regs := t.regs, ctu := t.ctu, stops := t.stops } ∧ t.walk wk.toNat = none ∧
              StopAnswered k id (.fault 0 w.level) s t))) ∧
      (∀ c, w.back = some (c, beat) → w.discard = true → Runs (.walkStepDone wk) s fun t => t.walk wk.toNat = none ∧
        t.ctu.missed = w.waiters ++ s.ctu.missed ∧ t.stops = s.stops)) ∧
    (∀ ast : BitVec 12,
      (s.flag CTU.INVAL CTU.INVAL_DONE = false → exec (.invalidate ast) s = .next s) ∧
      (s.flag CTU.INVAL CTU.INVAL_DONE = true → Runs (.invalidate ast) s fun t =>
        t = { s with regs := t.regs, ctu := t.ctu, couriers := t.couriers } ∧ SameRegs [CTU.INVAL] s t ∧
          t.fld CTU.INVAL CTU.INVAL_AST = ast.toNat ∧ t.flag CTU.INVAL CTU.INVAL_DONE = false ∧
          t.ctu.inval = some (ast.toNat, s.invalOut ast.toNat) ∧ t.ctu.missed = s.ctu.missed ∧ t.ctu.pending = s.ctu.pending ∧
          ∀ a < 3, ∀ k, tabGet [] (t.ctu.array a) k = (tabGet [] (s.ctu.array a) k).filter fun e => e.ast != ast.toNat)) ∧
    ∀ ast out, s.ctu.inval = some (ast, out) → (∀ e ∈ s.ctu.walks, ∀ w, e.2 = some w → w.ast = ast → w.discard = false) →
      ((∀ o ∈ out, s.stillOut o = false) → Runs .invalidationDone s fun t => t = { s with regs := t.regs, ctu := { s.ctu with inval := none } } ∧
        SameRegs [CTU.INVAL] s t ∧ fieldIs t s CTU.INVAL CTU.INVAL_DONE 1) ∧
      ((∃ o ∈ out, s.stillOut o = true) → exec .invalidationDone s = .next s)

/-- The fault queue, service of a fault, the stall-and-replay mode, and the translation stops. -/
def Obligations.CtuFaults : Prop :=
  ∀ s : State,
    (∀ (i : BitVec 6) (p : PendFault), s.pend i.toNat = some p →
      (p.record ≠ 0 → exec (.faultMergeEnd i) s = .next s) ∧
      (p.record = 0 → NoRecordWaits s → s.flag CTU.STATUS CTU.STATUS_FQ_WRITE_ERROR = false →
        (s.flag CTU.FQ_CTRL CTU.FQ_CTRL_ENABLE = false → Runs (.faultMergeEnd i) s fun t => t = { s with regs := t.regs, ctu := t.ctu } ∧
          t.pend i.toNat = some { p with record := 1 } ∧ ∀ j, j ≠ i.toNat → t.pend j = s.pend j) ∧
        (let n := s.fld CTU.FQ_PROD CTU.FQ_PROD_INDEX
         let a := s.fld CTU.FQ_BASE CTU.FQ_BASE_BASE / 4096 * 4096 + 32 * (n % 2 ^ s.fqLog2)
         s.flag CTU.FQ_CTRL CTU.FQ_CTRL_ENABLE = true → s.fqFull = false → targetOf a = .buffer → TileGood s a 32 →
          (s.slice (sliceOf (a / 4096)).1).rmw = [] → Runs (.faultMergeEnd i) s fun t =>
            (∀ b < 32, t.bufByte (a + b) = (s.record i.toNat p).getD b 0) ∧ (∀ b, ¬ (a ≤ b ∧ b < a + 32) → t.bufByte b = s.bufByte b) ∧
            t.fld CTU.FQ_PROD CTU.FQ_PROD_INDEX = (n + 1) % 2 ^ 32 ∧ t.pend i.toNat = some { p with record := 2, seq := n } ∧
            t.flag CTU.STATUS CTU.STATUS_FQ_FULL = false)) ∧
      (∀ q k id x a, p.waiters = [q] → q.who = .stop k id → s.ctu.waiting = [] → s.walkRoot p.ast p.dva = .down a →
        s.walkFrom p.dva 5 a = (s, .page x) → Runs (.resolveRetry i) s fun t =>
          t = { s with regs := t.regs, ctu := t.ctu, stops := t.stops } ∧ t.pend i.toNat = none ∧ StopAnswered k id (.page x) s t ∧
          ∀ r n slot, (s.stop k).reqs.find? (fun r => r.id == id) = some r → r.req.who = .porter n slot →
            t.flag (POR.STATUS n) POR.STATUS_STALLED = false) ∧
      (p.dva < 2 ^ 57 → s.flag (CTU.ROOT p.ast) CTU.ROOT_VALID = false → s.flag CTU.FQ_CTRL CTU.FQ_CTRL_ENABLE = false →
        Runs (.resolveRetry i) s fun t => t = { s with regs := t.regs, ctu := t.ctu } ∧
          t.pend i.toNat = some { p with kind := 0, level := 5, record := 1, order := s.ctu.order }) ∧
      (∀ q k id, p.waiters = [q] → q.who = .stop k id → s.ctu.waiting = [] → Runs (.resolveAbort i) s fun t =>
        t = { s with regs := t.regs, ctu := t.ctu, stops := t.stops } ∧ t.pend i.toNat = none ∧ StopAnswered k id .abort s t)) ∧
    (∀ i : BitVec 6, s.pend i.toNat = none → exec (.faultMergeEnd i) s = .next s ∧ ∀ c ∈ [Instr.resolveRetry i, .resolveAbort i],
      Runs c s fun t => t = { s with regs := t.regs } ∧ SameRegs [CTU.STATUS] s t ∧ fieldIs t s CTU.STATUS CTU.STATUS_RESOLVE_STALE 1) ∧
    (NoRecordWaits s →
      (∀ v : BitVec 32, Runs (.faultQueueConsume v) s fun t => t = { s with regs := t.regs } ∧ SameRegs [CTU.FQ_CONS, CTU.STATUS] s t ∧
        fieldIs t s CTU.FQ_CONS CTU.FQ_CONS_INDEX v.toNat ∧ fieldIs t s CTU.STATUS CTU.STATUS_FQ_FULL 0) ∧
      Runs .fqWriteErrorClear s fun t => t = { s with regs := t.regs } ∧ SameRegs [CTU.STATUS] s t ∧
        t.flag CTU.STATUS CTU.STATUS_FQ_WRITE_ERROR = false ∧ t.flag CTU.STATUS CTU.STATUS_FQ_FULL = false) ∧
    (∀ on : Bool,
      ((∃ k < 16, s.slotState k = 2) → exec (.stallReplayWrite on) s = .next s) ∧
      ((∀ k < 16, s.slotState k ≠ 2) → Runs (.stallReplayWrite on) s fun t => t = { s with regs := t.regs } ∧ SameRegs [CTU.CTRL] s t ∧
        fieldIs t s CTU.CTRL CTU.CTRL_STALL_REPLAY (if on then 1 else 0))) ∧
    ∀ (east : Bool) (k : BitVec 5),
      let i := k.toNat + (if east then 32 else 0)
      let v := s.stop i
      let isReq : MeshBody → Bool := fun b => match b with
        | .far _ _ => true
        | .req _ => true
        | _ => false
      (∀ (q : StopReq) (x : Trans), v.reqs = [q] → q.ans = some (.page x) → q.stalled = false →
        let r := { q.req with dpa := x.pa + (q.dva - x.va), key := x.key }
        (∀ n, (if q.req.op = .read then x.r else x.w) = true → r.op ≠ .audit → targetOf r.dpa = .porterMem n → Runs (.translationStopRequest east k) s fun t =>
          t = { s with stops := t.stops, mesh := t.mesh } ∧ (t.stop i).reqs = [] ∧
            Sends 0 (edgeEnd i) (.one (coreEnd n)) (1 + (r.data.length + 63) / 64) (.req r) s t) ∧
        ((if q.req.op = .read then x.r else x.w) = false → r.op ≠ .audit → Runs (.translationStopRequest east k) s fun t =>
          t.mem = s.mem ∧ (t.stop i).reqs = [] ∧ Sends 1 (edgeEnd i) (.one r.back) 1 (.resp r.who cPERMISSION []) s t)) ∧
      (∀ q : StopReq, v.reqs = [q] → q.ans = some .abort → q.req.op ≠ .audit → Runs (.translationStopRequest east k) s fun t =>
        t.mem = s.mem ∧ (t.stop i).reqs = [] ∧ Sends 1 (edgeEnd i) (.one q.req.back) 1 (.resp q.req.who cFAULT_ABORTED []) s t) ∧
      (∀ (q : StopReq) kind level n slot, v.reqs = [q] → q.ans = some (.fault kind level) → q.stalled = false → q.req.who = .porter n slot →
        s.flag CTU.CTRL CTU.CTRL_STALL_REPLAY = true → Runs (.translationStopRequest east k) s fun t =>
          t = { s with regs := t.regs, stops := t.stops } ∧ SameRegs [POR.STATUS n] s t ∧ fieldIs t s (POR.STATUS n) POR.STATUS_STALLED 1 ∧
            (t.stop i).reqs = [{ q with stalled := true }]) ∧
      (∀ u dva r, v.reqs = [] → Takes (edgeEnd i) isReq (.far dva r) s u → Runs (.translationStopRequest east k) s fun t =>
        t = { u with stops := t.stops, ctu := t.ctu } ∧ t.stop i = { next := v.next + 1, reqs := [{ id := v.next, dva := dva, req := r }] } ∧
          t.ctuQueue (32 + i) = s.ctuQueue (32 + i) ++ [{
            ast := s.astOf r.launch, dva := dva, write := r.op != .read && r.op != .audit, who := .stop i v.next, launch := r.launch }]) ∧
      ∀ u r n, v.reqs = [] → Takes (edgeEnd i) isReq (.req r) s u → r.op ≠ .audit → targetOf r.dpa = .porterMem n →
        Runs (.translationStopRequest east k) s fun t => t = { u with mesh := t.mesh } ∧
          Sends 0 (edgeEnd i) (.one (coreEnd n)) (1 + (r.data.length + 63) / 64) (.req r) u t

/-- One flit at one output of a router: which head is granted, where it goes, and what a packet's last flit delivers. -/
def Obligations.MeshHops : Prop :=
  ∀ (rt : BitVec 12) (out : MeshPort) (s : State),
    let r := rt.toNat
    ((∀ vc < 4, ∀ inp < 6, s.headFor r out vc inp = none) → exec (.meshHop rt out) s = .next s) ∧
    ∀ vc inp f rest, vc < 4 → inp < 6 → s.queue r inp vc = f :: rest → f.outs = [out] → s.roomFor r out vc = true →
      (∀ w < 4, ∀ j < 6, ∀ g, s.headFor r out w j = some g → (w = vc ∧ j = inp) ∨
        (32 ≤ f.waited ∧ g.waited < 32) ∨ (f.waited < 32 ∧ g.waited < 32 ∧ vcRank vc < vcRank w)) →
      (∀ r' inp', neighbour r out = some (r', inp') → r' ≠ r → Runs (.meshHop rt out) s fun t =>
        t = { s with mesh := t.mesh } ∧ t.queue r inp vc = rest ∧ t.mesh.inbox = s.mesh.inbox ∧
          t.queue r' (portNum inp') vc = s.queue r' (portNum inp') vc ++ [{ f with waited := 0, outs := meshOuts f.dst r' inp' }]) ∧
      (∀ b e, out = .local → f.dst = .one e → f.body = some b → s.flag (POR.STATUS r) POR.STATUS_PRESENT = true →
        s.flag (POR.STATUS r) POR.STATUS_FENCED = false → Runs (.meshHop rt out) s fun t => t = { s with mesh := t.mesh } ∧
          t.queue r inp vc = rest ∧ s.inbox (coreEnd r) ++ [(vc, b)] = t.inbox (coreEnd r)) ∧
      (∀ q e, out = .local → f.dst = .one e → f.body = some (.req q) → s.flag (POR.STATUS r) POR.STATUS_PRESENT = true →
        s.flag (POR.STATUS r) POR.STATUS_FENCED = true → Runs (.meshHop rt out) s fun t => t.queue r inp vc = rest ∧
          t.mesh.inbox = s.mesh.inbox ∧ t.mem = s.mem ∧
          ∃ l z, t.queue r 4 1 = l ++ [z] ∧ z.dst = .one q.back ∧ z.last = true ∧ z.body = some (.resp q.who cFENCED [])) ∧
      (∀ q, out = .attachment → f.body = some (.req q) → Runs (.meshHop rt out) s fun t => t = { s with mesh := t.mesh } ∧
        t.queue r inp vc = rest ∧ t.inbox ⟨r, true⟩ = s.inbox ⟨r, true⟩ ++ [(vc, .req q)]) ∧
      (neighbour r out = none → f.body = none → Runs (.meshHop rt out) s fun t => t = { s with mesh := t.mesh } ∧ t.queue r inp vc = rest ∧
        t.mesh.inbox = s.mesh.inbox)

/-! ### Memory sites (R295-R325, R508) -/

/-- Reads, writes and adds of a memory site, as they are tracked and issued, and scheduled commands. -/
def Obligations.SiteAccesses : Prop :=
  ∀ (site : BitVec 5) (s : State),
    let i := site.toNat
    let v := s.site i
    let ack := fun (r : MemReq) (n cause : Nat) (d : List Byte) (t : State) => Sends 1 (siteEnd i) (.one r.back) n (.resp r.who cause d) s t
    (∀ r k rest p slot, v.mesh = (k, r) :: rest → v.planned = [] → v.adds = [] → r.who = .porter p slot →
      (r.op = .read → r.key = 0 → SiteOk s i r.dpa r.n 0 → Runs (.meshRequestIssue site) s fun t =>
        t = { s with sites := t.sites, mesh := t.mesh } ∧ t.site i = { v with mesh := rest } ∧
          ack r (if r.n ≤ 8 then 1 else (r.n + 63) / 64) 0 (s.bytes r.dpa r.n) t) ∧
      (r.op = .write → SiteOk s i r.dpa r.data.length r.key → r.data.length = r.n →
        (r.key = 0 → Runs (.meshRequestIssue site) s fun t => t = { s with sites := t.sites, mesh := t.mesh, mem := t.mem, wordErr := t.wordErr } ∧
          t.site i = { v with mesh := rest } ∧ t.bytes r.dpa r.n = r.data ∧ SameMemBut r.dpa r.n s t ∧ ack r 1 0 [] t) ∧
        (r.key ≠ 0 → r.dpa % 64 = 0 → r.n = 64 → Runs (.meshRequestIssue site) s fun t => t.site i = { v with mesh := rest } ∧
          t.bytes r.dpa 64 = xtsGranule true (tabGet 0 v.keys r.key) r.dpa r.data ∧ SameMemBut r.dpa 64 s t ∧ ack r 1 0 [] t)) ∧
      (∀ ty, r.op = .add ty → Runs (.meshRequestIssue site) s fun t => t = { s with sites := t.sites } ∧
        t.site i = { v with mesh := rest, adds := [{ req := r }] }) ∧
      (r.op = .read → bitOf (s.reg (MEM.KEY_VALID i)).toNat r.key = false → s.flag (MEM.STATUS i) MEM.STATUS_PRESENT = true →
        s.siteEnabled i = true → siteBase i ≤ r.dpa → r.dpa + r.n ≤ siteBase i + s.siteBytes i → Runs (.meshRequestIssue site) s fun t =>
          t.mem = s.mem ∧ ack r 1 cKEY_INVALID [] t)) ∧
    (v.mesh = [] → exec (.meshRequestIssue site) s = .next s) ∧
    (∀ (q : AddJob) ty p slot, v.adds = [q] → q.done = 0 → q.cause = 0 → q.req.op = .add ty → ty < 5 → q.req.who = .porter p slot →
      let r := q.req
      let n := r.data.length
      let z := addSize ty
      (SiteOk s i r.dpa n 0 → r.key = 0 → r.dpa / 64 = (r.dpa + n - 1) / 64 → r.dpa % z = 0 → n % z = 0 → Runs (.memorySideAdd site) s fun t =>
        t = { s with sites := t.sites, mesh := t.mesh, mem := t.mem, wordErr := t.wordErr, regs := t.regs } ∧ t.site i = { v with adds := [] } ∧
          (∀ e < n / z, t.word (r.dpa + z * e) z = addElem ty (s.word (r.dpa + z * e) z) (leVal ((r.data.drop (z * e)).take z)) % 2 ^ (8 * z)) ∧
          SameMemBut r.dpa n s t ∧ SameRegs [MEM.ADD_COUNT i] s t ∧
          t.reg (MEM.ADD_COUNT i) = s.reg (MEM.ADD_COUNT i) + BitVec.ofNat 64 (n / z) ∧ ack r 1 0 [] t) ∧
      (SiteOk s i r.dpa n r.key → r.dpa % z ≠ 0 ∨ n % z ≠ 0 → Runs (.memorySideAdd site) s fun t => t.mem = s.mem ∧
        t.site i = { v with adds := [] } ∧ ack r 1 cADD_ALIGN [] t)) ∧
    (v.adds = [] → exec (.memorySideAdd site) s = .next s) ∧
    (∀ u r, Takes (siteEnd i) (fun b => match b with
        | .req _ => true
        | _ => false) (.req r) s u →
      (s.siteFenced i = true → Runs (.meshRequest site) s fun t => t = { u with mesh := t.mesh, guestbook := t.guestbook } ∧
        Sends 1 (siteEnd i) (.one r.back) 1 (.resp r.who cFENCED []) u t) ∧
      (s.siteFenced i = false → s.meshShare i < 1280 → Runs (.meshRequest site) s fun t => t = { u with sites := t.sites, regs := t.regs } ∧
        SameRegs [MEM.TRACKER i] s t ∧ t.site i = { v with mesh := v.mesh ++ [(v.seq + 1, r)], seq := v.seq + 1 }) ∧
      (s.siteFenced i = false → 1280 ≤ s.meshShare i → exec (.meshRequest site) s = .next s)) ∧
    (v.cmds = [] → exec (.scheduledCommand site) s = .next s) ∧
    ∀ c rest cc ch id j b, v.cmds = c :: rest → c.who = .courier cc ch id j b → SiteQuiet v →
      let got := fun (cause : Nat) (d : List Byte) (code : Option Nat) (t : State) => t.chan cc ch = { s.chan cc ch with
        jobs := (s.chan cc ch).jobs.map fun q => if q.id = id then q.answer j b cause d code else q }
      (s.siteFenced i = true → Runs (.scheduledCommand site) s fun t => t.mem = s.mem ∧ t.site i = { v with cmds := rest, seq := v.seq + 1 } ∧
        got cFENCED [] none t) ∧
      (s.siteFenced i = false → c.cost ≠ 0 → c.lead < s.fld (MEM.READ_BOUND i) MEM.READ_BOUND_SLOTS → Runs (.scheduledCommand site) s fun t =>
        t.mem = s.mem ∧ t.site i = { v with cmds := rest, seq := v.seq + 1 } ∧ t.reg (MEM.LATE_COUNT i) = s.reg (MEM.LATE_COUNT i) + 1 ∧
        got cSITE_LATE [] none t) ∧
      (s.siteFenced i = false → v.costs = [] → s.fld (MEM.READ_BOUND i) MEM.READ_BOUND_SLOTS ≤ c.lead →
        c.cost ≤ s.fld (MEM.BUDGET i) MEM.BUDGET_UNITS → c.done = false →
        (c.op = .read → c.key = 0 → SiteOk s i c.dpa c.n 0 → Runs (.scheduledCommand site) s fun t => t.mem = s.mem ∧
          (t.site i).cmds = rest ∧ (t.site i).planned = [{ c with seq := v.seq + 1, done := true }] ∧
          got 0 (s.bytes c.dpa c.n) (if c.n = 4096 ∧ c.dpa % 4096 = 0 then some (crcBytes 0 (s.bytes c.dpa c.n)) else none) t) ∧
        (c.op = .write → Runs (.scheduledCommand site) s fun t => t = { s with sites := t.sites, regs := t.regs } ∧ (t.site i).cmds = rest ∧
          (t.site i).planned = [{ c with seq := v.seq + 1 }]))

/-- Refresh, fencing, retraining, margining, temperature, scrubbing and repair of a memory site. -/
def Obligations.SiteService : Prop :=
  ∀ (site : BitVec 5) (s : State),
    let i := site.toNat
    let v := s.site i
    let ctrl := MEM.CTRL i
    let stat := MEM.STATUS i
    s.siteHere i = true →
    (∀ unit : BitVec 6, v.selfRefresh = false → unit.toNat < s.siteUnits i → Runs (.refreshWindow site unit) s fun t =>
      OnlySite i { v with windows := (t.site i).windows } [] s t ∧
        ∀ k, tabGet 0 (t.site i).windows k = tabGet 0 v.windows k + (if k = unit.toNat then 1 else 0)) ∧
    (s.siteFenced i = false → s.couriers.chans = [] → Runs (.siteFence site) s fun t => OnlySite i { v with selfRefresh := true } [ctrl, stat] s t ∧
      fieldIs t s ctrl MEM.CTRL_FENCE 1 ∧ fieldIs t s stat MEM.STATUS_FENCED 1 ∧ Logs kUNIT 0 (srcSite i) s t) ∧
    (s.siteFenced i = true → s.siteEnabled i = true → v.retraining = false → v.margining = false → Runs (.siteUnfence site) s fun t =>
      OnlySite i { v with selfRefresh := false } [ctrl, stat] s t ∧ fieldIs t s ctrl MEM.CTRL_FENCE 0 ∧ fieldIs t s stat MEM.STATUS_FENCED 0 ∧
        Logs kUNIT 0 (srcSite i) s t) ∧
    (s.siteFenced i = false → exec (.siteRetrain site) s = .next s ∧ exec (.marginSweep site) s = .next s) ∧
    (s.siteFenced i = true → v.retraining = false → Runs (.siteRetrain site) s fun t => OnlySite i { v with retraining := true } [ctrl] s t ∧
      fieldIs t s ctrl MEM.CTRL_RETRAIN 1) ∧
    (∀ lat bound : BitVec 12, v.retraining = true → Runs (.siteRetrainDone site lat bound) s fun t =>
      OnlySite i { v with retraining := false } [ctrl, MEM.PHY_LATENCY i, MEM.READ_BOUND i] s t ∧ fieldIs t s ctrl MEM.CTRL_RETRAIN 0 ∧
        fieldIs t s (MEM.PHY_LATENCY i) MEM.PHY_LATENCY_CYCLES lat.toNat ∧ fieldIs t s (MEM.READ_BOUND i) MEM.READ_BOUND_SLOTS bound.toNat) ∧
    (s.siteFenced i = true → v.margining = false → Runs (.marginSweep site) s fun t =>
      OnlySite i { v with margining := true } [MEM.MARGIN_CTRL i, MEM.MARGIN_RESULT i] s t ∧
        fieldIs t s (MEM.MARGIN_CTRL i) MEM.MARGIN_CTRL_START 1 ∧ fieldIs t s (MEM.MARGIN_RESULT i) MEM.MARGIN_RESULT_VALID 0) ∧
    (∀ low high : BitVec 8, v.margining = true → 65536 ≤ s.siteBytes i → Runs (.marginSweepDone site low high) s fun t =>
      SameMemBut (siteBase i + s.siteBytes i - 65536) 65536 s t ∧ SameRegs [MEM.MARGIN_CTRL i, MEM.MARGIN_RESULT i] s t ∧
        t.fld (MEM.MARGIN_RESULT i) MEM.MARGIN_RESULT_LOW = low.toNat ∧ t.fld (MEM.MARGIN_RESULT i) MEM.MARGIN_RESULT_HIGH = high.toNat ∧
        t.flag (MEM.MARGIN_RESULT i) MEM.MARGIN_RESULT_VALID = true ∧ t.site i = { v with margining := false } ∧
        ∀ wd, siteBase i + s.siteBytes i ≤ 8 * wd + 65536 → 8 * wd + 8 ≤ siteBase i + s.siteBytes i → tabGet 0 t.wordErr wd = 0) ∧
    (∀ (port : BitVec 4) (code : BitVec 8), i = 16 + port.toNat →
      (Runs (.mr4Read port code false) s fun t => OnlySite i { v with mr4At := s.etc } [MEM.TEMP i, stat] s t ∧
        t.fld (MEM.TEMP i) MEM.TEMP_MR4 = code.toNat ∧ t.flag (MEM.TEMP i) MEM.TEMP_VALID = true ∧ fieldIs t s stat MEM.STATUS_HOT 0) ∧
      (s.siteFenced i = false → s.couriers.chans = [] → Runs (.mr4Read port code true) s fun t =>
        t.fld (MEM.TEMP i) MEM.TEMP_MR4 = code.toNat ∧ t.flag stat MEM.STATUS_HOT = true ∧ t.flag stat MEM.STATUS_FENCED = true ∧
        t.mem = s.mem ∧ Raised iLPDDR_HOT t)) ∧
    (s.siteFenced i = false → s.siteEcc i = true → s.flag ctrl MEM.CTRL_SCRUB_ENABLE = true → 64 ≤ s.siteBytes i → v.adds = [] →
      let g := siteBase i / 64 + v.scrubPos
      ((∀ wd, wd / 8 = g → tabGet 0 s.wordErr wd = 0) → Runs (.memScrub site) s fun t =>
        OnlySite i (if v.scrubPos + 1 < s.siteBytes i / 64 then { v with scrubPos := v.scrubPos + 1 } else { v with scrubPos := 0, scrubFixed := [] }) [] s t) ∧
      (∀ wd, wd / 8 = g → tabGet 0 s.wordErr wd = 1 → (∀ x, x / 8 = g → x ≠ wd → tabGet 0 s.wordErr x = 0) → Runs (.memScrub site) s fun t =>
        tabGet 0 t.wordErr wd = 0 ∧ t.mem = s.mem ∧
        t.fld (MEM.ECC_CE_COUNT i) MEM.ECC_CE_COUNT_VALUE = min (s.fld (MEM.ECC_CE_COUNT i) MEM.ECC_CE_COUNT_VALUE + 1) (2 ^ 32 - 1))) ∧
    (∀ off : BitVec 37,
      let row := s.siteRow i off.toNat
      (s.siteBytes i ≤ off.toNat → Runs (.repairReq site off) s fun t => OnlySite i v [MEM.REPAIR_REQ i] s t ∧
        fieldIs t s (MEM.REPAIR_REQ i) MEM.REPAIR_REQ_OFFSET off.toNat) ∧
      (off.toNat < s.siteBytes i → row ∉ v.queue → v.retiredTile (s.rowFirst i row / 4096) = false → v.queue.length < 32 →
        Runs (.repairReq site off) s fun t => OnlySite i { v with queue := v.queue ++ [row] } [MEM.REPAIR_REQ i, stat] s t ∧
          t.fld stat MEM.STATUS_REPAIR_QUEUED = v.queue.length + 1 ∧ t.flag stat MEM.STATUS_REPAIR_WAIT = true)) ∧
    ∀ (ok : Bool) (row : Nat), v.queue = [row] → v.repaired = [] →
      let rep := MEM.REPAIR i
      let spares := s.fld rep MEM.REPAIR_SPARES_LEFT_MIN
      (v.cmds ≠ [] ∨ v.planned ≠ [] → exec (.repairInterval site ok) s = .next s) ∧
      (v.cmds = [] → v.planned = [] → Runs (.repairInterval site ok) s fun t => t.mem = s.mem ∧ (t.site i).queue = [] ∧
        t.fld stat MEM.STATUS_REPAIR_QUEUED = 0 ∧ t.flag stat MEM.STATUS_REPAIR_WAIT = false ∧
        (ok = true → spares ≠ 0 → t.fld rep MEM.REPAIR_SPARES_LEFT_MIN = spares - 1 ∧ Logs kREPAIR 0 (srcSite i) s t ∧
          t.fld rep MEM.REPAIR_SOFT_REPAIRS = min (s.fld rep MEM.REPAIR_SOFT_REPAIRS + 1) 255) ∧
        (ok = false ∨ spares = 0 → Raised iRETIRE t ∧ ∃ a n, (t.site i).retired = v.retired ++ [(a, n)] ∧
          a ≤ s.rowFirst i row / 4096 ∧ s.rowLast i row / 4096 < a + n))

/-! ### Oxlux ports (R326-R362) -/

/-- Training, fences, tests and detectors of a port. -/
def Obligations.OxluxTraining : Prop :=
  ∀ (x : BitVec 4) (s : State),
    let n := x.toNat
    let o := s.oxl n
    let st := s.oxState n
    let tr := OX.TRAIN n
    let ct := OX.CTRL n
    let su := OX.STATUS n
    let tst := OX.TEST n
    let down := fun (t : State) => OnlyOx n { o with downAt := s.etc } [tr, ct, su] s t ∧ OxStands n 7 t ∧ Logs kLINK 0 (srcOx n) s t
    let fails := fun (t : State) => (2 ≤ o.rate → t.oxState n = 7) ∧
      (o.rate < 2 → t.oxState n = 2 ∧ t.oxl n = { o with rate := o.rate + 1 } ∧ t.guestbook = s.guestbook)
    let starts := fun (t : State) => OnlyOx n { o with rate := 0, peerMin := 0, searching := false, bad := 0 } [tr, ct, su] s t ∧ OxStands n 1 t
    (∀ d : DetectResult,
      (st ≠ 1 → exec (.linkDetect x d) s = .next s) ∧
      (st = 1 → Runs (.linkDetect x d) s fun t => OxStands n 2 t ∧ t.fld tr OX.TRAIN_POLARITY = d.polarity.toNat ∧
        t.flag tr OX.TRAIN_REVERSED = d.reversed ∧
        OnlyOx n { o with rate := max (min 2 (s.fld ct OX.CTRL_MAX_RATE)) (min 2 d.maxRate.toNat),
                          peerMin := max (s.fld ct OX.CTRL_MIN_WIDTH) d.minWidth.toNat } [tr, su] s t)) ∧
    (st = 1 → Runs (.detectTimeout x) s down) ∧
    (st = 2 → Runs (.linkEqualiseDone x) s fun t => OnlyOx n o [tr, su] s t ∧ OxStands n 3 t) ∧
    (st ≠ 1 → exec (.detectTimeout x) s = .next s) ∧ (st ≠ 2 → exec (.linkEqualiseDone x) s = .next s) ∧
    (∀ locked : BitVec 8, st = 3 →
      (∀ w a, w < 4 → GroupLocked locked w a → (∀ w' a', w < w' → w' < 4 → ¬ GroupLocked locked w' a') →
        (∀ a', a' < a → ¬ GroupLocked locked w a') → o.rate < 4 → 2 ≤ o.rate ∨ o.peerMin ≤ w → Runs (.linkLockDone x locked) s fun t =>
          OxStands n 5 t ∧ OnlyOx n { o.fresh with ctrl := [s.identityPayload n] } [tr, su] s t ∧ t.fld tr OX.TRAIN_RATE = o.rate ∧
            t.fld tr OX.TRAIN_WIDTH = w ∧ t.fld tr OX.TRAIN_FIRST_LANE = a ∧ t.fld tr OX.TRAIN_LOCKED = locked.toNat) ∧
      (locked = 0 → Runs (.linkLockDone x locked) s fails)) ∧
    (2 ≤ st → st ≤ 5 → Runs (.trainingAttemptTimeout x) s fails) ∧
    (st < 2 ∨ 5 < st → exec (.trainingAttemptTimeout x) s = .next s) ∧
    (∀ (serial : BitVec 64) (port : BitVec 4) (node flight : BitVec 16),
      let peer := fun (t : State) => t.reg (OX.PEER_SERIAL n) = serial ∧ t.fld (OX.PEER n) OX.PEER_NODE = node.toNat ∧
        t.fld (OX.PEER n) OX.PEER_PORT = port.toNat
      (st = 6 → Runs (.identity x serial port node flight) s fun t => t = { s with regs := t.regs } ∧
        SameRegs [OX.PEER_SERIAL n, OX.PEER n] s t ∧ peer t) ∧
      (st = 5 → o.reqs = [] → flight.toNat ≤ 65530 → Runs (.identity x serial port node flight) s fun t =>
        OnlyOx n { o with cleanAt := s.etc, ackAt := s.etc } [OX.PEER_SERIAL n, OX.PEER n, OX.FLIGHT n, OX.READ_BOUND n, tr, ct, su] s t ∧
          OxStands n 6 t ∧ peer t ∧ t.flag ct OX.CTRL_RETRAIN = false ∧
          let ps := (flight.toNat + 9) / 10 * 10
          let w := 2 ^ s.fld tr OX.TRAIN_WIDTH
          let need := 16 * (122720 * w + 337920 * 2 ^ s.fld tr OX.TRAIN_RATE + 2 * ps * w)
          t.fld (OX.FLIGHT n) OX.FLIGHT_PS = ps ∧ ∃ b, t.fld (OX.READ_BOUND n) OX.READ_BOUND_SLOTS = b % 4096 ∧
            need ≤ 10000 * w * b ∧ 10000 * w * b < need + 10000 * w) ∧
      (st ≠ 5 → st ≠ 6 → exec (.identity x serial port node flight) s = .next s)) ∧
    (st = 7 → s.flag ct OX.CTRL_AUTO_RETRAIN = true → s.flag ct OX.CTRL_ENABLE = true → Runs (.autoRetrain x) s starts) ∧
    (st ≠ 7 ∨ s.flag ct OX.CTRL_AUTO_RETRAIN = false ∨ s.flag ct OX.CTRL_ENABLE = false → exec (.autoRetrain x) s = .next s) ∧
    (s.oxHere n = true →
      (s.oxIdle n = true → s.flag ct OX.CTRL_ENABLE = true → Runs (.linkRetrain x) s fun t => starts t ∧ t.flag ct OX.CTRL_RETRAIN = true) ∧
      (s.oxIdle n = false → exec (.linkRetrain x) s = .next s) ∧
      Runs (.portDisable x) s (fun t => OnlyOx n o [tr, ct, su] s t ∧ OxStands n 0 t ∧ fieldIs t s ct OX.CTRL_ENABLE 0) ∧
      (s.flag ct OX.CTRL_FENCE = true → exec (.portFence x) s = .next s) ∧
      (s.flag ct OX.CTRL_FENCE = false → s.couriers.chans = [] → Runs (.portFence x) s fun t => OnlyOx n o [ct, su] s t ∧
        fieldIs t s ct OX.CTRL_FENCE 1 ∧ t.flag su OX.STATUS_FENCED = true ∧
        (t.flag su OX.STATUS_DRAINED = true ↔ o.tags = [] ∧ o.retry = []) ∧ Logs kUNIT 0 (srcOx n) s t) ∧
      (s.flag ct OX.CTRL_FENCE = true → s.oxEnabled n = true → Runs (.portUnfence x) s fun t => OnlyOx n o [ct, su] s t ∧
        fieldIs t s ct OX.CTRL_FENCE 0 ∧ fieldIs t s su OX.STATUS_FENCED 0 ∧ Logs kUNIT 0 (srcOx n) s t) ∧
      (∀ v : BitVec 32,
        let word := fun (t : State) => t.fld tst OX.TEST_LOOP = v.toNat % 4 ∧ t.fld tst OX.TEST_PATTERN = v.toNat / 4 % 2 ∧
          t.fld tst OX.TEST_GEN = v.toNat / 8 % 256 ∧ t.fld tst OX.TEST_CHK = v.toNat / 2048 % 256 ∧
          ∀ l < 8, t.reg (OX.PRBS_ERRORS n l) =
            if bitOf v.toNat (11 + l) = true ∧ bitOf (s.fld tst OX.TEST_CHK) l = false then 0 else s.reg (OX.PRBS_ERRORS n l)
        (s.oxIdle n = true → s.flag tst OX.TEST_RUNNING = false → v.toNat % 4 ≠ 0 ∨ v.toNat / 8 % 256 ≠ 0 → Runs (.testStart x v) s fun t =>
          t = { s with regs := t.regs } ∧ word t ∧ t.flag tst OX.TEST_RUNNING = true ∧ OxStands n 0 t) ∧
        (s.oxIdle n = false → Runs (.testStart x v) s fun t => t = { s with regs := t.regs } ∧ word t ∧ t.reg tr = s.reg tr)) ∧
      (Runs (.testEnd x) s fun t => t.fld tst OX.TEST_LOOP = 0 ∧ t.fld tst OX.TEST_GEN = 0 ∧ t.flag tst OX.TEST_RUNNING = false ∧
        (s.flag tst OX.TEST_RUNNING = true → OxStands n 1 t) ∧ (s.flag tst OX.TEST_RUNNING = false → t.reg tr = s.reg tr)) ∧
      ∀ lane : BitVec 3, Runs (.checkerEnable x lane) s fun t => t = { s with regs := t.regs } ∧
        SameRegs [tst, OX.PRBS_ERRORS n lane.toNat] s t ∧
        (∀ l < 8, bitOf (t.fld tst OX.TEST_CHK) l = (if l = lane.toNat then true else bitOf (s.fld tst OX.TEST_CHK) l)) ∧
        (bitOf (s.fld tst OX.TEST_CHK) lane.toNat = false → t.reg (OX.PRBS_ERRORS n lane.toNat) = 0)) ∧
    (∀ (lane : BitVec 3) (lost : Bool),
      ∀ d ∈ [(Instr.lossOfSignal x lane lost, OX.LANES_LOS, OX.LANES_LOS_STICKY, OX.LANE_EVENTS_LOS_EVENTS),
             (.lossOfLock x lane lost, OX.LANES_LOL, OX.LANES_LOL_STICKY, OX.LANE_EVENTS_LOL_EVENTS)],
      let rises := lost && !bitOf (s.fld (OX.LANES n) d.2.1) lane.toNat
      let ev := OX.LANE_EVENTS n lane.toNat
      Runs d.1 s fun t => t = { s with regs := t.regs } ∧ SameRegs [OX.LANES n, ev] s t ∧
        (∀ l < 8, bitOf (t.fld (OX.LANES n) d.2.1) l = (if l = lane.toNat then lost else bitOf (s.fld (OX.LANES n) d.2.1) l) ∧
          bitOf (t.fld (OX.LANES n) d.2.2.1) l = (bitOf (s.fld (OX.LANES n) d.2.2.1) l || (l == lane.toNat && rises))) ∧
        t.fld ev d.2.2.2 = if rises then min (s.fld ev d.2.2.2 + 1) 65535 else s.fld ev d.2.2.2) ∧
    ∀ v : BitVec 16, Runs (.nodeIdWrite v) s fun t => t = { s with regs := t.regs, ox := t.ox } ∧ SameRegs [GLB.NODE_ID] s t ∧
      fieldIs t s GLB.NODE_ID GLB.NODE_ID_NODE v.toNat ∧ ∀ p < 16, t.oxl p =
        if s.oxActive p then { s.oxl p with ctrl := (s.oxl p).ctrl ++ [t.identityPayload p] } else s.oxl p

/-- Flits sent and received, retry, patience, the end of a link, and packets in both directions. -/
def Obligations.OxluxLink : Prop :=
  ∀ (x : BitVec 4) (s : State),
    let n := x.toNat
    let o := s.oxl n
    let st := s.oxState n
    let su := OX.STATUS n
    (st ≠ 5 → st ≠ 6 → exec (.frameSend x) s = .next s ∧ ∀ f, exec (.frameReceive x f) s = .next s) ∧
    (st = 5 → o.owe = [] → o.parts = [] →
      let ack := (o.expect + 8191) % 8192
      o.expect < 8192 →
      (∀ e, o.nak = some e → Runs (.frameSend x) s fun t => OnlyOx n { o with nak := none, sent := o.sent ++ [oxSlot { kind := 5, ack := e } []] } [] s t) ∧
      (∀ p rest, o.nak = none → o.resend = none → o.ctrl = p :: rest → o.retry.length < 4096 → Runs (.frameSend x) s fun t =>
        (t.oxl n).ctrl = rest ∧ (t.oxl n).seq = (o.seq + 1) % 8192 ∧
        (t.oxl n).retry = o.retry ++ [{ seq := o.seq, vc := 0, kind := 6, err := 0, payload := p }] ∧
        (t.oxl n).sent = o.sent ++ [oxSlot { seq := o.seq, ack := ack, kind := 6 } p])) ∧
    (∀ vc p, st = 6 → o.held = false → s.inbox (oxEnd n) = [] → tabGet [] s.stewardTx n = [] → o.owe = [] → o.parts = [] → o.nak = none → o.resend = none →
      o.ctrl = [] → o.retry.length < 4096 → vc < 4 → tabGet [] o.pkts vc = [{ payload := [p] }] → (∀ v, v ≠ vc → tabGet [] o.pkts v = []) →
      1 ≤ tabGet 0 o.credits vc → o.expect < 8192 → Runs (.frameSend x) s fun t => t.mem = s.mem ∧ (t.oxl n).seq = (o.seq + 1) % 8192 ∧
        tabGet [] (t.oxl n).pkts vc = [] ∧ tabGet 0 (t.oxl n).credits vc = tabGet 0 o.credits vc - 1 ∧
        (t.oxl n).retry = o.retry ++ [{ seq := o.seq, vc := vc, kind := 4, err := 0, payload := p }] ∧
        (t.oxl n).sent = o.sent ++ [oxSlot { seq := o.seq, ack := (o.expect + 8191) % 8192, vc := vc, kind := 4 } p]) ∧
    (∀ f : RxFrame, st = 6 →
      (f.uncorrected ≠ 0 → Runs (.frameReceive x f) s fun t => OnlyOx n { o with
          bad := o.bad + 1, searching := o.searching || decide (4 ≤ o.bad + 1), nak := if o.nakSent then o.nak else some o.expect, nakSent := true }
          [OX.FEC_CORRECTED n, OX.FEC_UNCORRECTED n] s t ∧
        t.reg (OX.FEC_UNCORRECTED n) = s.reg (OX.FEC_UNCORRECTED n) + BitVec.ofNat 64 f.uncorrected) ∧
      (∀ c p, f.uncorrected = 0 → f.slots = [oxSlot c p] → p.length = 256 → c.seq = o.expect → c.seq < 8192 → c.kind = 4 → c.vc < 4 → c.credits = 0 →
        o.retry = [] → o.skip = [] → Runs (.frameReceive x f) s fun t => (t.oxl n).expect = (o.expect + 1) % 8192 ∧ (t.oxl n).nakSent = false ∧
          (t.oxl n).bad = 0 ∧ tabGet [] (t.oxl n).rx c.vc = tabGet [] o.rx c.vc ++ [{ payload := [p], err := 0 }] ∧
          t.reg (OX.FEC_CORRECTED n) = s.reg (OX.FEC_CORRECTED n) + BitVec.ofNat 64 f.corrected)) ∧
    (∀ seq : BitVec 13,
      ((∃ f ∈ o.retry, f.seq = seq.toNat) → Runs (.nak x seq) s fun t => t = { s with ox := t.ox, regs := t.regs, launches := t.launches } ∧
        t.oxl n = { o with resend := some seq.toNat } ∧ SameRegs [OX.RETRY_COUNT n] s t ∧
        t.reg (OX.RETRY_COUNT n) = s.reg (OX.RETRY_COUNT n) + 1) ∧
      ((∀ f ∈ o.retry, f.seq ≠ seq.toNat) → exec (.nak x seq) s = .next s)) ∧
    (o.retry = [] → exec (.retryTimeout x) s = .next s) ∧
    (∀ f r, o.retry = f :: r → Runs (.retryTimeout x) s fun t => t = { s with ox := t.ox, regs := t.regs, launches := t.launches } ∧
      t.oxl n = { o with ackAt := s.etc, resend := some f.seq } ∧ t.reg (OX.RETRY_COUNT n) = s.reg (OX.RETRY_COUNT n) + 1) ∧
    (∀ vc : BitVec 2,
      (tabFind o.parts vc.toNat = none → exec (.patienceExpired x vc) s = .next s) ∧
      (∀ q, tabFind o.parts vc.toNat = some q → Runs (.patienceExpired x vc) s fun t => fieldIs t s su OX.STATUS_PATIENCE_EXPIRED 1 ∧
        tabFind (t.oxl n).parts vc.toNat = none ∧ (t.oxl n).expect = q.start ∧ (t.oxl n).nak = some q.start ∧ t.mem = s.mem ∧
        tabGet 0 (t.oxl n).owe vc.toNat = tabGet 0 o.owe vc.toNat + q.payload.length)) ∧
    (st ≠ 6 → exec (.linkFailed x) s = .next s) ∧
    (∀ tag out, st = 6 → o.tags = [(tag, out)] → out.mesh = true → o.reqs = [] → Runs (.linkFailed x) s fun t => OxStands n 7 t ∧ t.mem = s.mem ∧
      (t.oxl n).tags = [] ∧ (t.oxl n).pkts = [] ∧ (t.oxl n).retry = [] ∧ t.flag su OX.STATUS_DOWN_EVENT = true ∧ t.flag su OX.STATUS_DRAINED = true ∧
      t.fld (OX.DOWN_COUNT n) OX.DOWN_COUNT_COUNT = min (s.fld (OX.DOWN_COUNT n) OX.DOWN_COUNT_COUNT + 1) (2 ^ 32 - 1) ∧
      Raised iLINK_DOWN t ∧ Sends 1 (oxEnd n) (.one out.back) 1 (.resp out.who cLINK_DOWN []) s t) ∧
    (∀ d ∈ [(Instr.oxluxRead x, 1, 0, CTU.INWIN_CTRL_RD), (.oxluxWrite x, 2, 0, CTU.INWIN_CTRL_WR), (.oxluxAdd x, 3, 0, CTU.INWIN_CTRL_ADD),
            (.oxluxReduce x, 4, 2, CTU.INWIN_CTRL_ADD)], ∀ p rest, RxFirst s n d.2.2.1 d.2.1 p rest → o.held = false →
      let h := hdrOf p.head
      let win := CTU.INWIN_CTRL h.inwin
      (∀ i ∈ o.ins, i.k ≠ o.nextIn) → p.err = 0 →
      (s.flag (OX.CTRL n) OX.CTRL_FENCE = true → Runs d.1 s fun t => RxTaken n d.2.2.1 p rest s t ∧ t.mem = s.mem ∧ OxAnswers n h cFENCED s t) ∧
      (s.flag (OX.CTRL n) OX.CTRL_FENCE = false →
        (s.flag win CTU.INWIN_CTRL_VALID = false → Runs d.1 s fun t => RxTaken n d.2.2.1 p rest s t ∧ t.mem = s.mem ∧ OxAnswers n h cWINDOW_INVALID s t) ∧
        (s.flag win CTU.INWIN_CTRL_VALID = true → bitOf (s.fld win CTU.INWIN_CTRL_PORT_MASK) n = true →
          (s.fld (CTU.INWIN_LIMIT h.inwin) CTU.INWIN_LIMIT_LIMIT < h.off + h.len →
            Runs d.1 s fun t => RxTaken n d.2.2.1 p rest s t ∧ t.mem = s.mem ∧ OxAnswers n h cWINDOW_LIMIT s t) ∧
          (h.off + h.len ≤ s.fld (CTU.INWIN_LIMIT h.inwin) CTU.INWIN_LIMIT_LIMIT → s.flag win d.2.2.2 = true → Runs d.1 s fun t =>
            t = { s with ox := t.ox, ctu := t.ctu } ∧ RxTaken n d.2.2.1 p rest s t ∧
              (t.oxl n).ins = o.ins ++ [{ k := o.nextIn, hdr := p.head, data := p.data h, left := 1 }] ∧
              t.ctuQueue (96 + n) = s.ctuQueue (96 + n) ++ [{
                ast := s.fld win CTU.INWIN_CTRL_AST, dva := (s.fld (CTU.INWIN_BASE h.inwin) CTU.INWIN_BASE_BASE + h.off) % 2 ^ 57,
                write := d.2.1 != 1, who := .oxlux n o.nextIn, launch := 0 }])))) ∧
    (∀ d ∈ [(Instr.oxluxReadResp x, 0x81), (.oxluxAck x, 0x82)], ∀ p rest out,
      let h := hdrOf p.head
      RxFirst s n 1 d.2 p rest → tabFind o.tags h.tag = some out → out.mesh = true → o.reqs = [] → h.status = 0 → p.err = 0 →
      Runs d.1 s fun t => RxTaken n 1 p rest s t ∧ t.mem = s.mem ∧ tabFind (t.oxl n).tags h.tag = none ∧
        let data := p.data h
        Sends 1 (oxEnd n) (.one out.back) (if data.length ≤ 8 then 1 else (data.length + 63) / 64) (.resp out.who 0 data) s t) ∧
    (∀ k m a, (s.xops (oxX n)).find? (fun o => o.due.isNone && decide (4096 ≤ o.age) && (match o.who with
        | .oxlux _ _ => true
        | _ => false)) = some a → a.who = .oxlux n k → a.req = none → o.ins = [m] → m.k = k → m.left = 1 → m.cause = 0 → m.drop = false →
        (hdrOf m.hdr).opc ≠ 1 → Runs (.inboundNoSlot x) s fun t => t.xops (oxX n) = (s.xops (oxX n)).filter (fun p => !p.same a) ∧
          (t.oxl n).ins = [] ∧ OxAnswers n (hdrOf m.hdr) cNO_SLOT s t) ∧
    ((∀ o ∈ s.xops (oxX n), o.age < 4096) → exec (.inboundNoSlot x) s = .next s) ∧
    ((∀ vc < 4, ∀ p r, tabGet [] o.rx vc = p :: r → p.bad = false) → exec (.reservedOpcPacket x) s = .next s) ∧
    ∀ p rest, tabGet [] o.rx 0 = p :: rest → p.bad = true → p.drop = false → Runs (.reservedOpcPacket x) s fun t => t.mem = s.mem ∧
      RxTaken n 0 p rest s t ∧ OxAnswers n (hdrOf p.head) cPROTOCOL s t

/-! ### Upper sites (R363-R390) -/

/-- Commands and beats of a compute die, bring-up, the sideband, and the site's fence, reset and seal. -/
def Obligations.UpperSites : Prop :=
  ∀ (u : BitVec 2) (s : State),
    let n := u.toNat
    let v := s.upper n
    let su := UP.STATUS n
    let ct := UP.CTRL n
    (∀ (p : BitVec 5) (h : UpHdr) (data : List Byte),
      let q := upX n p.toNat
      let flit := upFlit h data
      p.toNat < 20 → v.phase = 4 → HdrFits h → data.length = 256 → ∀ row ∈ [Instr.upRead u p, .upWrite u p, .upWriteBeat u p],
        (∀ wr : Bool, h.ckind = (if wr then 2 else 1) → h.pkind = 0 → s.xops q = [] → s.upLive n p.toNat = true →
          (Granted s n h.ctile wr → Runs (row flit) s fun t => t = { s with halves := t.halves, regs := t.regs } ∧
            t.flag su UP.STATUS_DRAINED = false ∧ t.xops q = [{
              port := q.port, write := wr, addr := 4096 * h.ctile, n := 4096, ready := !wr, whole := true,
              expect := if wr && h.codeValid then some h.code else none, who := .upper n p.toNat h.ctag wr }]) ∧
          (¬ Granted s n h.ctile wr → Runs (row flit) s fun t => t.xops q = [] ∧ t.mem = s.mem ∧
            (t.upper n).sent = v.sent ++ [(p.toNat, upFinal s n h.ctag wr cAPERTURE)])) ∧
        (∀ o, h.ckind = 0 → h.pkind = 1 → s.xops q = [o] → o.who = .upper n p.toNat h.ptag true → o.data.length = 256 * h.pbeat → o.ready = false →
          Runs (row flit) s fun t => t = { s with halves := t.halves, regs := t.regs } ∧
            t.xops q = [{ o with data := o.data ++ data, ready := decide (h.pbeat = 15), age := 0 }]) ∧
        ∀ bad : BitVec 2176, upCrcOk bad.toNat = false → bitOf (s.fld (UP.PORTS n) UP.PORTS_ACTIVE) p.toNat = true → s.xops q = [] →
          Runs (row bad) s fun t => t.mem = s.mem ∧ t.reg (UP.CRC_ERRORS n) = s.reg (UP.CRC_ERRORS n) + 1 ∧ Raised iUP_FAULT t ∧
            BitIs s t (UP.PORT_FENCED n) UP.PORT_FENCED_PORT p.toNat true ∧ BitIs s t (UP.PORTS n) UP.PORTS_ACTIVE p.toNat false) ∧
    (∀ (p : BitVec 5) (write : Bool) (tag : BitVec 6) (o : XOp) (l r : List XOp),
      let q := upX n p.toNat
      let fin := fun (cause : Nat) (wr : Bool) (t : State) => t.xops q = (s.xops q).filter (fun o' => !o'.same o) ∧ t.mem = s.mem ∧
        (t.upper n).sent = v.sent ++ [(p.toNat, upFinal s n tag.toNat wr cause)]
      s.xops q = l ++ o :: r → (∀ a ∈ l, a.who ≠ o.who) →
      (o.who = .upper n p.toNat tag.toNat write →
        (o.ready = true → o.due = none → 4096 + (if write then 8 else 16) ≤ o.age → Runs (.upNoSlot u p write tag) s (fin cNO_SLOT write)) ∧
        (o.age < 4096 → exec (.upNoSlot u p write tag) s = .next s)) ∧
      (o.who = .upper n p.toNat tag.toNat true →
        (o.ready = false → 4096 ≤ o.born → Runs (.writeBeatsTimeout u p tag) s (fin cPROTOCOL true)) ∧
        (o.ready = true ∨ o.born < 4096 → exec (.writeBeatsTimeout u p tag) s = .next s))) ∧
    (v.phase = 1 → Runs (.resetRelease u) s fun t => t = { s with uppers := t.uppers } ∧ t.upper n = { v with phase := 2, rstN := true }) ∧
    (v.phase ≠ 1 → exec (.resetRelease u) s = .next s) ∧
    (v.phase = 2 → Runs (.identTimeout u) s fun t => UpOff n t ∧ t.flag su UP.STATUS_PRESENT = false ∧ Logs kUNIT 0 (srcUp n) s t) ∧
    (v.phase ≠ 2 → exec (.identTimeout u) s = .next s) ∧
    (∀ msg : BitVec 256,
      let b := sbField msg
      (SbIs msg 1 → v.phase = 2 →
        (s.identOk n msg = true → Runs (.ident u msg) s fun t => t = { s with regs := t.regs, uppers := t.uppers } ∧
          t.flag su UP.STATUS_PRESENT = true ∧ t.fld (UP.POWER n) UP.POWER_GRANTED_W = b 10 2 ∧ t.fld (UP.POWER n) UP.POWER_CORE_MV = b 12 2 ∧
          t.reg (UP.DIE_SERIAL n) = BitVec.ofNat 64 (b 15 8) ∧ t.fld (UP.IDENT n) UP.IDENT_VENDOR = b 2 2 ∧ t.fld (UP.IDENT n) UP.IDENT_PART = b 4 2 ∧
          t.upper n = { v with phase := 3, mask := b 7 3 % 2 ^ 20,
                               msgs := v.msgs ++ [sbMessage ([2] ++ leBytes 1 n ++ leBytes 3 (b 7 3 % 2 ^ 20) ++ leBytes 2 (b 10 2))] }) ∧
        (b 1 1 ≠ 1 ∨ b 7 3 % 2 ^ 20 = 0 ∨ min 450 (s.fld (UP.POWER n) UP.POWER_LIMIT_W) < b 10 2 ∨ b 12 2 % 5 ≠ 0 →
          Runs (.ident u msg) s fun t => UpOff n t ∧ t.flag su UP.STATUS_PRESENT = false)) ∧
      (∀ groups : List GroupTraining, SbIs msg 3 → v.phase = 3 → v.mask ≠ 0 → v.mask < 2 ^ 20 →
        let up := fun (g : Nat) => let r := groups.getD g ⟨false, 0⟩
          r.trained && decide (r.spares.toNat ≤ 8) && (decide (20 ≤ g) || bitOf (b 1 3) g)
        Runs (.trainResult u msg groups) s fun t => t = { s with regs := t.regs, uppers := t.uppers } ∧ (t.upper n).phase = 4 ∧
          t.flag su UP.STATUS_RESET_BUSY = false ∧ t.flag su UP.STATUS_FENCED = s.flag ct UP.CTRL_FENCE ∧
          ∀ k < 20, bitOf (t.fld (UP.PORTS n) UP.PORTS_ACTIVE) k =
            (bitOf (s.fld (UP.PORTS n) UP.PORTS_ACTIVE) k || (bitOf v.mask k && up k && up (20 + k)))) ∧
      (SbIs msg 5 → 3 ≤ v.phase → Runs (.vset u msg) s fun t => t = { s with regs := t.regs, uppers := t.uppers } ∧
        SameRegs [UP.POWER n, PT.RAIL (18 + n)] s t ∧
        let mv := if 600 ≤ b 1 2 ∧ b 1 2 ≤ 950 ∧ b 1 2 % 5 = 0 then b 1 2 else s.fld (UP.POWER n) UP.POWER_CORE_MV
        t.fld (UP.POWER n) UP.POWER_CORE_MV = mv ∧ t.upper n = { v with msgs := v.msgs ++ [sbMessage ([6] ++ leBytes 2 mv)] }) ∧
      (SbIs msg 7 → 2 ≤ v.phase → Runs (.thermal u msg) s fun t => t.mem = s.mem ∧ t.fld (UP.TEMP n) UP.TEMP_CELSIUS = b 1 1 ∧
        t.flag (UP.TEMP n) UP.TEMP_VALID = true) ∧
      (SbIs msg 8 → v.phase = 4 → bitOf (s.fld (UP.PORTS n) UP.PORTS_ACTIVE) (b 1 1) = true → s.xops (upX n (b 1 1)) = [] →
        Runs (.error u msg) s fun t => t.mem = s.mem ∧ t.reg (UP.CRC_ERRORS n) = s.reg (UP.CRC_ERRORS n) + 1 ∧ Raised iUP_FAULT t ∧
          BitIs s t (UP.PORT_FENCED n) UP.PORT_FENCED_PORT (b 1 1) true ∧ BitIs s t (UP.PORTS n) UP.PORTS_ACTIVE (b 1 1) false) ∧
      (∀ ty, SbIs msg ty → ty ∉ [1, 2, 3, 4, 5, 6, 7, 8, 9] → 2 ≤ v.phase → Runs (.unlistedSidebandMessage u msg) s fun t =>
        t = { s with guestbook := t.guestbook }) ∧
      (sbCrcOk msg = false → ∀ g, ∀ c ∈ [Instr.ident u msg, .trainResult u msg g, .vset u msg, .thermal u msg, .error u msg,
        .unlistedSidebandMessage u msg], exec c s = .next s)) ∧
    (4 ≤ v.phase → Runs (.dieThermalTimeout u) s fun t => t = { s with regs := t.regs, power := t.power } ∧ fieldIs t s (UP.TEMP n) UP.TEMP_VALID 0 ∧
      BitIs s t (PT.ZONE_BROKEN (zoneOfUpper n)) PT.ZONE_BROKEN_EXT 0 true) ∧
    (∀ mask : BitVec 20, v.phase = 4 → Runs (.upPortRetrain u mask) s fun t => t = { s with uppers := t.uppers } ∧
      ∀ k < 20, bitOf (t.upper n).retrain k = (bitOf v.retrain k || (mask.getLsbD k && bitOf (s.fld (UP.PORT_FENCED n) UP.PORT_FENCED_PORT) k))) ∧
    (∀ low : Bool, Runs (.alarmNChange u low) s fun t => t = { s with regs := t.regs } ∧
      fieldIs t s su UP.STATUS_ALARM (if low then 1 else 0) ∧
      fieldIs t s (PT.ZONE_STATUS (zoneOfUpper n)) PT.ZONE_STATUS_ALARM (if low then 1 else 0)) ∧
    (s.upHere n = true → s.couriers.chans = [] →
      (s.flag su UP.STATUS_FENCED = false → Runs (.upperSiteFence u) s fun t => t = { s with regs := t.regs, guestbook := t.guestbook } ∧
        SameRegs [su, ct] s t ∧ fieldIs t s ct UP.CTRL_FENCE 1 ∧ fieldIs t s su UP.STATUS_FENCED 1 ∧ Logs kUNIT 0 (srcUp n) s t) ∧
      (s.flag su UP.STATUS_RESET_BUSY = false → v.presentN = false → (∀ p < 20, s.xops (upX n p) = []) → Runs (.upperSiteReset u) s fun t =>
        UpOff n t ∧ t.flag su UP.STATUS_RESET_BUSY = true ∧ t.flag su UP.STATUS_FENCED = true ∧ t.flag ct UP.CTRL_RESET = true ∧
          t.railEnabled (22 + n) = true ∧ t.railEnabled (18 + n) = false ∧ t.mem = s.mem)) ∧
    Runs (.upSeal u) s fun t => t = { s with regs := t.regs } ∧ SameRegs [ct, GLB.SEALS] s t ∧ fieldIs t s ct UP.CTRL_SEAL 1 ∧
      BitIs s t GLB.SEALS GLB.SEALS_UP n true

/-! ### Power delivery and thermal management (R391-R421) -/

/-- Samples of a zone, sensors, deferrals, rails, current limits, the budget, levels and seals. -/
def Obligations.PowerAndThermal : Prop :=
  ∀ s : State,
    (∀ (v : ZoneSample) (q : Int),
      let z := v.zone.toNat
      let zs := PT.ZONE_STATUS z
      let at_ := fun (f : Fld) => 4 * (s.fld (PT.ZONE_THRESH z) f : Int)
      let shut := 4 * (s.fld (PT.ZONE_LIMIT z) PT.ZONE_LIMIT_SHUTDOWN : Int)
      let level := s.fld zs PT.ZONE_STATUS_LEVEL
      let trip := at_ PT.ZONE_THRESH_THR_TRIP ≤ q ∨ s.flag zs PT.ZONE_STATUS_ALARM = true
      let cur := s.zoneState z
      z < 24 → z % 12 ∈ [4, 5, 6, 7, 10, 11] → v.die.length = 4 → (∀ b ∈ v.die, -160 ≤ b.toInt ∧ b.toInt ≤ q) → (∃ b ∈ v.die, b.toInt = q) → q ≤ 600 →
      (∀ k < 4, s.dieBroken z k = false) → s.etc % 1000000 < 80 → cur ≠ 3 →
      (q < shut → Runs (.thermalSample [v]) s fun t => t.mem = s.mem ∧ t.zoneReading z = q ∧
        (cur ≠ 2 → trip → t.zoneState z = 2 ∧ t.fld zs PT.ZONE_STATUS_LEVEL = max 1 (s.fld (PT.ZONE_LIMIT z) PT.ZONE_LIMIT_START_LEVEL) ∧
          Logs kTHERMAL 0 (srcOf 12 z) s t ∧ Raised iTHERMAL t) ∧
        (cur = 0 → ¬ trip → at_ PT.ZONE_THRESH_WARN_TRIP ≤ q → t.zoneState z = 1 ∧ Logs kTHERMAL 0 (srcOf 12 z) s t ∧ Raised iTHERMAL t) ∧
        (cur = 0 → ¬ trip → q < at_ PT.ZONE_THRESH_WARN_TRIP → t.zoneState z = 0 ∧ t.guestbook = s.guestbook) ∧
        (cur = 1 → ¬ trip → t.zoneState z = (if q < at_ PT.ZONE_THRESH_WARN_CLEAR then 0 else 1) ∧ t.guestbook = s.guestbook) ∧
        (cur = 2 → trip → t.zoneState z = 2 ∧ t.fld zs PT.ZONE_STATUS_LEVEL = min 7 (level + 1)) ∧
        (cur = 2 → ¬ trip → at_ PT.ZONE_THRESH_THR_CLEAR ≤ q → t.zoneState z = 2 ∧ t.fld zs PT.ZONE_STATUS_LEVEL = level) ∧
        (cur = 2 → ¬ trip → q < at_ PT.ZONE_THRESH_THR_CLEAR → t.fld zs PT.ZONE_STATUS_LEVEL = level - 1 ∧
          t.zoneState z = (if 1 < level then 2 else if at_ PT.ZONE_THRESH_WARN_CLEAR ≤ q then 1 else 0))) ∧
      (shut + 4 * (max 1 (s.fld (PT.ZONE_LIMIT z) PT.ZONE_LIMIT_SHUT_MARGIN) : Nat) ≤ q → Runs (.thermalSample [v]) s fun t =>
        t.zoneState z = 3 ∧ t.power.thermAlarm = true ∧ ∀ r < 26, t.reg (PT.RAIL r) = 0)) ∧
    (∀ pass : BitVec 96, Runs (.sensorSelfCheck pass) s fun t => t = { s with regs := t.regs, power := t.power } ∧
      ∀ z < 24, ∀ k < 4, t.dieBroken z k = (!pass.getLsbD (4 * z + k) || (s.dieBroken z k && tabGet 0 (s.zone z).dieGood k != 9))) ∧
    (∀ z : BitVec 5,
      (s.zoneDeferred z.toNat = false → exec (.deferTimeout z) s = .next s) ∧
      (s.zoneDeferred z.toNat = true → Runs (.deferTimeout z) s fun t => t.mem = s.mem ∧ t.zoneDeferred z.toNat = false ∧
        Logs kTHERMAL 0 (srcOf 12 z.toNat) s t ∧ Raised iTHERMAL t)) ∧
    (s.flag PT.STATUS PT.STATUS_SHUTDOWN_PENDING = false → exec .shutdownDeadline s = .next s) ∧
    (s.flag PT.STATUS PT.STATUS_SHUTDOWN_PENDING = true → Runs .shutdownDeadline s fun t => (∀ r < 26, t.reg (PT.RAIL r) = 0) ∧ ∀ n < 4, UpOff n t) ∧
    (∀ u : BitVec 2,
      let n := u.toNat
      let rail := PT.RAIL (18 + n)
      Runs (.currentLimitUpdate u) s (fun t => t = { s with power := { s.power with limLevel := t.power.limLevel } } ∧
        ∀ k, tabGet 0 t.power.limLevel k = if k = n then s.thrLevel n else tabGet 0 s.power.limLevel k) ∧
      (∀ limiting : Bool,
        (s.flag rail PT.RAIL_ON = false → exec (.currentLimitReached u limiting) s = .next s) ∧
        (s.flag rail PT.RAIL_ON = true → Runs (.currentLimitReached u limiting) s fun t => t = { s with regs := t.regs, power := t.power } ∧
          fieldIs t s rail PT.RAIL_LIMITING (if limiting then 1 else 0) ∧
          tabFind t.power.limitSince n = if limiting = false then none
            else if s.flag rail PT.RAIL_LIMITING then tabFind s.power.limitSince n else some s.etc)) ∧
      (s.flag rail PT.RAIL_LIMITING = false → exec (.siteSwitchOff u) s = .next s) ∧
      (s.flag rail PT.RAIL_LIMITING = true → s.couriers.chans = [] → (∀ p < 20, s.xops (upX n p) = []) → Runs (.siteSwitchOff u) s fun t =>
        UpOff n t ∧ t.flag (UP.STATUS n) UP.STATUS_FENCED = true ∧ Raised iUP_FAULT t ∧ t.mem = s.mem)) ∧
    (∀ baseW upW : BitVec 11, s.runOrder = [] →
      let lim := min 1200 (s.fld PT.POWER_LIMIT PT.POWER_LIMIT_LIMIT_W)
      let old := s.fld PT.LEVELS PT.LEVELS_LIMITER
      let level := if lim < baseW.toNat then min 7 (old + 1) else if 10 * baseW.toNat ≤ 9 * lim then old - 1 else old
      let cap := min 1200 (s.fld PT.BUDGET_CFG PT.BUDGET_CFG_CAP_W)
      let inState := fun (k : Nat) => ∃ z < 24, s.zoneState z = k
      Runs (.budgetWindow baseW upW) s fun t => t = { s with regs := t.regs } ∧ t.fld PT.POWER PT.POWER_BASE_W = baseW.toNat ∧
        t.fld PT.POWER PT.POWER_UP_W = upW.toNat ∧ t.fld PT.LEVELS PT.LEVELS_LIMITER = level ∧
        (t.flag PT.STATUS PT.STATUS_LIMITING = true ↔ level ≠ 0) ∧ t.fld PT.BUDGET PT.BUDGET_WINDOW = s.etc / 100000 % 2 ^ 32 ∧
        (s.flag PT.STATUS PT.STATUS_SHUTDOWN_PENDING = true → t.freeUj = 0) ∧
        (s.flag PT.STATUS PT.STATUS_SHUTDOWN_PENDING = false →
          (inState 2 → t.freeUj = 50 * cap) ∧ (¬ inState 2 → inState 1 → t.freeUj = 75 * cap) ∧ (¬ inState 2 → ¬ inState 1 → t.freeUj = 100 * cap))) ∧
    (∀ on : Bool,
      (s.runOrder = [] → Runs (.fixedDispatchWrite on) s fun t => t = { s with regs := t.regs } ∧ SameRegs [PT.CTRL, PT.STATUS] s t ∧
        fieldIs t s PT.CTRL PT.CTRL_FIXED_DISPATCH (if on then 1 else 0) ∧ fieldIs t s PT.STATUS PT.STATUS_BUDGET_MODE (if on then 0 else 1)) ∧
      (s.runOrder ≠ [] → s.flag PT.CTRL PT.CTRL_FIXED_DISPATCH ≠ on → exec (.fixedDispatchWrite on) s = .next s)) ∧
    Runs .ptSeal s (fun t => t = { s with regs := t.regs } ∧ SameRegs [PT.CTRL, GLB.SEALS] s t ∧ fieldIs t s PT.CTRL PT.CTRL_SEAL 1 ∧
      fieldIs t s GLB.SEALS GLB.SEALS_PT 1) ∧
    (∀ (r : BitVec 5) (mv : BitVec 10),
      let i := r.toNat
      (s.railEnabled i = false ∨ s.railOn i = true → exec (.railInRegulation r mv) s = .next s) ∧
      (s.railEnabled i = true → s.railOn i = false → Runs (.railInRegulation r mv) s fun t => t.mem = s.mem ∧ t.railOn i = true ∧
        t.fld (PT.RAIL i) PT.RAIL_MV = mv.toNat ∧ t.fld (PT.RAIL i) PT.RAIL_PHASES = 1 ∧
        (∀ e ∈ [(0, 1), (1, 2), (2, 13), (13, 14), (14, 15), (15, 16), (16, 17), (11, 12)], i = e.1 → t.railEnabled e.2 = true) ∧
        (3 ≤ i → i ≤ 10 → t.flag (HOS.STATUS (i - 3)) HOS.STATUS_POWERED = true) ∧
        (22 ≤ i → t.railEnabled (i - 4) = true) ∧
        (18 ≤ i → i < 22 → (t.upper (i - 18)).phase = 1 ∧ t.flag (UP.STATUS (i - 18)) UP.STATUS_POWERED = true ∧
          t.fld (UP.POWER (i - 18)) UP.POWER_CORE_MV = mv.toNat))) ∧
    (∀ (r : BitVec 5) (up : Bool),
      let i := r.toNat
      let old := s.fld (PT.RAIL i) PT.RAIL_MV
      let new := if up then old + 5 else old - 5
      let ok := i < 15 ∧ s.railOn i = true ∧ tabGet 650 s.fuses.railMin i ≤ new ∧ new ≤ tabGet 900 s.fuses.railMax i
      (ok → Runs (.avsStep r up) s fun t => t = { s with regs := t.regs } ∧ SameRegs [PT.RAIL i] s t ∧ fieldIs t s (PT.RAIL i) PT.RAIL_MV new) ∧
      (¬ ok → exec (.avsStep r up) s = .next s)) ∧
    (∀ (r : BitVec 5) (amps : BitVec 11),
      let i := r.toNat
      let a := amps.toNat
      let n := s.fld (PT.RAIL i) PT.RAIL_PHASES
      (26 ≤ i ∨ s.railOn i = false → exec (.phaseChange r amps) s = .next s) ∧
      (i < 26 → s.railOn i = true → Runs (.phaseChange r amps) s fun t => t = { s with regs := t.regs } ∧ SameRegs [PT.RAIL i] s t ∧
        t.fld (PT.RAIL i) PT.RAIL_AMPS = a ∧
        t.fld (PT.RAIL i) PT.RAIL_PHASES = if 25 * n < a then min (railPhases i) (n + 1) else if a < 10 * n then max 1 (n - 1) else n)) ∧
    (s.levelsStale = false → exec .throttleApply s = .next s) ∧
    (s.levelsStale = true → Runs .throttleApply s fun t => t.mem = s.mem ∧ t.guestbook = s.guestbook ∧
      t.reg PT.THROTTLE_COUNT = s.reg PT.THROTTLE_COUNT + BitVec.ofNat 64 s.clocksRise ∧
      (∀ e < 2, t.fabricLevel e = s.wantFabric e ∧ t.porterLevel e = s.wantPorter e ∧ (t.half e).clock = s.wantFabric e) ∧
      (∀ h < 8, t.hostelLevel h = s.wantHostel h) ∧
      ∀ u < 4, t.thrLevel u = s.wantThr u ∧ t.fld (UP.STATUS u) UP.STATUS_THR_LEVEL = s.wantThr u)

/-! ### Launches, the dispatcher and milestones (R25, R26, R109, R110, R146, R409-R447, R492, R493) -/

/-- Launch slots, steps, the kill of a context, and gated clocks. That a step ends only when no arrival of the launch is on its way, and the
digest of a step without a batch stream, are the model's reading (logs 49 and 53). -/
def Obligations.LaunchSlots : Prop :=
  ∀ (slot : BitVec 4) (s : State),
    let k := slot.toNat
    let la := s.launch k
    let st := LNCH.STATUS k
    let busy := s.slotState k = 1 ∨ s.slotState k = 2
    (s.slotState k ≠ 0 → exec (.go slot) s = .next s) ∧
    (s.slotState k = 0 →
      (3 ≤ s.fld BRG.STATUS BRG.STATUS_STAGE → s.fld GB.HEALTH GB.HEALTH_STATE = 2 ∨ s.fld BRG.STATUS BRG.STATUS_STAGE ≠ 3 → SemGood s k → Runs (.go slot) s fun t =>
        Ends k 4 cDEVICE_FAILED s t ∧ SameRegs [st] s t ∧ t.launchId k ≠ 0 ∧
          ∀ j < 16, j ≠ k → s.slotState j ≠ 0 → t.launchId k ≠ s.launchId j) ∧
      (s.fld BRG.STATUS BRG.STATUS_STAGE < 3 → exec (.go slot) s = .next s) ∧
      (s.fld GB.HEALTH GB.HEALTH_STATE ≠ 2 → s.fld BRG.STATUS BRG.STATUS_STAGE = 3 → Runs (.go slot) s fun t =>
        t = { s with regs := t.regs, launches := t.launches, nextLaunch := t.nextLaunch, goOrder := s.goOrder + 1 } ∧ SameRegs [st] s t ∧
          t.slotState k = 1 ∧ t.fld st LNCH.STATUS_CAUSE = 0 ∧ t.fld st LNCH.STATUS_STEPS_DONE = 0 ∧ t.launchId k ≠ 0 ∧
          (∀ j < 16, j ≠ k → s.slotState j ≠ 0 → t.launchId k ≠ s.launchId j) ∧
          t.launch k = { order := s.goOrder + 1, image := s.fld (LNCH.ITIN k) LNCH.ITIN_DPA } ∧ ∀ j, j ≠ k → t.launch j = s.launch j)) ∧
    (s.slotState k ≠ 1 ∨ la.killing = true → exec (.launchCheckDone slot) s = .next s) ∧
    (s.slotState k = 1 → la.killing = false → ∀ img, s.readImage la.image = (s, img) →
      let fails := fun (cause : Nat) => SemGood s k → Runs (.launchCheckDone slot) s fun t => Ends k 4 cause s t ∧ SameRegs [st] s t
      (img = none → fails cIMAGE_FORMAT) ∧
      ∀ b, img = some b →
        (parseImage b = none → fails cIMAGE_FORMAT) ∧
        ∀ p, parseImage b = some p →
          (s.launchCause b p ≠ 0 → fails (s.launchCause b p)) ∧
          (s.launchCause b p = 0 → PlainStep s p → ∃ u, exec (.launchCheckDone slot) s = .next u.admitLegs ∧
            u = { s with regs := u.regs, launches := u.launches, hashes := u.hashes } ∧ SameRegs [st] s u ∧ fieldIs u s st LNCH.STATUS_STATE 2 ∧
            u.launch k = stepStart { p with order := la.order, image := la.image, step := s.reg (LNCH.STEP k), dprog := digOf b, dckpt := s.lastCkpt } ∧
            ∀ h < 16, u.hashCtx k h = {})) ∧
    (s.slotState k ≠ 2 ∨ la.killing = true ∨ la.closing = false ∨ (∃ r ∈ la.runs, r.phase = .admitted ∨ r.phase = .running) ∨
      s.arrivalsOut k = true → exec (.stepEnd slot) s = .next s) ∧
    (s.slotState k = 2 → la.killing = false → la.closing = true → (∀ r ∈ la.runs, r.phase ≠ .admitted ∧ r.phase ≠ .running) → s.arrivalsOut k = false →
      let n := la.stepsDone + 1
      let steps := max 1 (s.fld (LNCH.STEPS k) LNCH.STEPS_COUNT)
      let done := { la with stepsDone := n, step := la.step + 1 }
      ((∃ r ∈ la.runs, r.phase ≠ .ended) → s.slotOf (s.launchId k) = some k → Runs (.stepEnd slot) s fun t =>
        Kills k cSTEP_INCOMPLETE (srcOf 11 0) s t ∧ t.launch k = { la with killing := true }) ∧
      ((∀ r ∈ la.runs, r.phase = .ended) →
        (n = steps → SemGood s k → Runs (.stepEnd slot) s fun t => Ends k 3 0 s t ∧ t.fld st LNCH.STATUS_STEPS_DONE = n ∧ t.launch k = done) ∧
        (n ≠ steps → PlainStep s la → ∃ u, exec (.stepEnd slot) s = .next (u.admitLegs.semaphore k) ∧
          u = { s with regs := u.regs, launches := u.launches } ∧ SameRegs [st] s u ∧ fieldIs u s st LNCH.STATUS_STEPS_DONE n ∧
          u.launch k = stepStart done))) ∧
    (∀ n l u, Takes stewardEnd (fun b => match b with | .killed _ _ => true | _ => false) (.killed n l) s u →
      (s.slotOf l = none → exec .killed s = .next u) ∧
      (s.slotOf l = some k → la.killing = true → la.killSent = false → NothingWaits s → Runs .killed s fun t => ContextStops k u t)) ∧
    (¬ busy ∨ la.killing = false → exec (.killComplete slot) s = .next s) ∧
    (busy → la.killing = true → la.killSent = true →
      (s.peersOut (s.launchId k) = true → exec (.killComplete slot) s = .next s) ∧
      (s.peersOut (s.launchId k) = false → SemGood s k → Runs (.killComplete slot) s fun t => Ends k 5 (s.fld st LNCH.STATUS_CAUSE) s t ∧
        ∀ h < 8, ∀ b < 8, (s.blockAt h b).used = true → (s.blockAt h b).launch = s.launchId k → t.blockAt h b = {} ∧
          (∀ g < 64, (s.group h g).used = true → (s.group h g).launch = s.launchId k → t.group h g = {}) ∧
          ∀ i < (s.blockAt h b).size, t.byte (storeBase h + (s.blockAt h b).alloc + i) = 0)) ∧
    (¬ busy → exec (.launchAbort slot) s = .next s) ∧
    (busy → la.killing = false → la.killSent = false → s.slotOf (s.launchId k) = some k → NothingWaits s → (∀ r ∈ la.runs, r.portersLeft = 0) →
      Runs (.launchAbort slot) s fun t => Kills k cLAUNCH_ABORTED (srcOf 11 0) s t ∧ t.mesh = s.mesh ∧
        t.launch k = { la with killing := true, killSent := true } ∧ t.mileMsgs = s.mileMsgs.filter (fun m => m.slot != k)) ∧
    (3 ≤ s.slotState k → Runs (.slotRelease slot) s fun t => t = { s with regs := t.regs } ∧ SameRegs [st] s t ∧ fieldIs t s st LNCH.STATUS_STATE 0) ∧
    (s.slotState k < 3 → exec (.slotRelease slot) s = .next s) ∧
    (∀ (leg : BitVec 12),
      (s.slotState k = 2 → la.killing = false → (s.run k leg.toNat).phase = .running → s.slotOf (s.launchId k) = some k →
        Runs (.legWatchdog slot leg) s fun t => Kills k cLEG_WATCHDOG (srcOf 11 0) s t ∧ t.launch k = { la with killing := true }) ∧
      (s.slotState k ≠ 2 ∨ la.killing = true ∨ (s.run k leg.toNat).phase ≠ .running → exec (.legWatchdog slot leg) s = .next s)) ∧
    (∀ m f u, Takes stewardEnd (fun b => match b with | .done _ _ => true | _ => false) (.done m f) s u → m.slot = k →
      (s.slotState k ≠ 2 ∨ la.killing = true ∨ s.launchId k ≠ m.launch → exec .done s = .next u) ∧
      (s.slotState k = 2 → la.killing = false → s.launchId k = m.launch → ∀ r l, la.runs[m.leg]? = some r → la.legs[m.leg]? = some l →
        let r' := { r with portersLeft := r.portersLeft - 1, flags := Nat.lor r.flags f.toNat }
        (1 < r.portersLeft → Runs .done s fun t => t = { u with launches := t.launches } ∧
          t.launch k = { la with runs := listUpd (fun _ => r') la.runs m.leg } ∧ ∀ j, j ≠ k → t.launch j = s.launch j) ∧
        (r.phase = .running → r.blocksLeft = 0 → r.portersLeft = 1 → r.descsLeft = 0 → Runs .done s fun t =>
          t = { u with launches := t.launches, guestbook := t.guestbook, mileMsgs := t.mileMsgs } ∧ t.run k m.leg = { r' with phase := .ended } ∧
            Logs kLEG_END 0 (srcOf 11 0) s t ∧ (t.launch k).tallyRange = (la.tallyRange || bitOf r'.flags 5) ∧
            t.mileMsgs = s.mileMsgs ++ (if l.endMile = 0xFFFF then [] else [⟨k, l.endMile⟩])))) ∧
    (∀ m u, Takes stewardEnd (fun b => match b with | .imageBad _ => true | _ => false) (.imageBad m) s u → exec .imageBad s = .next u) ∧
    (∀ n m u, Takes stewardEnd (fun b => match b with | .startRefused _ _ => true | _ => false) (.startRefused n m) s u → m.slot = k →
      (s.slotState k ≠ 2 ∨ la.killing = true ∨ s.launchId k ≠ m.launch → exec .startRefused s = .next u) ∧
      (s.slotState k = 2 → la.killing = false → la.killSent = false → s.launchId k = m.launch → NothingWaits s → SemGood s k →
        Runs .startRefused s fun t => Ends k 4 cPORTER_REFUSED s t ∧ t.launch k = { la with killing := true, killSent := true })) ∧
    (∀ d : Domain,
      let n := domainNum d
      (s.domainNeeded n = true → exec (.clockGateIdle d) s = .next s) ∧
      (s.domainNeeded n = false → Runs (.clockGateIdle d) s fun t => t = { s with clocks := t.clocks } ∧
        ∀ j, t.clock j = if j = n then 0 else s.clock j) ∧
      (s.clock n ≠ 1 → ∀ locked, exec (.clockWakeEnd d locked) s = .next s) ∧
      (s.clock n = 1 → Runs (.clockWakeEnd d true) s fun t => t = { s with clocks := t.clocks } ∧ ∀ j, t.clock j = if j = n then 2 else s.clock j)) ∧
    ∀ h : BitVec 3, s.clock (2 + h.toNat) = 1 → s.runOrder = [] → s.fld GB.HEALTH GB.HEALTH_STATE ≠ 0 → Runs (.clockWakeEnd (.hostel h) false) s fun t =>
      t.clock (2 + h.toNat) = 0 ∧ Logs kUNIT 0 (srcOf 4 h.toNat) s t ∧ t.flag (HOS.CTRL h.toNat) HOS.CTRL_FENCE = true ∧
        t.flag (HOS.STATUS h.toNat) HOS.STATUS_FENCED = true ∧ bitOf (t.reg GB.HEALTH).toNat 12 = true ∧ t.mem = s.mem

/-- The dispatcher: a timetable staged, a leg started, a block placed, a descriptor pushed. -/
def Obligations.Dispatcher : Prop :=
  ∀ (slot : BitVec 4) (leg : BitVec 12) (s : State) (l : LegEntry) (r : LegRun),
    let k := slot.toNat
    let i := leg.toNat
    let la := s.launch k
    let id := s.launchId k
    let img := s.imageOf k
    la.legs[i]? = some l → la.runs[i]? = some r →
    (s.slotState k ≠ 2 ∨ la.closing = true ∨ la.killing = true ∨ l.timetable = 0xFF ∨ (r.phase ≠ .unstarted ∧ r.phase ≠ .deferred) ∨
      s.disp.active = some (id.toNat, l.timetable) ∨ s.disp.staged ≠ none ∨ (id.toNat, l.timetable) ∈ s.disp.failed ∨
      (∃ e < 2, s.flag (XR.TT_CTRL e) XR.TT_CTRL_ARM = true) → exec (.timetableStage slot leg) s = .next s) ∧
    (∀ o tt, s.slotState k = 2 → la.closing = false → la.killing = false → l.timetable ≠ 0xFF → (r.phase = .unstarted ∨ r.phase = .deferred) →
      s.disp.active ≠ some (id.toNat, l.timetable) → s.disp.staged = none → (id.toNat, l.timetable) ∉ s.disp.failed →
      (∀ e < 2, s.flag (XR.TT_CTRL e) XR.TT_CTRL_ARM = false) → la.timetables[l.timetable]? = some o →
      s.readNow (la.image + o) ttImageSize = (s, 0, tt) → Runs (.timetableStage slot leg) s fun t =>
        t = { s with regs := t.regs, halves := t.halves, mesh := t.mesh, disp := t.disp } ∧ t.disp = { s.disp with staged := some (id.toNat, l.timetable, k, i) } ∧
        (∀ e < 2, t.flag (XR.TT_CTRL e) XR.TT_CTRL_ARM = true ∧ t.flag (XR.TT_STATUS e) XR.TT_STATUS_CHECK_BUSY = true ∧
          ∀ slot < 4096, ∀ col < 80, ∀ d < 2, t.bankEntry e (s.activeBank e) slot col d = s.bankEntry e (s.activeBank e) slot col d) ∧
        t.mesh = { s.mesh with pendingMcast := some ((List.range 32).map fun j => BitVec.ofNat 64 (leAt tt (0x2D0000 + 8 * j) 8)) } ∧
        (∀ j < 0x2CE000 / 4, ∀ e kind b, windowOf (0x920000 + 4 * j) = some (e, kind, b) →
          (kind = 0 → t.windowRead e 0 b = leAt tt (4 * j) 2 % 8192 + 65536 * (leAt tt (4 * j + 2) 2 % 8192)) ∧
          (kind = 1 → t.windowRead e 1 b = leAt tt (4 * j) 4)) ∧
        ∀ sl < 96, ∀ j < 64,
          let w := leAt tt (0x2A0000 + 8 * (64 * sl + j)) 8
          tabGet 0 (t.half (sl / 48)).red (redKey (s.stagingBank (sl / 48)) sl j) =
            BitVec.ofNat 64 (putBits (if bitOf w 63 then putBits w 52 37 id.toNat else w) 62 53 0)) ∧
    (s.slotState k ≠ 2 ∨ la.killing = true ∨ r.phase ≠ .admitted ∨ (∃ d ∈ s.legDomains img l, s.clock d ≠ 2) →
      exec (.legStart slot leg) s = .next s) ∧
    (s.slotState k = 2 → la.killing = false → r.phase = .admitted → (∀ d ∈ s.legDomains img l, s.clock d = 2) →
      (0 < r.blocksLeft ∨ 0 < r.portersLeft ∨ 0 < r.descsLeft) → Runs (.legStart slot leg) s fun t =>
        t = { s with regs := t.regs, launches := t.launches, mesh := t.mesh } ∧ SameRegs [DISP.XCHIP_WAITS] s t ∧
        t.run k i = { r with phase := .running, startEtc := s.etc, startSlot := s.startSlotOf l, timed := true } ∧
        (l.timetable = 0xFF → s.startSlotOf l = s.nowSlot 0) ∧
        (l.timetable ≠ 0xFF → s.nowSlot 0 ≤ s.startSlotOf l ∧ s.startSlotOf l % 4096 = 0 ∧
          (s.startSlotOf l = s.nowSlot 0 ∨ s.nowSlot 0 + 64 ≤ s.startSlotOf l)) ∧
        ((∀ id ∈ l.waits, ∀ m ∈ la.miles, m.id = id → m.kind ≠ 1) → t.regs = s.regs) ∧
        (l.porters = 0 → t.mesh = s.mesh) ∧
        (∀ x < l.porters, ∃ f ∈ tabGet [] t.mesh.queues (queueKey stewardEnd.router 5 3),
          f.dst = .one (coreEnd ((l.porterList img).getD x 0)) ∧ f.body = some (.start {
            launch := id, slot := k, leg := i, entry := leAt img (l.porOff + 4) 4, args := leAt img (l.porOff + 8) 4, pidx := x, nporters := l.porters,
            chip := s.fld (LNCH.CHIP k) LNCH.CHIP_RANK, nchips := s.fld (LNCH.CHIP k) LNCH.CHIP_COUNT, seed := la.seed, step := la.step }))) ∧
    (∀ (first : BitVec 6) (p : Placement),
      let h := p.hostel.toNat
      let a := storeBase h + p.unit.toNat * 65536
      let next := s.slotState k = 2 ∧ la.killing = false ∧ r.phase = .running ∧ first.toNat + r.blocksToPlace = l.blocks ∧ 0 < r.blocksToPlace ∧
        min l.cluster r.blocksToPlace = 1 ∧ s.placeOk l p = true
      (¬ next → exec (.blockPlace slot leg first [p]) s = .next s) ∧
      (next → la.image + la.len ≤ 0x30000000 ∨ 0x10000000000 ≤ la.image → Runs (.blockPlace slot leg first [p]) s fun t =>
        t = { s with regs := t.regs, launches := t.launches, mem := t.mem, hosBlocks := t.hosBlocks, hosGroups := t.hosGroups, hosCtrs := t.hosCtrs,
                     hosStore := t.hosStore } ∧
        SameRegs [HOS.STATUS h] s t ∧ t.run k i = { r with blocksToPlace := r.blocksToPlace - 1 } ∧
        (∃ b < 8, (s.blockAt h b).used = false ∧ (∀ c, c ≠ b → t.blockAt h c = s.blockAt h c) ∧ (let v := t.blockAt h b
          v.used = true ∧ v.launch = id ∧ v.slot = k ∧ v.leg = i ∧ v.rank = 0 ∧ v.nblocks = 1 ∧ v.ngroups = l.groups ∧
          v.alloc = p.unit.toNat * 65536 ∧ v.size = l.alloc * 65536 ∧ v.seed = la.seed ∧ v.step = la.step ∧ v.flags = 0 ∧
          v.blkid = BitVec.ofNat 32 (blkBase la.legs i + first.toNat) ∧ (∀ c < 8, t.ctr h (v.ctrBase + c) = 0) ∧
          ∀ x (hx : x < p.slots.length),
            let n := (p.slots[x]).toNat
            t.group h n = { used := true, launch := id, block := b, gidx := x, pc := 0, active := 0xFFFFFFFF, live := 0xFFFFFFFF,
                            v := (s.group h n).v, p := (s.group h n).p })) ∧
        (∀ c, t.byte c = if a ≤ c ∧ c < a + l.alloc * 65536 then 0 else s.byte c) ∧
        (∀ n < 32768,
          let code := l.hostelCode img
          tabGet (BitVec.ofNat 64 (2 ^ 64 - 1)) t.hosStore (h * 32768 + n) =
            if 8 * n < code.length then BitVec.ofNat 64 (leVal ((cut code (8 * n) 8) ++ List.replicate (8 - (cut code (8 * n) 8).length) 0xFF))
            else BitVec.ofNat 64 (2 ^ 64 - 1)))) ∧
    ∀ (d : BitVec 11) (c ch : Nat) (ws : List W64),
      let j := d.toNat
      let may := s.slotState k = 2 ∧ la.killing = false ∧ (la.closing = false ∨ r.phase = .running) ∧ r.phase ≠ .ended ∧ j < l.descs ∧ j ∉ r.pushed ∧
        ∀ m < j, (l.desc img m).1 = c → (l.desc img m).2.1 = ch → m ∈ r.pushed
      l.desc img j = (c, ch, ws) →
      (¬ may → exec (.dispatcherPush slot leg d) s = .next s) ∧
      (may →
        let v := s.chan c ch
        let D : Desc := { words := BitVec.ofNat 64 (putBits (ws.headD 0).toNat 63 48 id.toNat) :: ws.drop 1, by_ := .leg k i }
        (v.waiting = [] → 4 ≤ v.queue.length → Runs (.dispatcherPush slot leg d) s fun t =>
          t = { s with launches := t.launches, couriers := t.couriers } ∧ t.run k i = { r with pushed := r.pushed ++ [j] } ∧
            t.chan c ch = { v with waiting := [D] }) ∧
        (v.waiting = [] → v.queue.length < 4 → D.ok c = true → D.hash = false → D.op ≠ oHASH → Runs (.dispatcherPush slot leg d) s fun t =>
          t = { s with regs := t.regs, launches := t.launches, couriers := t.couriers, ctu := t.ctu } ∧
            t.run k i = { r with pushed := r.pushed ++ [j] } ∧
            ChanIs c ch { v with queue := v.queue ++ [{ D with id := v.nextDesc }], nextDesc := v.nextDesc + 1, failed := false } t))

/-- Arrivals, releases by the host, patience, and the messages between stewards. That the first launch by GO takes a message whose job tag
several launches carry is the model's choice (log 47). -/
def Obligations.Milestones : Prop :=
  ∀ (s : State) (k : Nat), k < 16 →
    let la := s.launch k
    let logged := fun (i : Instr) (u : State) => Runs i s fun t => t = { u with guestbook := t.guestbook } ∧ Logs kMILESTONE 0 (srcOf 11 0) s t
    (∀ m rest, s.mileMsgs = m :: rest → m.slot = k →
      let u : State := { s with mileMsgs := rest }
      (s.slotState k ≠ 2 ∨ la.killing = true → exec .milestoneArrival s = .next u) ∧
      (s.slotState k = 2 → la.killing = false → s.mileIdx k m.id = none → logged .milestoneArrival u) ∧
      ∀ j x r, x.id = m.id → MileOn s k j x r →
        let one := { r with count := r.count + 1 }
        let all := { one with complete := true, doneEtc := s.etc }
        (r.released = true → logged .milestoneArrival u) ∧
        (r.released = false →
          (r.complete = true ∨ r.count + 1 ≠ x.expect → Runs .milestoneArrival s (MileIs k j one (fun _ => []) u)) ∧
          (r.complete = false → r.count + 1 = x.expect →
            (x.kind = 0 ∨ (x.kind = 2 ∧ r.hostRel = true) ∨
              (x.kind = 1 ∧ Nat.land r.arrived x.children = x.children ∧ x.parent = 0xFF ∧ NoDefer s k x.id) → Releases .milestoneArrival k j x all s u) ∧
            ((x.kind = 2 ∧ r.hostRel = false) ∨ (x.kind = 1 ∧ Nat.land r.arrived x.children ≠ x.children) →
              Runs .milestoneArrival s (MileIs k j all (fun _ => []) u)) ∧
            (x.kind = 1 → Nat.land r.arrived x.children = x.children → x.parent ≠ 0xFF → r.sent = false →
              Runs .milestoneArrival s (MileIs k j { all with sent := true } (fun p => if p = x.parent then [mileBytes s k x.id 0x10] else []) u))))) ∧
    (∀ m id u, s.mileMsgs = [] → Takes stewardEnd (fun b => match b with | .mile _ _ => true | _ => false) (.mile m id) s u → m.slot = k →
      (s.launchId k ≠ m.launch → exec .milestoneArrival s = .next u) ∧
      ∀ j x r, s.launchId k = m.launch → x.id = id → MileOn s k j x r → r.released = false → r.complete = false → r.count + 1 ≠ x.expect →
        Runs .milestoneArrival s (MileIs k j { r with count := r.count + 1 } (fun _ => []) u)) ∧
    (∀ v : BitVec 32, (v.extractLsb' 16 4).toNat = k →
      let id := (v.extractLsb' 0 16).toNat
      (s.slotState k ≠ 2 ∨ s.mileIdx k id = none → logged (.hostRelease v) s) ∧
      ∀ j x r, x.id = id → MileOn s k j x r →
        (x.kind ≠ 2 ∨ r.released = true → logged (.hostRelease v) s) ∧
        (x.kind = 2 → r.released = false →
          (r.complete = true → Releases (.hostRelease v) k j x { r with hostRel := true } s s) ∧
          (r.complete = false → Runs (.hostRelease v) s (MileIs k j { r with hostRel := true } (fun _ => []) s)))) ∧
    (∀ j x r, x.id < 65536 → MileOn s k j x r →
      let patience := Instr.milestonePatience (BitVec.ofNat 4 k) (BitVec.ofNat 16 x.id)
      (r.complete = false ∨ r.released = true → exec patience s = .next s) ∧
      (r.complete = true → r.released = false →
        (x.abort = false ∨ r.reports ≠ 0 → Runs patience s fun t => Logs kMILESTONE 0 (srcOf 11 0) s t ∧ Raised iMILESTONE t ∧
          t.launch k = { la with mileRuns := listUpd (fun _ => { r with reports := r.reports + 1 }) la.mileRuns j } ∧ t.mem = s.mem) ∧
        (x.abort = true → r.reports = 0 → s.slotOf (s.launchId k) = some k → Runs patience s fun t => Raised iMILESTONE t ∧ Raised iKILL t ∧
          t.fld (LNCH.STATUS k) LNCH.STATUS_CAUSE = cMILESTONE_PATIENCE ∧ (t.launch k).killing = true ∧ GroupsStop (s.launchId k) s t ∧
          ∃ e f, t.guestbook.waiting = s.guestbook.waiting ++ [e, f] ∧ e.kind = kMILESTONE ∧ f.kind = kKILL ∧ f.cause = cMILESTONE_PATIENCE))) ∧
    (∀ (x : BitVec 4) (ty : Nat) (p : OxRx) (rest : List OxRx), ty = 0x10 ∨ ty = 0x11 → MsgFirst s x.toNat ty p rest →
      let b := (p.head.drop 64).take 64
      let h : HeldMsg := { port := x.toNat, release := decide (ty = 0x11), id := leAt b 2 2, job := leAt b 4 4, step := leAt b 8 8 }
      let i := if ty = 0x11 then Instr.release x else .arrive x
      let u := s.rxPop x.toNat 3
      RxTaken x.toNat 3 p rest s u ∧ u = { s with ox := u.ox } ∧
      ((s.jobSlot h.job = none ∨ (s.jobSlot h.job = some k ∧ la.step.toNat < h.step)) →
        (s.disp.held.length < 256 → Runs i s fun t => t = { u with disp := { s.disp with held := s.disp.held ++ [h] } }) ∧
        (256 ≤ s.disp.held.length → exec i s = .next s)) ∧
      (s.jobSlot h.job = some k →
        (h.step < la.step.toNat → logged i u) ∧
        (h.step = la.step.toNat → la.killing = false → s.mileIdx k h.id = none → logged i u) ∧
        ∀ j m r, h.step = la.step.toNat → m.id = h.id → MileOn s k j m r →
          (m.kind ≠ 1 ∨ r.released = true ∨ (ty = 0x11 ∧ m.parent ≠ x.toNat) ∨ (ty = 0x10 ∧ bitOf m.children x.toNat = false) → logged i u) ∧
          (m.kind = 1 → r.released = false →
            (ty = 0x11 → m.parent = x.toNat → NoDefer s k m.id → Releases i k j m r s u) ∧
            (ty = 0x10 → bitOf m.children x.toNat = true →
              let r' := { r with arrived := Nat.lor r.arrived (2 ^ x.toNat) }
              let all := Nat.land r'.arrived m.children = m.children
              (r.complete = false ∨ ¬ all → Runs i s (MileIs k j r' (fun _ => []) u)) ∧
              (r.complete = true → all → m.parent = 0xFF → NoDefer s k m.id → Releases i k j m r' s u) ∧
              (r.complete = true → all → m.parent ≠ 0xFF → r.sent = false →
                Runs i s (MileIs k j { r' with sent := true } (fun p => if p = m.parent then [mileBytes s k m.id 0x10] else []) u)))))) ∧
    ∀ (x : BitVec 4), ∀ row ∈ [(Instr.thermalNotice x, 0x20), (.healthNotice x, 0x21)], ∀ p rest, MsgFirst s x.toNat row.2 p rest →
      Runs row.1 s fun t => Logs kPEER_NOTICE 0 (srcOf 11 0) s t ∧ Raised iPEER_NOTICE t ∧ t.ox = (s.rxPop x.toNat 3).ox ∧ t.mem = s.mem ∧
        t.launches = s.launches

/-! ### The PCIe port (R448-R453) -/

/-- Configuration requests, BAR2 accesses, completions of host reads, resets of the function, and misaligned accesses of BAR0. The layout of
the configuration space, the parts of a BAR2 access and the cause logged for a refusal are the model's (logs 27 and 56). -/
def Obligations.PciePort : Prop :=
  ∀ s : State,
    let sent := fun (o : PcieOut) => s.pcie.sent ++ [o]
    (∀ (reg : BitVec 10) (v : W32) (write : Bool), s.flag GLB.STATUS GLB.STATUS_READY = false → Runs (.configRequest write reg v) s fun t =>
      t = { s with pcie := { s.pcie with sent := sent .configRetry } }) ∧
    (s.flag GLB.STATUS GLB.STATUS_READY = true →
      (∀ (reg : BitVec 10) (v : W32), Runs (.configRequest false reg v) s fun t =>
        t = { s with pcie := { s.pcie with sent := sent (.configData (s.configWord reg.toNat)) } } ∧ (s.configWord 0).toNat / 65536 = 0x0B20) ∧
      (∀ (reg : BitVec 10) (v : W32), Runs (.configRequest true reg v) s fun t => t.mem = s.mem ∧
        (reg ≠ 36 → t.pcie.sent = sent (.completion true [])) ∧
        (reg = 1 → t.flag PCIE.STATUS PCIE.STATUS_BME = v.getLsbD 2) ∧
        (reg = 36 → t.pcie.msixEnable = v.getLsbD 31 ∧ t.pcie.msixFuncMask = v.getLsbD 30) ∧
        (reg ≠ 36 → ∀ i < 32, i ≠ 2 ∨ reg ≠ 1 → (t.configWord reg.toNat).getLsbD i =
          if (configMask reg.toNat).getLsbD i = true then (v.getLsbD i || (BitVec.ofNat 32 (s.configBase reg.toNat)).getLsbD i)
          else (BitVec.ofNat 32 (s.configBase reg.toNat)).getLsbD i))) ∧
    (∀ (off : BitVec 30) (len : BitVec 12),
      let a := s.pcie.window * 2 ^ 30 + off.toNat
      let n := if len = 0 then 4096 else len.toNat
      (s.bar2Path a n = .none → exec (.bar2Read off len) s =
        .next { s with pcie := { s.pcie with sent := s.pcie.sent ++ [.completion false []] } }) ∧
      (∀ p, s.bar2Path a n = .porter p ∨ s.bar2Path a n = .site p → a % 64 + n ≤ 64 → ∃ id, (∀ b ∈ s.pcie.bar2, b.id < id) ∧ Runs (.bar2Read off len) s fun t =>
        t = { s with pcie := t.pcie, mesh := t.mesh } ∧ t.pcie = { s.pcie with bar2 := s.pcie.bar2 ++ [{ id := id, write := false, dpa := a, left := 1 }] } ∧
        Sends 3 stewardEnd (.one (if s.bar2Path a n = .porter p then coreEnd p else siteEnd p)) 1
          (.req { op := .read, dpa := a, n := n, who := .host id 0, back := stewardEnd }) s t) ∧
      (s.bar2Path a n = .buffer → a % 256 + n ≤ 256 → ∃ id, (∀ b ∈ s.pcie.bar2, b.id < id) ∧ Runs (.bar2Read off len) s fun t =>
        let v := s.slice (sliceOf (a / 4096)).1
        t = { s with pcie := t.pcie, slices := t.slices } ∧ t.pcie = { s.pcie with bar2 := s.pcie.bar2 ++ [{ id := id, write := false, dpa := a, left := 1 }] } ∧
        t.slice (sliceOf (a / 4096)).1 = { v with bgR := v.bgR ++ [{ cls := .host, dpa := a, len := n, who := .host id 0 }] } ∧
        ∀ k, k ≠ (sliceOf (a / 4096)).1 → t.slice k = s.slice k)) ∧
    (∀ (off : BitVec 30) (data : List Byte),
      let a := s.pcie.window * 2 ^ 30 + off.toNat
      let n := data.length
      (s.bar2Path a n = .none ∨ n = 0 →
        let cause := if (0x40000000 ≤ a ∧ a < 0x44000000) ∨ (0x80000000 ≤ a ∧ a < 0x88000000) ∨ (0x80000000000 ≤ a ∧ a < 0x500000000000)
          then cUNREACHABLE else cDECODE
        Runs (.bar2Write off data) s fun t => t.pcie.aer = s.pcie.aer ++ [cause] ∧ Raised iPCIE_ACCESS t ∧
          PcieLogged a cause 1 true s t ∧ t.mem = s.mem) ∧
      (∀ p, s.bar2Path a n = .porter p ∨ s.bar2Path a n = .site p → 0 < n → a % 64 + n ≤ 64 → ∃ id, (∀ b ∈ s.pcie.bar2, b.id < id) ∧
        Runs (.bar2Write off data) s fun t =>
          t = { s with pcie := t.pcie, mesh := t.mesh } ∧ t.pcie = { s.pcie with bar2 := s.pcie.bar2 ++ [{ id := id, write := true, dpa := a, left := 1 }] } ∧
          Sends 3 stewardEnd (.one (if s.bar2Path a n = .porter p then coreEnd p else siteEnd p)) 2
            (.req { op := .write, dpa := a, n := n, data := data, who := .host id 0, back := stewardEnd }) s t) ∧
      (s.bar2Path a n = .buffer → 0 < n → a % 256 + n ≤ 256 → ∃ id, (∀ b ∈ s.pcie.bar2, b.id < id) ∧ Runs (.bar2Write off data) s fun t =>
        let v := s.slice (sliceOf (a / 4096)).1
        t = { s with pcie := t.pcie, slices := t.slices } ∧
        t.slice (sliceOf (a / 4096)).1 =
          { v with bgW := v.bgW ++ [{ cls := .host, dpa := a, len := n, data := data, en := data.map fun _ => true, who := .host id 0 }] })) ∧
    (∀ v : W64, Runs (.bar2WindowWrite v) s fun t => t = { s with regs := t.regs, pcie := { s.pcie with window := (v.extractLsb' 30 18).toNat } } ∧
      SameRegs [PCIE.BAR2_WINDOW] s t ∧ fieldIs t s PCIE.BAR2_WINDOW PCIE.BAR2_WINDOW_BASE (v.extractLsb' 30 18).toNat) ∧
    (∀ (tag : BitVec 10) (ok : Bool) (data : List Byte),
      ((∀ h ∈ s.pcie.host, h.tag ≠ some tag.toNat) → exec (.hostCompletion tag ok data) s = .next s ∧ exec (.completionTimeout tag) s = .next s) ∧
      ∀ h l, s.pcie.host = [h] → h.tag = some tag.toNat → h.who = .line l →
        let filled := fun (cause : Nat) (d : List Byte) (t : State) => t.pcie.host = [] ∧ t.mem = s.mem ∧
          t.steward.fills = s.steward.fills.map fun f => if f.line = l then { f with back := some (cause, d) } else f
        (ok = true → (h.data ++ data).length < h.n → Runs (.hostCompletion tag ok data) s fun t =>
          t = { s with pcie := { s.pcie with host := [{ h with data := h.data ++ data }] } }) ∧
        (ok = true → h.n ≤ (h.data ++ data).length → Runs (.hostCompletion tag ok data) s (filled 0 ((h.data ++ data).take h.n))) ∧
        (ok = false → Runs (.hostCompletion tag ok data) s (filled cHOST_ABORT [])) ∧
        Runs (.completionTimeout tag) s (filled cHOST_ABORT [])) ∧
    (∀ row ∈ [Instr.functionLevelReset, .hotReset, .d3hotEntry, .pcieLinkDown],
      let clear := fun (t : State) => (∀ k < 16, t.slotState k = 0) ∧ t.reg PCIE.BAR2_WINDOW = 0 ∧ t.reg PCIE.HOST_BASE = 0 ∧
        t.flag CTU.FQ_CTRL CTU.FQ_CTRL_ENABLE = false ∧ t.pcie.msixEnable = false ∧ t.pcie.window = 0 ∧
        (row = .pcieLinkDown → t.flag PCIE.STATUS PCIE.STATUS_LINK_UP = false)
      (NoLaunch s → Runs row s fun t => clear t ∧ t = { s with regs := t.regs, pcie := { s.pcie with msixEnable := false, window := 0 } }) ∧
      ∀ k < 16, s.slotState k = 1 ∨ s.slotState k = 2 → (∀ j < 16, j ≠ k → s.slotState j ≠ 1 ∧ s.slotState j ≠ 2) →
        (s.launch k).killing = false → (s.launch k).killSent = false → NothingWaits s → SemGood s k → Runs row s fun t => clear t ∧
          t.fld (LNCH.STATUS k) LNCH.STATUS_CAUSE = cLAUNCH_ABORTED ∧ (t.launch k).killing = true ∧ Raised iKILL t ∧
          ∃ e f, t.guestbook.waiting = s.guestbook.waiting ++ [e, f] ∧ e.kind = kKILL ∧ e.cause = cLAUNCH_ABORTED ∧ f.kind = kLAUNCH ∧
            f.cause = cLAUNCH_ABORTED) ∧
    ∀ (off : BitVec 26) (len : Nat) (write : Bool),
      ((len = 4 ∨ len = 8) → off.toNat % len = 0 → exec (.bar0MisalignedAccess off len write) s = .next s) ∧
      (¬ ((len = 4 ∨ len = 8) ∧ off.toNat % len = 0) → Runs (.bar0MisalignedAccess off len write) s fun t =>
        t = { s with regs := t.regs, pcie := t.pcie } ∧ SameRegs [PCIE.ERR_LOG] s t ∧ PcieLogged off.toNat 0 0 write s t ∧
          t.pcie = if write then s.pcie else { s.pcie with sent := sent (.completion false []) })

/-! ### The strongbox (R464-R474) -/

/-- Submissions and their checks, licences, firmware, the debug token, fuse commands, keys, the nonce and attestation. What a signature or
an unwrap yields is an operand; that a fuse command that names no operation is FORMAT, and one without the supply FUSE_SUPPLY, that the
nonce is replaced after any submission of type 4 or 5, and the service of porter firmware in SERVICE, are the model's reading (log 58). -/
def Obligations.Strongbox : Prop :=
  ∀ s : State,
    let b := s.sbx
    let l := b.copy
    let p := boxPayload l
    let busy := s.flag SBX.STATUS SBX.STATUS_BUSY = true
    let st := s.fld BRG.STATUS BRG.STATUS_STAGE
    let supply := s.flag SBX.STATUS SBX.STATUS_FUSE_SUPPLY
    let flagged := (s.setFlag SBX.STATUS SBX.STATUS_BUSY true).setFlag SBX.CTRL SBX.CTRL_SUBMIT true
    let n := s.fld SBX.SUBMIT_LEN SBX.SUBMIT_LEN_BYTES
    (s.boot.ready = false ∨ busy → exec .submit s = .next s) ∧
    (s.boot.ready = true → ¬ busy →
      (1114112 < n → exec .submit s = .next flagged) ∧
      (∀ c d, n ≤ 1114112 → flagged.readNow (s.fld SBX.SUBMIT SBX.SUBMIT_DPA / 8 * 8) n = (flagged, c, d) →
        exec .submit s = .next { flagged with sbx := { b with copy := d, copyBad := c != 0 } })) ∧
    -- Table 15.7: what passes meets every check.
    (∀ t ec lms, s.passes t ec lms = true → ec = true ∧ lms = true ∧ s.stageTakes t = true ∧ boxFormat l = true ∧ boxType l = t ∧
      tabGet 0 s.fuses.floors t ≤ boxSvn l ∧ s.fuses.revoked.getLsbD (boxSlot l) = false ∧
      (leAt l 16 8 = s.fuses.serial.toNat ∨ (t ≤ 2 ∧ leAt l 16 8 = 0)) ∧ (4 ≤ t → (l.drop 24).take 48 = s.nonceBytes SBX.NONCE)) ∧
    (∀ ec lms keys,
      (¬ busy ∨ s.verdict ec lms keys = 0 → exec (.submissionRefused ec lms keys) s = .next s) ∧
      (busy → s.verdict ec lms keys ≠ 0 → Runs (.submissionRefused ec lms keys) s fun t => SubmitEnds (s.verdict ec lms keys) s t ∧
        t = { s with regs := t.regs, sbx := t.sbx, guestbook := t.guestbook, free := t.free, pcie := t.pcie } ∧
        t.sbx = { b with copy := [], copyBad := false,
                         licenceResult := if isKeyRecord l = false ∧ boxType l = 3 then s.verdict ec lms keys else b.licenceResult })) ∧
    (∀ ec lms,
      let only := fun (t : State) => t = { s with regs := t.regs, sbx := t.sbx, guestbook := t.guestbook, free := t.free, pcie := t.pcie, fuses := t.fuses }
      (s.passes 3 ec lms = false → exec (.licence ec lms) s = .next s) ∧
      (s.passes 3 ec lms = true → Runs (.licence ec lms) s fun t => SubmitEnds 0 s t ∧ only t ∧ t.fuses = s.fuses ∧
        t.flag SBX.STATUS SBX.STATUS_LICENCE_APPLIED = true ∧
        t.sbx = { b with copy := [], copyBad := false, licence := some (licenceOf p), licenceD := digNum (boxDigest l) }) ∧
      (s.passes 1 ec lms = false → exec (.runtimeFirmware ec lms) s = .next s) ∧
      (s.passes 1 ec lms = true → Runs (.runtimeFirmware ec lms) s fun t => t.fld BRG.STATUS BRG.STATUS_STAGE = 2 ∧
        t.fld SBX.STATUS SBX.STATUS_RESULT = 0 ∧ t.flag SBX.STATUS SBX.STATUS_BUSY = false ∧ Raised iSUBMIT t ∧
        (let c := b.licence.getD {}
         t.flag BRG.ENABLED BRG.ENABLED_MX = c.mx ∧ t.flag BRG.ENABLED BRG.ENABLED_TALLY = c.tally ∧
           t.fld BRG.ENABLED BRG.ENABLED_OXLUX = halfShare (s.planned 9) 8 (c.oxlux / 2) ∧
           t.fld BRG.ENABLED BRG.ENABLED_HOSTELS = halfShare (s.planned 4) 4 (c.hostels / 2)) ∧
        t.sbx = { b with copy := [], copyBad := false, fwD := digNum (boxDigest l), fwSvn := boxSvn l, layer1 := !b.zeroed } ∧
        ∃ w e f, t.guestbook.waiting = w ++ [e, f] ∧ e.kind = kSUBMIT ∧ f.kind = kBOOT) ∧
      (s.passes 2 ec lms = false → exec (.porterServiceFirmware ec lms) s = .next s) ∧
      (s.passes 2 ec lms = true → Runs (.porterServiceFirmware ec lms) s fun t => SubmitEnds 0 s t ∧ t.sbx.porterFw = some p ∧
        t.sbx.porterD = digNum (boxDigest l) ∧ (st ≠ 3 → only t)) ∧
      (∀ blown, s.passes 4 ec lms = false → exec (.debugUnlockToken ec lms blown) s = .next s) ∧
      (∀ blown, s.passes 4 ec lms = true → NoLaunch s → Runs (.debugUnlockToken ec lms blown) s fun t =>
        SubmitEnds (if blown && supply then 0 else zFUSE_SUPPLY) s t ∧ (∀ i < 32, (t.site i).keys = [] ∧ t.reg (MEM.KEY_VALID i) = 1) ∧
          t.sbx.layer1 = false ∧ t.sbx.zeroed = true ∧
          (blown && supply → t.flag SBX.STATUS SBX.STATUS_DEBUGGED = true ∧ t.fuses = { s.fuses with debugged := true } ∧ t.sbx.scope = byteAt p 0 % 4) ∧
          (¬ (blown && supply) → t.fuses = s.fuses ∧ t.sbx.scope = b.scope)) ∧
      (s.passes 5 ec lms = false ∨ byteAt p 0 ≠ 1 → exec (.raiseSvnFloor ec lms) s = .next s) ∧
      (s.passes 5 ec lms = true → byteAt p 0 = 1 → Runs (.raiseSvnFloor ec lms) s fun t => SubmitEnds 0 s t ∧ only t ∧
        t.fuses = { s.fuses with floors := t.fuses.floors } ∧
        ∀ k, tabGet 0 t.fuses.floors k = if k = byteAt p 1 then max (tabGet 0 s.fuses.floors k) (leAt p 4 4) else tabGet 0 s.fuses.floors k) ∧
      (s.passes 5 ec lms = false ∨ byteAt p 0 ≠ 2 → exec (.revokeSigner ec lms) s = .next s) ∧
      (s.passes 5 ec lms = true → byteAt p 0 = 2 → Runs (.revokeSigner ec lms) s fun t => SubmitEnds 0 s t ∧ only t ∧
        t.fuses = { s.fuses with revoked := t.fuses.revoked } ∧
        ∀ k < 4, t.fuses.revoked.getLsbD k = (s.fuses.revoked.getLsbD k || decide (k = byteAt p 1)))) ∧
    (st ≠ 2 → exec .enterService s = .next s) ∧
    (st = 2 → Runs .enterService s fun t => t.fld BRG.STATUS BRG.STATUS_STAGE = 3 ∧ t.flag GLB.STATUS GLB.STATUS_SERVICE = true ∧
      t.flag STW.STATUS STW.STATUS_BOOTED = true ∧ t.fld STW.STATUS STW.STATUS_CORES_UP = 15 ∧ t.reg BRG.SERVICE_TIME = BitVec.ofNat 64 s.etc ∧
      t.mem = s.mem ∧ t.free = s.free + 1 ∧
      (∀ k < 4, t.score k = { core := { pc := BitVec.ofNat 32 (Config.freeWord s.free).toNat } }) ∧ (b.porterFw = none → t.mesh = s.mesh)) ∧
    (∀ v : W64, (st ≠ 1 ∨ supply = false → exec (.fuseGenProg v) s = .next s) ∧
      (st = 1 → supply = true → Runs (.fuseGenProg v) s fun t => t = { s with fuses := { s.fuses with gens := t.fuses.gens } } ∧
        ∀ i < 32, t.fuses.gen i = if s.fuses.gen i = 0 then bitsOf v.toNat (2 * i + 1) (2 * i) else s.fuses.gen i)) ∧
    exec (.keyLoadRecord none) s = .next s ∧
    (∀ k : BitVec 512,
      let good := busy ∧ isKeyRecord l = true ∧ s.verdict true true (some k) = 0
      (¬ good → exec (.keyLoadRecord (some k)) s = .next s) ∧
      (good → Runs (.keyLoadRecord (some k)) s fun t => SubmitEnds 0 s t ∧ ∀ i < 32,
        tabGet 0 (t.site i).keys (byteAt l 4) = k ∧ (∀ j, j ≠ byteAt l 4 → tabGet 0 (t.site i).keys j = tabGet 0 (s.site i).keys j) ∧
        ∀ j < 64, bitOf (t.reg (MEM.KEY_VALID i)).toNat j = if j = byteAt l 4 then decide (k ≠ 0) else bitOf (s.reg (MEM.KEY_VALID i)).toNat j)) ∧
    (∀ v : BitVec 384, Runs (.newNonce v) s fun t => t = { s with regs := t.regs } ∧ SameRegs ((List.range 6).map SBX.NONCE) s t ∧
      ∀ k < 6, t.reg (SBX.NONCE k) = v.extractLsb' (64 * k) 64) ∧
    ∀ ec hss cert : List Byte,
      let i := Instr.attest ec hss cert
      let leaf := s.fld SBX.LMS_INDEX SBX.LMS_INDEX_NEXT_LEAF
      let a := s.fld SBX.RESULT_ADDR SBX.RESULT_ADDR_DPA / 4096 * 4096
      let answers := fun (r : Nat) => Runs i s fun t => t = { s with regs := t.regs } ∧ t.fld SBX.STATUS SBX.STATUS_RESULT = r
      (s.boot.ready = false ∨ busy → exec i s = .next s) ∧
      (s.boot.ready = true → ¬ busy →
        (st ≠ 3 ∨ b.layer1 = false → answers zSTAGE) ∧
        (st = 3 → b.layer1 = true → leaf % 1024 = 0 → s.fuses.block = none → answers zLMS_EXHAUSTED) ∧
        (st = 3 → b.layer1 = true → leaf % 1024 = 0 → s.fuses.block ≠ none → supply = false → answers zFUSE_SUPPLY) ∧
        (st = 3 → b.layer1 = true → leaf % 1024 ≠ 0 → leaf % 1024 ≠ 1023 → a + 8192 ≤ 0x30000000 →
          (∀ x, x = a ∨ x = a + 4096 → TileGood s x 4096 ∧ (s.slice (sliceOf (x / 4096)).1).rmw = []) → Runs i s fun t =>
            t.fld SBX.STATUS SBX.STATUS_RESULT = 0 ∧ t.fld SBX.LMS_INDEX SBX.LMS_INDEX_NEXT_LEAF = leaf + 1 ∧ t.fuses = s.fuses ∧
              t.bytes a 512 = s.report ∧ SameMemBut a 8192 s t))

/-! ### Bring-up, fences and part reset (R394, R420, R457-R463, R467, R475, R476, R489) -/

/-- Power-good, reset and the stages of bring-up up to ready. That the fuses and the retention ring are what power leaves, and that links,
sites and upper sites that have not reported count as failed, are the model's reading (log 57). -/
def Obligations.BringUp : Prop :=
  ∀ s : State,
    let kept := fun (t : State) => t.pending = s.pending ∧ t.fuses = s.fuses ∧
      t.flag SBX.STATUS SBX.STATUS_FUSE_SUPPLY = s.flag SBX.STATUS SBX.STATUS_FUSE_SUPPLY ∧ ∀ u, (t.upper u).presentN = (s.upper u).presentN
    let off := fun (t : State) => AllOff t ∧ kept t ∧ t.power.good = false ∧ (∀ r < 26, t.reg (PT.RAIL r) = 0 ∧ t.railEnabled r = false)
    let up := fun (t : State) => AllOff t ∧ kept t ∧ t.power.good = true ∧ (∀ r < 26, t.railEnabled r = decide (r = 0)) ∧
      t.guestbook = { retained := s.guestbook.retained } ∧ t.free = s.free + 2 ∧
      ∀ k < 6, t.reg (SBX.NONCE k) = BitVec.ofNat 64 (leAt (padTo 48 (Config.freeBytes s.free 48)) (8 * k) 8)
    let b := s.boot
    let runs := s.power.good = true ∧ b.training = true ∧ b.ready = false
    (s.power.good = true → exec .powerGoodRise s = .next s) ∧
    (s.power.good = false → Runs .powerGoodRise s up) ∧
    (s.power.good = true → s.power.thermAlarm = false → Runs .resetNAssert s up) ∧
    (s.power.good = false ∨ s.power.thermAlarm = true → exec .resetNAssert s = .next s) ∧
    Runs .powerGoodFall s (fun t => off t ∧ t.guestbook = { retained := s.guestbook.retained }) ∧
    Runs .vaonFall s (fun t => off t ∧ t.guestbook = {}) ∧
    (∀ on : Bool, Runs (.fuseSupplyChange on) s fun t => t = { s with regs := t.regs } ∧ SameRegs [SBX.STATUS] s t ∧
      fieldIs t s SBX.STATUS SBX.STATUS_FUSE_SUPPLY (if on then 1 else 0)) ∧
    (∀ (n : Nat) (readable : Bool),
      (s.power.good = false ∨ b.training = true ∨ b.mapBad = true ∨ b.ready = true → exec (.fuseReadDone n readable) s = .next s) ∧
      (s.power.good = true → b.training = false → b.mapBad = false → b.ready = false →
        (readable = false → Runs (.fuseReadDone n readable) s fun t => t = { s with regs := t.regs, boot := { b with mapBad := true, rereads := n } } ∧
          SameRegs [STW.STATUS] s t ∧ fieldIs t s STW.STATUS STW.STATUS_CORES_UP 15) ∧
        (readable = true → (∀ u < 4, (s.upper u).presentN = true) → Runs (.fuseReadDone n readable) s fun t =>
          t.boot.training = true ∧ t.boot.rereads = n ∧ t.reg GLB.SERIAL = s.fuses.serial ∧ t.reg SBX.FUSE_GEN = s.fuses.gens ∧
            t.flag SBX.STATUS SBX.STATUS_DEBUGGED = s.fuses.debugged ∧ t.fld STW.STATUS STW.STATUS_CORES_UP = 15 ∧ t.mem = s.mem ∧
            (∀ x < 16, s.fuses.badOxlux.getLsbD x = false → s.flag (OX.CTRL x) OX.CTRL_ENABLE = true → t.oxState x = 1) ∧
            ∀ i < 32, s.fuses.gen i = 0 → t.unitBad (7 + i / 16) (i % 16) = true))) ∧
    ((¬ runs ∨ b.sram = true) → ∀ l, exec (.sramSelfTestDone l) s = .next s) ∧
    (runs → b.sram = false →
      (Runs (.sramSelfTestDone []) s fun t => t = { s with regs := t.regs, boot := { b with sram := true } } ∧
        ∀ sl < 96, ∀ used : Nat × Nat, used = (sparesUsed s.fuses.rows sl, sparesUsed s.fuses.columns sl) → used.1 < 1024 → used.2 < 128 →
          t.fld (SLICE.REPAIR sl) SLICE.REPAIR_ROW_SPARES_USED = used.1 ∧ t.fld (SLICE.REPAIR sl) SLICE.REPAIR_COLUMN_SPARES_USED = used.2) ∧
      (∀ u : UnitRef, u.family ≠ 2 → u.family ≠ 6 → s.unitBad u.family.toNat u.index.toNat = false → Runs (.sramSelfTestDone [.array u]) s fun t =>
        t.boot = { b with sram := true, defects := b.defects ++ [⟨u.family.toNat, u.index.toNat, 1⟩] } ∧
          Logs kUNIT 0 (srcOf u.family.toNat u.index.toNat) s t) ∧
      (∀ (sl : BitVec 7) (sub : BitVec 5) (row : BitVec 10), sl.toNat < 96 → s.unitBad 1 sl.toNat = false →
        16 ≤ tabGet 0 s.fuses.rows (64 * sl.toNat + sub.toNat) → Runs (.sramSelfTestDone [.row sl sub row]) s fun t =>
          bitOf (t.reg (SLICE.RETIRED_ROWS sl.toNat (row.toNat / 64))).toNat (row.toNat % 64) = true ∧
            t.flag (SLICE.STATUS sl.toNat) SLICE.STATUS_TILES_RETIRED = true ∧ t.flag (SLICE.REPAIR sl.toNat) SLICE.REPAIR_REPAIR_FAILED = true ∧
            t.boot = { b with sram := true } ∧ t.guestbook = s.guestbook)) ∧
    ((¬ runs ∨ b.logic = true) → ∀ l c x, exec (.logicSelfTestDone l c x) s = .next s) ∧
    (runs → b.logic = false → ∀ ctuOk xrOk : Bool,
      (Runs (.logicSelfTestDone [] ctuOk xrOk) s fun t => t = { s with boot := { b with logic := true, ctuOk := b.ctuOk && ctuOk, xrOk := b.xrOk && xrOk } }) ∧
      (∀ u : UnitRef, s.unitBad u.family.toNat u.index.toNat = false → Runs (.logicSelfTestDone [u] ctuOk xrOk) s fun t =>
        t.boot = { b with logic := true, ctuOk := b.ctuOk && ctuOk, xrOk := b.xrOk && xrOk,
                          defects := b.defects ++ [⟨u.family.toNat, u.index.toNat, 1⟩] } ∧ Logs kUNIT 0 (srcOf u.family.toNat u.index.toNat) s t)) ∧
    (∀ ok : Bool, (¬ runs ∨ b.tests ≠ none → exec (.knownAnswerTestsDone ok) s = .next s) ∧
      (runs → b.tests = none → exec (.knownAnswerTestsDone ok) s = .next { s with boot := { b with tests := some ok } })) ∧
    (s.power.good = false → ∀ l, exec (.pcieLinkTrained l) s = .next s) ∧
    (s.power.good = true →
      Runs (.pcieLinkTrained none) s (fun t => t = { s with regs := t.regs, boot := { b with pcie := true } } ∧ SameRegs [PCIE.STATUS] s t ∧
        fieldIs t s PCIE.STATUS PCIE.STATUS_LINK_UP 0) ∧
      ∀ l : PcieLink, Runs (.pcieLinkTrained (some l)) s fun t => t = { s with regs := t.regs, boot := { b with pcie := true } } ∧
        SameRegs [PCIE.STATUS] s t ∧ t.flag PCIE.STATUS PCIE.STATUS_LINK_UP = true ∧ t.fld PCIE.STATUS PCIE.STATUS_GEN = l.gen.toNat ∧
        t.fld PCIE.STATUS PCIE.STATUS_WIDTH = l.width.toNat ∧ t.flag PCIE.STATUS PCIE.STATUS_FLIT = l.flit) ∧
    (∀ (site : BitVec 5) (r : SiteTraining),
      let i := site.toNat
      let told := { b with sites := b.sites ||| BitVec.ofNat 32 (2 ^ i) }
      let out := fun (reason : Nat) => Runs (.siteTrainingDone site r) s fun t => t = { s with boot := t.boot, guestbook := t.guestbook } ∧
        t.boot = { told with defects := b.defects ++ [⟨7 + i / 16, i % 16, reason⟩] } ∧ Logs kUNIT 0 (srcSite i) s t
      (¬ runs ∨ b.sites.getLsbD i = true ∨ s.unitBad (7 + i / 16) (i % 16) = true → exec (.siteTrainingDone site r) s = .next s) ∧
      (runs → b.sites.getLsbD i = false → s.unitBad (7 + i / 16) (i % 16) = false →
        (r.populated = true → r.identityOk = false ∨ r.gen.toNat ≠ s.fuses.gen i → out 3) ∧
        (r.populated = false → out 1) ∧
        (r.populated = true → r.identityOk = true → r.gen.toNat = s.fuses.gen i →
          (r.rate = none → out 1) ∧
          (∀ v, r.rate = some v → Runs (.siteTrainingDone site r) s fun t => t = { s with regs := t.regs, boot := told } ∧
            t.flag (MEM.STATUS i) MEM.STATUS_PRESENT = true ∧ t.flag (MEM.STATUS i) MEM.STATUS_TRAINED = true ∧
            t.fld (MEM.STATUS i) MEM.STATUS_GEN = r.gen.toNat ∧ t.fld (MEM.STATUS i) MEM.STATUS_RATE = v.toNat ∧
            t.fld (MEM.CAPACITY i) MEM.CAPACITY_MIB = r.capacityMib.toNat ∧ t.fld (MEM.READ_BOUND i) MEM.READ_BOUND_SLOTS = r.readBound.toNat ∧
            t.fld (MEM.BUDGET i) MEM.BUDGET_UNITS = r.units.toNat ∧ t.fld (MEM.REPAIR i) MEM.REPAIR_SPARES_LEFT_MIN = r.sparesLeftMin.toNat)))) ∧
    (s.power.good = false ∨ b.ready = true ∨ (b.mapBad = false ∧ ¬ (b.training = true ∧ b.sram = true ∧ b.logic = true ∧ b.tests ≠ none)) →
      exec .ready s = .next s) ∧
    (s.power.good = true → b.ready = false → b.mapBad = true → NoLaunch s → (∀ x < 16, s.flag (OX.STATUS x) OX.STATUS_PRESENT = false) →
      Runs .ready s fun t => t.boot.ready = true ∧ t.flag GLB.STATUS GLB.STATUS_READY = true ∧ t.fld BRG.STATUS BRG.STATUS_STAGE = 4 ∧
        t.fld BRG.STATUS BRG.STATUS_FAIL_CAUSE = 1 ∧ t.flag GLB.STATUS GLB.STATUS_BOOT_FAILED = true ∧ t.fld GB.HEALTH GB.HEALTH_STATE = 2 ∧
        (∀ sl < 96, t.sliceHere sl = false) ∧ ∀ n < 4096, t.flag (POR.STATUS n) POR.STATUS_PRESENT = false) ∧
    (runs → b.mapBad = false → b.sram = true → b.logic = true → b.tests = some true → b.ctuOk = true → b.xrOk = true →
      (∀ x < 16, s.oxState x = 0 ∨ 6 ≤ s.oxState x) → b.sites = BitVec.allOnes 32 →
      (∀ u < 4, (s.upper u).phase = 4 ∨ ((s.upper u).phase = 0 ∧ s.railEnabled (rIo u) = false)) → s.guestbook.retained.length ≤ 64 →
      Runs .ready s fun t => t.boot.ready = true ∧ t.flag GLB.STATUS GLB.STATUS_READY = true ∧ t.fld BRG.STATUS BRG.STATUS_STAGE = 1 ∧
        t.flag SBX.STATUS SBX.STATUS_UDS_LOCKED = true ∧ t.reg BRG.READY_TIME = BitVec.ofNat 64 s.etc ∧
        (∀ sl < 96, t.sliceHere sl = !s.unitBad 1 sl) ∧ (∀ n < 4096, t.flag (POR.STATUS n) POR.STATUS_PRESENT = !s.unitBad 3 n) ∧
        (∀ a < 0x10000000000, t.byte a = 0) ∧ t.fld GB.STATUS GB.STATUS_PRIOR_COUNT = s.guestbook.retained.length ∧
        t.fld GB.HEAD_SEQ GB.HEAD_SEQ_SEQ = s.guestbook.retained.length ∧
        t.planDigest = sha384 (tabRange 0 t.boot.record 0 0xFD0) ∧
        ∀ i < 32, t.flag (MEM.STATUS i) MEM.STATUS_PRESENT = true → t.flag (MEM.STATUS i) MEM.STATUS_FENCED = !t.siteEnabled i)

/-- Hard repair, the fence of a hostel, and the compute-part reset. The list's entries that cannot be read count as none (log 59). -/
def Obligations.ServiceAndPartReset : Prop :=
  ∀ s : State,
    let st := s.fld BRG.STATUS BRG.STATUS_STAGE
    let repairing := s.flag BRG.STATUS BRG.STATUS_HARD_REPAIR_BUSY
    let resetting := s.flag BRG.STATUS BRG.STATUS_PART_RESET_BUSY
    (st ≠ 1 ∨ repairing = true → exec .hardRepair s = .next s) ∧
    (∀ c l, st = 1 → repairing = false → s.couriers.chans = [] →
      let n := s.fld BRG.REPAIR_LIST BRG.REPAIR_LIST_COUNT
      let rows := if c = 0 then repairEntries l n else []
      s.readNow (s.fld BRG.REPAIR_LIST BRG.REPAIR_LIST_DPA / 8 * 8) (8 * n) = (s, c, l) → Runs .hardRepair s fun t =>
        t.service.repair = rows ∧ t.flag BRG.STATUS BRG.STATUS_HARD_REPAIR_BUSY = true ∧ t.mem = s.mem ∧
          ∀ e ∈ rows, s.siteHere e.1 = true → s.siteFenced e.1 = false → t.siteFenced e.1 = true ∧ (t.site e.1).selfRefresh = true) ∧
    (repairing = false → ∀ ok, exec (.hardRepairDone ok) s = .next s) ∧
    (repairing = true → ∀ ok, s.service.repair.length < 65536 → Runs (.hardRepairDone ok) s fun t =>
      t.flag BRG.STATUS BRG.STATUS_HARD_REPAIR_BUSY = false ∧ t.service.repair = [] ∧
        t.fld BRG.REPAIR_RESULT BRG.REPAIR_RESULT_DONE + t.fld BRG.REPAIR_RESULT BRG.REPAIR_RESULT_FAILED = s.service.repair.length ∧
        ∀ i off, i < 32 → s.service.repair = [(i, off)] → s.siteHere i = true → off < s.siteBytes i → s.siteEnabled i = true →
          t.siteFenced i = false ∧ t.fld BRG.REPAIR_RESULT BRG.REPAIR_RESULT_DONE = if ok.getD 0 false then 1 else 0) ∧
    (∀ h : BitVec 3,
      let n := h.toNat
      (s.planned 4 n = false ∨ resetting = true ∨ s.flag (HOS.STATUS n) HOS.STATUS_FENCED = true → exec (.hostelFence h) s = .next s) ∧
      (s.planned 4 n = true → resetting = false → s.flag (HOS.STATUS n) HOS.STATUS_FENCED = false →
        let fenced := fun (t : State) => t.flag (HOS.CTRL n) HOS.CTRL_FENCE = true ∧ t.flag (HOS.STATUS n) HOS.STATUS_FENCED = true ∧ t.mem = s.mem
        (s.hostelLaunches n = [] → Runs (.hostelFence h) s fun t => fenced t ∧ t = { s with regs := t.regs, guestbook := t.guestbook } ∧
          SameRegs [HOS.CTRL n, HOS.STATUS n] s t ∧ Logs kUNIT 0 (srcOf 4 n) s t) ∧
        (∀ l k, s.hostelLaunches n = [l] → s.slotOf l = some k → (s.launch k).killing = false → Runs (.hostelFence h) s fun t => fenced t ∧
          t.fld (LNCH.STATUS k) LNCH.STATUS_CAUSE = cUNIT_FENCED ∧ (t.launch k).killing = true ∧ Raised iKILL t ∧ GroupsStop l s t ∧
          ∃ e f, t.guestbook.waiting = s.guestbook.waiting ++ [e, f] ∧ e.kind = kKILL ∧ e.cause = cUNIT_FENCED ∧ f.kind = kUNIT)) ∧
      (s.planned 4 n = false ∨ s.hostelEnabled n = false ∨ resetting = true ∨ s.flag (HOS.STATUS n) HOS.STATUS_FENCED = false →
        exec (.hostelUnfence h) s = .next s) ∧
      (s.planned 4 n = true → s.hostelEnabled n = true → resetting = false → s.flag (HOS.STATUS n) HOS.STATUS_FENCED = true →
        Runs (.hostelUnfence h) s fun t => t.flag (HOS.CTRL n) HOS.CTRL_FENCE = false ∧ t.flag (HOS.STATUS n) HOS.STATUS_FENCED = false ∧
          SameRegs [HOS.CTRL n, HOS.STATUS n] s t ∧ (∀ g < 64, t.group n g = {}) ∧ (∀ b < 8, t.blockAt n b = {}) ∧ (∀ c < 64, t.ctr n c = 0) ∧
          (∀ a, t.byte a = if storeBase n ≤ a ∧ a < storeBase n + 0x1000000 then 0 else s.byte a) ∧
          (∀ j < 8, j ≠ n → (∀ g < 64, t.group j g = s.group j g) ∧ ∀ b < 8, t.blockAt j b = s.blockAt j b) ∧
          ∃ e f, t.guestbook.waiting = s.guestbook.waiting ++ [e, f] ∧ e.kind = kUNIT ∧ f.kind = kUNIT)) ∧
    ((st ≠ 1 ∧ st ≠ 3) ∨ resetting = true → exec .partReset s = .next s) ∧
    ((st = 1 ∨ st = 3) → resetting = false → NoLaunch s → NothingWaits s → (∀ u < 4, s.upHere u = false) → s.sbx.porterFw = none →
      Runs .partReset s fun t => t.flag BRG.STATUS BRG.STATUS_PART_RESET_BUSY = true ∧ t.flag GLB.STATUS GLB.STATUS_PART_RESET_BUSY = true ∧
        (∀ e < 2, t.flag (XR.TT_CTRL e) XR.TT_CTRL_RUN = false) ∧
        (∀ a, a < 0x2FE00000 ∨ (0x90000000 ≤ a ∧ a < 0xA0000000) → t.byte a = 0) ∧
        (∀ a, (0x2FE00000 ≤ a ∧ a < 0x80000000) ∨ 0xA0000000 ≤ a → t.byte a = s.byte a) ∧
        (∀ n < 4096, s.flag (POR.STATUS n) POR.STATUS_PRESENT = true → t.flag (POR.STATUS n) POR.STATUS_FENCED = true ∧ t.porter n = {}) ∧
        (∀ h < 8, s.planned 4 h = true → t.flag (HOS.STATUS h) HOS.STATUS_FENCED = true ∧
          (∀ i < 0x1000000, t.byte (storeBase h + i) = 0) ∧ ∀ g < 64, t.group h g = {}) ∧
        t.ctu.small = [] ∧ t.ctu.medium = [] ∧ t.ctu.huge = [] ∧ (∀ sl < 96, (t.slice sl).red = []) ∧ ∀ x < 16, (t.oxl x).held = true) ∧
    (resetting = false ∨ s.flag PT.STATUS PT.STATUS_SHUTDOWN_PENDING = true → exec .partResetDone s = .next s) ∧
    (resetting = true → s.flag PT.STATUS PT.STATUS_SHUTDOWN_PENDING = false →
      (∀ u < 4, s.upHere u = false ∧ s.flag (UP.STATUS u) UP.STATUS_RESET_BUSY = false) → (∀ x < 16, (s.oxl x).reqs = []) →
      Runs .partResetDone s fun t => t.flag BRG.STATUS BRG.STATUS_PART_RESET_BUSY = false ∧ t.mem = s.mem ∧
        (∀ n < 4096, s.flag (POR.STATUS n) POR.STATUS_PRESENT = true → t.flag (POR.STATUS n) POR.STATUS_FENCED = false) ∧
        (∀ h < 8, s.planned 4 h = true → s.hostelEnabled h = true → t.flag (HOS.STATUS h) HOS.STATUS_FENCED = false) ∧
        (∀ x < 16, (t.oxl x).held = false) ∧ t.planDigest = sha384 (tabRange 0 t.boot.record 0 0xFD0))

/-! ### The whole block -/

/-- A step takes the command at the front of the queue and gives its effect on the block with the queue's rest; with no command waiting the
block idles (the model's own form, log 3). -/
def Obligations.StepTakesTheFront : Prop :=
  ∀ s : State, (∀ c rest, s.pending = c :: rest → step s = exec c { s with pending := rest }) ∧ (s.pending = [] → step s = .next s)

/-- The block at reset: no command waits, nothing is written, and the registers hold the values that the chapters' tables give. That every
register without a number in its table starts at 0 is the model's choice (log 5). -/
def Obligations.ResetState : Prop :=
  let z := State.reset
  z.wf = true ∧ z.pending = [] ∧ z.mem = [] ∧ (∀ a, z.byte a = 0) ∧ (∀ k < 16, z.slotState k = 0) ∧ z.reg ETC.VALUE = 0 ∧ z.power.good = false ∧
    z.fld BRG.STATUS BRG.STATUS_STAGE = 0 ∧ z.fld GLB.ID GLB.ID_PART = 0x0B20 ∧ z.fld GLB.ID GLB.ID_STEPPING = 0xA1 ∧
    z.fld GLB.MAP_VERSION GLB.MAP_VERSION_VERSION = 1 ∧ z.fld GLB.NODE_ID GLB.NODE_ID_NODE = 0xFFFF ∧
    z.fld PCIE.CPL_TIMEOUT PCIE.CPL_TIMEOUT_MS = 50 ∧ z.fld GB.UE_LIMIT GB.UE_LIMIT_COUNT = 16 ∧ z.flag ETC.FLAGS ETC.FLAGS_WALL_UNKNOWN = true ∧
    z.fld PT.BUDGET_CFG PT.BUDGET_CFG_CAP_W = 900 ∧ z.fld PT.POWER_LIMIT PT.POWER_LIMIT_LIMIT_W = 1200 ∧
    z.flag PT.STATUS PT.STATUS_BUDGET_MODE = true ∧ z.flag PT.CTRL PT.CTRL_NOTICE_ENABLE = true ∧
    z.flag CTU.CTRL CTU.CTRL_STALL_REPLAY = true ∧ z.flag CTU.INVAL CTU.INVAL_DONE = true ∧ z.fld CTU.FQ_SIZE CTU.FQ_SIZE_LOG2 = 8 ∧
    (∀ e < 2, z.reg (XR.BG_AGE e) = 0x04040220) ∧
    (∀ k < 16, z.fld (LNCH.STEPS k) LNCH.STEPS_COUNT = 1 ∧ z.fld (LNCH.CHIP k) LNCH.CHIP_COUNT = 1) ∧
    (∀ x < 16, z.flag (OX.CTRL x) OX.CTRL_ENABLE = true ∧ z.fld (OX.PEER x) OX.PEER_NODE = 0xFFFF ∧ z.flag (OX.STATUS x) OX.STATUS_DRAINED = true) ∧
    (∀ u < 4, z.fld (UP.POWER u) UP.POWER_LIMIT_W = 450 ∧ z.flag (UP.STATUS u) UP.STATUS_DRAINED = true) ∧
    (∀ i < 32, z.reg (MEM.KEY_VALID i) = 1 ∧ z.fld (MEM.REPAIR_CFG i) MEM.REPAIR_CFG_CE_THRESHOLD = 4) ∧
    (∀ i < 24, z.fld (PT.ZONE_THRESH i) PT.ZONE_THRESH_WARN_TRIP = 95 ∧ z.fld (PT.ZONE_THRESH i) PT.ZONE_THRESH_THR_TRIP = 105 ∧
      z.fld (PT.ZONE_LIMIT i) PT.ZONE_LIMIT_SHUTDOWN = 120)

/-- The half shares of a licence, as run-time firmware fixes them: of each counted resource, half the count in each half, the present units in
ascending index order. -/
def Obligations.EnabledShares : Prop :=
  ∀ (s : State) (ec lms : Bool), s.passes 1 ec lms = true → Runs (.runtimeFirmware ec lms) s fun t => ∀ e < 2,
    let l := s.sbx.licence.getD {}
    EnabledIn (fun i => s.flag (MEM.STATUS i) MEM.STATUS_PRESENT) (8 * e) 8 (l.hbm / 2) t.siteEnabled ∧
      EnabledIn (fun i => s.flag (MEM.STATUS i) MEM.STATUS_PRESENT) (16 + 8 * e) 8 (l.lpddr / 2) t.siteEnabled ∧
      EnabledIn (s.planned 9) (8 * e) 8 (l.oxlux / 2) t.oxEnabled ∧ EnabledIn (s.planned 4) (4 * e) 4 (l.hostels / 2) t.hostelEnabled

/-- A reserved offset reads 0, and a write to it changes nothing: nothing is logged and no bus error is raised. So for 4 bytes, and for 8
where both halves are reserved. -/
def Obligations.ReservedOffsets : Prop :=
  ∀ (s : State) (off : BitVec 26) (who : Writer) (v : W64), off.toNat % 4 = 0 → ReservedOffset off.toNat →
    (s.csrRead off.toNat 4 = 0 ∧ s.etcRead off.toNat 4 = s ∧ exec (.registerWrite who off false v) s = .next s) ∧
    (off.toNat % 8 = 0 → ReservedOffset (off.toNat + 4) →
      s.csrRead off.toNat 8 = 0 ∧ s.etcRead off.toNat 8 = s ∧ exec (.registerWrite who off true v) s = .next s)

/-- A discard of a tile that is there: every sector invalid, the tile code 0, the poison gone, and no other tile and no byte changed. -/
def Obligations.DiscardedTile : Prop :=
  ∀ (s : State) (t : Nat), s.tileGone t = false →
    let u := (s.discardTile t).1
    (s.discardTile t).2 = 0 ∧ (u.tile t).valid = 0 ∧ (u.tile t).code = 0 ∧ (u.tile t).poisoned = false ∧
      (∀ k, k ≠ t → u.tile k = s.tile k) ∧ u.mem = s.mem ∧ ∀ i < 4096, u.bufByte (4096 * t + i) = 0

/-- Every well-formed command has an effect: from every state it answers a next state, never a fault or a refusal. -/
def Obligations.CommandsComplete : Prop :=
  ∀ (i : Instr) (s : State), wellFormed i = true → ∃ t, exec i s = .next t

/-- Commands are served in the order in which they wait: a step takes the front of the queue and nothing else of it. -/
def Obligations.QueueOrder : Prop :=
  ∀ s t : State, step s = .next t → t.pending = s.pending.drop 1

/-- Every step keeps memory in its canonical form. -/
def Obligations.MemoryStaysCanonical : Prop :=
  ∀ s t : State, Memory.wf s.mem = true → step s = .next t → Memory.wf t.mem = true

/-- No step takes back what the fuses hold. -/
def Obligations.FusesOneWay : Prop :=
  ∀ s t : State, step s = .next t → FusesOnlyBlow s.fuses t.fuses
end

