-- ==== Sys2Proof/Laws/Tab.lean ====
section
/-!
SUPPORT. Sys2Proof/Laws/Tab.lean: the laws of the sparse tables: what a key holds after each operation, and that every operation keeps
the canonical form.
-/

namespace Sys2Proof.Machine

variable {α : Type}

/-! ### What a key holds -/

@[simp] theorem tabFind_nil (k : Nat) : tabFind ([] : Tab α) k = none := rfl

theorem tabFind_erase (t : Tab α) (k k' : Nat) : tabFind (tabErase t k) k' = if k' = k then none else tabFind t k' := by
  induction t with
  | nil => simp [tabErase, tabFind]
  | cons e t ih =>
    obtain ⟨a, v⟩ := e
    simp only [tabErase, tabFind]
    by_cases h1 : k = a
    · subst h1
      by_cases h2 : k' = k <;> simp_all
    · simp only [if_neg h1, tabFind, ih]
      by_cases h2 : k' = a
      · have h3 : ¬ a = k := fun h => h1 h.symm
        simp [h2, h3]
      · simp [h2]

theorem tabFind_insert (t : Tab α) (k : Nat) (v : α) (k' : Nat) :
    tabFind (tabInsert t k v) k' = if k' = k then some v else tabFind t k' := by
  induction t with
  | nil => simp [tabInsert, tabFind]
  | cons e t ih =>
    obtain ⟨a, w⟩ := e
    simp only [tabInsert]
    split
    · next h => subst h; by_cases h2 : k' = k <;> simp [tabFind, h2]
    · next h =>
      split
      · by_cases h2 : k' = k <;> simp [tabFind, h2]
      · simp only [tabFind, ih]
        by_cases h2 : k' = a
        · have h3 : ¬ a = k := fun h' => h h'.symm
          simp [h2, h3]
        · simp [h2]

variable [DecidableEq α]

/-- Reading a table after a write: the value written at its key, what was there elsewhere. -/
theorem tabGet_set (d : α) (t : Tab α) (k : Nat) (v : α) (k' : Nat) :
    tabGet d (tabSet d t k v) k' = if k' = k then v else tabGet d t k' := by
  unfold tabGet tabSet
  by_cases h : v = d
  · simp only [h, if_true, tabFind_erase]; split <;> simp
  · simp only [h, if_false, tabFind_insert]; split <;> simp

@[simp] theorem tabGet_set_same (d : α) (t : Tab α) (k : Nat) (v : α) : tabGet d (tabSet d t k v) k = v := by
  simp [tabGet_set]

theorem tabGet_set_other (d : α) (t : Tab α) {k k' : Nat} (v : α) (h : k' ≠ k) : tabGet d (tabSet d t k v) k' = tabGet d t k' := by
  simp [tabGet_set, h]

omit [DecidableEq α] in
@[simp] theorem tabGet_nil (d : α) (k : Nat) : tabGet d ([] : Tab α) k = d := rfl

omit [DecidableEq α] in
/-- A range read as a list has the length asked for. -/
@[simp] theorem tabRange_length (d : α) (t : Tab α) (k n : Nat) : (tabRange d t k n).length = n := by
  induction n generalizing k with
  | zero => rfl
  | succ n ih => simp [tabRange, ih]

omit [DecidableEq α] in
/-- Element `i` of a range read as a list. -/
theorem tabRange_getElem? (d : α) (t : Tab α) (k n i : Nat) (h : i < n) : (tabRange d t k n)[i]? = some (tabGet d t (k + i)) := by
  induction n generalizing k i with
  | zero => omega
  | succ n ih =>
    cases i with
    | zero => simp [tabRange]
    | succ i => simp [tabRange, ih (k + 1) i (by omega), Nat.add_assoc, Nat.add_comm 1 i]

/-- Reading a table after a list was written from `k` upward. -/
theorem tabGet_write (d : α) (t : Tab α) (k : Nat) (l : List α) (k' : Nat) :
    tabGet d (tabWrite d t k l) k' = if k ≤ k' ∧ k' < k + l.length then l.getD (k' - k) d else tabGet d t k' := by
  induction l generalizing t k with
  | nil =>
    have h : ¬ (k ≤ k' ∧ k' < k + ([] : List α).length) := by simp only [List.length_nil]; omega
    rw [if_neg h]; rfl
  | cons v l ih =>
    simp only [tabWrite, ih, tabGet_set, List.length_cons]
    by_cases h1 : k' = k
    · subst h1
      have : ¬ (k' + 1 ≤ k' ∧ k' < k' + 1 + l.length) := by omega
      simp [this]
    · by_cases h2 : k + 1 ≤ k' ∧ k' < k + 1 + l.length
      · have h3 : k ≤ k' ∧ k' < k + (l.length + 1) := by omega
        obtain ⟨m, hm⟩ : ∃ m, k' - k = m + 1 := ⟨k' - k - 1, by omega⟩
        have h4 : k' - (k + 1) = m := by omega
        simp [h2, h3, hm, h4]
      · have h3 : ¬ (k ≤ k' ∧ k' < k + (l.length + 1)) := by omega
        rw [if_neg h2, if_neg h3, if_neg h1]

/-- What a key holds after a map: `f` of what was listed. -/
theorem tabGet_map (d : α) (f : Nat → α → α) (t : Tab α) (k : Nat) : tabGet d (tabMap d f t) k = ((tabFind t k).map (f k)).getD d := by
  induction t with
  | nil => rfl
  | cons e t ih =>
    obtain ⟨a, v⟩ := e
    simp only [tabMap, tabGet_set, tabFind]
    by_cases h : k = a
    · subst h; simp
    · simp [h, ih]

/-! ### The canonical form -/

/-- The keys of a table in canonical form lie above the bound it starts from. -/
def tabAbove (lo : Option Nat) (k : Nat) : Bool :=
  match lo with
  | none => true
  | some l => decide (l < k)

theorem tabWfFrom_cons (d : Nat → α) (lo : Option Nat) (a : Nat) (v : α) (t : Tab α) :
    tabWfFrom d lo ((a, v) :: t) = (tabAbove lo a && decide (v ≠ d a) && tabWfFrom d (some a) t) := by
  cases lo <;> rfl

theorem tabWfFrom_lower {d : Nat → α} {lo : Option Nat} {a : Nat} {t : Tab α} (ha : tabAbove lo a = true)
    (h : tabWfFrom d (some a) t = true) : tabWfFrom d lo t = true := by
  cases t with
  | nil => rfl
  | cons e t =>
    obtain ⟨b, v⟩ := e
    rw [tabWfFrom_cons] at h ⊢
    simp only [Bool.and_eq_true] at h ⊢
    refine ⟨⟨?_, h.1.2⟩, h.2⟩
    cases lo with
    | none => rfl
    | some l =>
      have h1 : l < a := by simpa [tabAbove] using ha
      have h2 : a < b := by simpa [tabAbove] using h.1.1
      simpa [tabAbove] using Nat.lt_trans h1 h2

theorem tabWfFrom_erase {d : Nat → α} {lo : Option Nat} {t : Tab α} (k : Nat) (h : tabWfFrom d lo t = true) :
    tabWfFrom d lo (tabErase t k) = true := by
  induction t generalizing lo with
  | nil => rfl
  | cons e t ih =>
    obtain ⟨a, v⟩ := e
    rw [tabWfFrom_cons] at h
    simp only [Bool.and_eq_true] at h
    simp only [tabErase]
    split
    · exact ih (tabWfFrom_lower h.1.1 h.2)
    · rw [tabWfFrom_cons]; simp only [Bool.and_eq_true]; exact ⟨h.1, ih h.2⟩

theorem tabWfFrom_insert {d : Nat → α} {lo : Option Nat} {t : Tab α} {k : Nat} {v : α} (hk : tabAbove lo k = true) (hv : v ≠ d k)
    (h : tabWfFrom d lo t = true) : tabWfFrom d lo (tabInsert t k v) = true := by
  induction t generalizing lo with
  | nil => simp [tabInsert, tabWfFrom_cons, hk, hv, tabWfFrom]
  | cons e t ih =>
    obtain ⟨a, w⟩ := e
    rw [tabWfFrom_cons] at h
    simp only [Bool.and_eq_true] at h
    simp only [tabInsert]
    split
    · next hka => subst hka; simp [tabWfFrom_cons, hk, hv, h.2]
    · split
      · next hlt =>
        simp only [tabWfFrom_cons, hk, Bool.true_and, Bool.and_eq_true]
        exact ⟨by simpa using hv, ⟨by simpa [tabAbove] using hlt, h.1.2⟩, h.2⟩
      · next hne hge =>
        simp only [tabWfFrom_cons, Bool.and_eq_true]
        exact ⟨h.1, ih (by simp [tabAbove]; omega) h.2⟩

/-- A write keeps the canonical form, over the default that the key has. -/
theorem tabWf_set {d : Nat → α} {t : Tab α} (k : Nat) (v : α) (h : tabWf d t = true) : tabWf d (tabSet (d k) t k v) = true := by
  unfold tabWf tabSet at *
  split
  · exact tabWfFrom_erase k h
  · next hv => exact tabWfFrom_insert rfl hv h

/-- Writing a list keeps the canonical form. -/
theorem tabWf_write {d : α} {t : Tab α} (k : Nat) (l : List α) (h : tabWf (fun _ => d) t = true) :
    tabWf (fun _ => d) (tabWrite d t k l) = true := by
  induction l generalizing t k with
  | nil => exact h
  | cons v l ih => exact ih (k + 1) (tabWf_set (d := fun _ => d) k v h)

theorem tabWfFrom_filter {d : Nat → α} {lo : Option Nat} {t : Tab α} (p : Nat × α → Bool) (h : tabWfFrom d lo t = true) :
    tabWfFrom d lo (t.filter p) = true := by
  induction t generalizing lo with
  | nil => rfl
  | cons e t ih =>
    obtain ⟨a, v⟩ := e
    rw [tabWfFrom_cons] at h
    simp only [Bool.and_eq_true] at h
    simp only [List.filter_cons]
    split
    · simp only [tabWfFrom_cons, Bool.and_eq_true]; exact ⟨h.1, ih h.2⟩
    · exact ih (tabWfFrom_lower h.1.1 h.2)

/-- Taking entries out keeps the canonical form. -/
theorem tabWf_filter {d : Nat → α} {t : Tab α} (p : Nat × α → Bool) (h : tabWf d t = true) : tabWf d (t.filter p) = true :=
  tabWfFrom_filter p h

/-- Mapping the entries gives the canonical form. -/
theorem tabWf_map (d : α) (f : Nat → α → α) (t : Tab α) : tabWf (fun _ => d) (tabMap d f t) = true := by
  induction t with
  | nil => rfl
  | cons e t ih => exact tabWf_set (d := fun _ => d) e.1 (f e.1 e.2) ih

end Sys2Proof.Machine
end

