-- ==== Sys2Proof/Laws/Hostel.lean ====
section
/-!
SUPPORT. Sys2Proof/Laws/Hostel.lean: what the shared operations of the hostel do: the check at issue, a write of one group, the lanes of a
mask, and the writes of a thread register, a predicate and the sticky flags over the executing lanes.
-/

namespace Sys2Proof.Machine

open Sys2Proof.Safety

/-! ### Issue -/

/-- An instruction that passes the check at issue runs its body. -/
theorem issue_ready {s : State} {x : HosCmd} (hr : HosReady s x) (body : State → Res) :
    s.issue x.h.toNat x.g.toNat x.w x.op body = body s := by
  have h1 : ¬ (hostelFeature x.w = 1 ∧ s.flag BRG.ENABLED BRG.ENABLED_MX = false) := fun h => by
    simp [hr.licensed.1 h.1] at h
  have h2 : ¬ (hostelFeature x.w = 2 ∧ s.flag BRG.ENABLED BRG.ENABLED_TALLY = false) := fun h => by
    simp [hr.licensed.2 h.1] at h
  unfold State.issue
  simp [hr.issue, hr.legal, hr.row, hr.window, hr.free, h1, h2]

/-! ### One group written -/

@[simp] theorem group_setGroup (s : State) (h g : Nat) (v : Group) : (s.setGroup h g v).group h g = v := by
  simp [State.setGroup, State.group]

theorem onlyGroup_setGroup (s : State) (h g : Nat) (v : Group) : OnlyGroup h g s (s.setGroup h g v) :=
  ⟨rfl, fun k hk => by simp [State.setGroup, tabGet_set, hk]⟩

/-! ### Lanes of a mask -/

theorem mem_onesFrom {n i w l : Nat} : l ∈ onesFrom n i w ↔ i ≤ l ∧ l < i + n ∧ w.testBit (l - i) = true := by
  induction n generalizing i w with
  | zero => simp [onesFrom]; omega
  | succ n ih =>
    have hb : w.testBit 0 = decide (w % 2 = 1) := by simp [Nat.testBit_zero]
    have key : i + 1 ≤ l → w.testBit (l - i) = (w / 2).testBit (l - (i + 1)) := fun h => by
      obtain ⟨m, hm⟩ : ∃ m, l - i = m + 1 := ⟨l - i - 1, by omega⟩
      have : l - (i + 1) = m := by omega
      rw [hm, this, Nat.testBit_succ]
    unfold onesFrom
    split
    · next h =>
      simp only [List.mem_cons, ih]
      constructor
      · rintro (rfl | ⟨h1, h2, h3⟩)
        · exact ⟨Nat.le_refl _, by omega, by simp [hb, h]⟩
        · exact ⟨by omega, by omega, by rw [key h1]; exact h3⟩
      · rintro ⟨h1, h2, h3⟩
        by_cases e : l = i
        · exact .inl e
        · exact .inr ⟨by omega, by omega, by rw [← key (by omega)]; exact h3⟩
    · next h =>
      simp only [ih]
      constructor
      · rintro ⟨h1, h2, h3⟩
        exact ⟨by omega, by omega, by rw [key h1]; exact h3⟩
      · rintro ⟨h1, h2, h3⟩
        have e : l ≠ i := by
          rintro rfl
          simp [hb, h] at h3
        exact ⟨by omega, by omega, by rw [← key (by omega)]; exact h3⟩

theorem nodup_onesFrom (n i w : Nat) : (onesFrom n i w).Nodup := by
  induction n generalizing i w with
  | zero => simp [onesFrom]
  | succ n ih =>
    unfold onesFrom
    split
    · refine List.nodup_cons.2 ⟨fun h => ?_, ih _ _⟩
      have := (mem_onesFrom.1 h).1
      omega
    · exact ih _ _

/-- The lanes of a mask are those whose bit is 1. -/
theorem mem_lanesOf {m : W32} {l : Nat} : l ∈ lanesOf m ↔ l < 32 ∧ m.getLsbD l = true := by
  unfold lanesOf ones
  rw [mem_onesFrom]
  simp [BitVec.getLsbD]

theorem nodup_lanesOf (m : W32) : (lanesOf m).Nodup := nodup_onesFrom _ _ _

/-! ### Registers of a group -/

theorem rv_wv (g : Group) (r l : Nat) (x : W32) (r' l' : Nat) (hr : r < 128) (hr' : r' < 128) (hl : l < 32) (hl' : l' < 32) :
    (g.wv r l x).rv r' l' = if r' = r ∧ l' = l then x else g.rv r' l' := by
  unfold Group.wv Group.rv
  simp only [tabGet_set]
  rw [Nat.mod_eq_of_lt hr, Nat.mod_eq_of_lt hr']
  by_cases h : r' = r ∧ l' = l
  · simp [h.1, h.2]
  · have : ¬ 32 * r' + l' = 32 * r + l := by omega
    simp [h, this]

@[simp] theorem rv_orFlags (g : Group) (f : Flags) (r l : Nat) : (g.orFlags f).rv r l = g.rv r l := rfl
@[simp] theorem flags_wv (g : Group) (r l : Nat) (x : W32) : (g.wv r l x).flags = g.flags := rfl
@[simp] theorem flags_orFlags (g : Group) (f : Flags) : (g.orFlags f).flags = g.flags ||| BitVec.ofNat 32 f := rfl
@[simp] theorem rv_next (g : Group) (r l : Nat) : g.next.rv r l = g.rv r l := rfl
@[simp] theorem rp_next (g : Group) (p : Nat) : g.next.rp p = g.rp p := rfl

/-! ### A value per lane -/

/-- One lane's write of v_d with its flags. -/
def laneOne (d : Nat) (val : Nat → W32) (fl : Nat → Flags) (acc : Group) (l : Nat) : Group := (acc.wv d l (val l)).orFlags (fl l)

theorem laneFold_rv {d : Nat} (hd : d < 128) (val : Nat → W32) (fl : Nat → Flags) (ls : List Nat) (h32 : ∀ l ∈ ls, l < 32) (g : Group)
    (r l : Nat) (hr : r < 128) (hl : l < 32) :
    (ls.foldl (laneOne d val fl) g).rv r l = if r = d ∧ l ∈ ls then val l else g.rv r l := by
  induction ls generalizing g with
  | nil => simp
  | cons k ls ih =>
    have hk : k < 32 := h32 k (by simp)
    rw [List.foldl_cons, ih (fun l hl => h32 l (by simp [hl]))]
    simp only [laneOne, rv_orFlags, rv_wv _ _ _ _ _ _ hd hr hk hl, List.mem_cons]
    by_cases h1 : r = d <;> by_cases h2 : l ∈ ls <;> by_cases h3 : l = k <;> simp [h1, h2, h3]

theorem laneFold_flags (d : Nat) (val : Nat → W32) (fl : Nat → Flags) (ls : List Nat) (g : Group) (i : Nat) :
    (ls.foldl (laneOne d val fl) g).flags.getLsbD i = true ↔
      g.flags.getLsbD i = true ∨ ∃ l ∈ ls, (BitVec.ofNat 32 (fl l)).getLsbD i = true := by
  induction ls generalizing g with
  | nil => simp
  | cons k ls ih =>
    rw [List.foldl_cons, ih]
    simp only [laneOne, flags_orFlags, flags_wv, BitVec.getLsbD_or, Bool.or_eq_true, List.mem_cons, exists_eq_or_imp]
    exact or_assoc

theorem laneFold_rest (d : Nat) (val : Nat → W32) (fl : Nat → Flags) (ls : List Nat) (g : Group) :
    ls.foldl (laneOne d val fl) g =
      { g with v := (ls.foldl (laneOne d val fl) g).v, flags := (ls.foldl (laneOne d val fl) g).flags } := by
  induction ls generalizing g with
  | nil => rfl
  | cons k ls ih =>
    rw [List.foldl_cons, ih]
    rfl

/-- An instruction that writes a value per lane, once it passes the check at issue (R140, R170, R183). -/
theorem issueGroup_laneWrite {s : State} {x : HosCmd} (hr : HosReady s x) (f : Group → Nat → Nat × Flags) :
    ∃ t, s.issueGroup x.h.toNat x.g.toNat x.w x.op (laneWrite x.w f) = .next t ∧
      LanesWrite x.h.toNat x.g.toNat x.w (fun gr l => BitVec.ofNat 32 (f gr l).1) (fun gr l => BitVec.ofNat 32 (f gr l).2) s t := by
  have hd : hwD x.w < 128 := by unfold hwD bitsOf; exact Nat.mod_lt _ (by decide)
  unfold State.issueGroup
  rw [issue_ready hr]
  refine ⟨_, rfl, onlyGroup_setGroup _ _ _ _, ?_, ?_, ?_⟩
  · rw [group_setGroup]
    exact congrArg Group.next (laneFold_rest (hwD x.w) (fun l => BitVec.ofNat 32 (f _ l).1) (fun l => (f _ l).2) _ _)
  · intro r l hrr hl
    rw [group_setGroup, rv_next]
    have := laneFold_rv hd (fun l => BitVec.ofNat 32 (f (s.group x.h.toNat x.g.toNat) l).1) (fun l => (f (s.group x.h.toNat x.g.toNat) l).2)
      (lanesOf (execMask (s.group x.h.toNat x.g.toNat) x.w)) (fun l h => (mem_lanesOf.1 h).1) (s.group x.h.toNat x.g.toNat) r l hrr hl
    have e : (laneWrite x.w f (s.group x.h.toNat x.g.toNat) (execMask (s.group x.h.toNat x.g.toNat) x.w)).rv r l = _ := this
    rw [e]
    simp only [mem_lanesOf, hl, true_and, Executes]
    exact ⟨fun h => by simp [h], fun h => by simp [h]⟩
  · intro i
    rw [group_setGroup]
    have := laneFold_flags (hwD x.w) (fun l => BitVec.ofNat 32 (f (s.group x.h.toNat x.g.toNat) l).1)
      (fun l => (f (s.group x.h.toNat x.g.toNat) l).2) (lanesOf (execMask (s.group x.h.toNat x.g.toNat) x.w)) (s.group x.h.toNat x.g.toNat) i
    refine Iff.trans this (or_congr Iff.rfl ?_)
    simp only [mem_lanesOf, Executes, and_assoc]

end Sys2Proof.Machine
end

