-- ==== Sys2Proof/Laws/State.lean ====
section
/-!
SUPPORT. Sys2Proof/Laws/State.lean: each update of one part of the state leaves every other field as it was.
-/

namespace Sys2Proof.Machine

/-! ### State.setReg -/

@[simp] theorem State.setReg_pending (s : State) (r : Nat) (v : W64) : (s.setReg r v).pending = s.pending := rfl
@[simp] theorem State.setReg_free (s : State) (r : Nat) (v : W64) : (s.setReg r v).free = s.free := rfl
@[simp] theorem State.setReg_mem (s : State) (r : Nat) (v : W64) : (s.setReg r v).mem = s.mem := rfl
@[simp] theorem State.setReg_wordErr (s : State) (r : Nat) (v : W64) : (s.setReg r v).wordErr = s.wordErr := rfl
@[simp] theorem State.setReg_tiles (s : State) (r : Nat) (v : W64) : (s.setReg r v).tiles = s.tiles := rfl
@[simp] theorem State.setReg_slices (s : State) (r : Nat) (v : W64) : (s.setReg r v).slices = s.slices := rfl
@[simp] theorem State.setReg_hosGroups (s : State) (r : Nat) (v : W64) : (s.setReg r v).hosGroups = s.hosGroups := rfl
@[simp] theorem State.setReg_hosBlocks (s : State) (r : Nat) (v : W64) : (s.setReg r v).hosBlocks = s.hosBlocks := rfl
@[simp] theorem State.setReg_hosCtrs (s : State) (r : Nat) (v : W64) : (s.setReg r v).hosCtrs = s.hosCtrs := rfl
@[simp] theorem State.setReg_hosStore (s : State) (r : Nat) (v : W64) : (s.setReg r v).hosStore = s.hosStore := rfl
@[simp] theorem State.setReg_hosArray (s : State) (r : Nat) (v : W64) : (s.setReg r v).hosArray = s.hosArray := rfl
@[simp] theorem State.setReg_halves (s : State) (r : Nat) (v : W64) : (s.setReg r v).halves = s.halves := rfl
@[simp] theorem State.setReg_uppers (s : State) (r : Nat) (v : W64) : (s.setReg r v).uppers = s.uppers := rfl
@[simp] theorem State.setReg_mesh (s : State) (r : Nat) (v : W64) : (s.setReg r v).mesh = s.mesh := rfl
@[simp] theorem State.setReg_porters (s : State) (r : Nat) (v : W64) : (s.setReg r v).porters = s.porters := rfl
@[simp] theorem State.setReg_steward (s : State) (r : Nat) (v : W64) : (s.setReg r v).steward = s.steward := rfl
@[simp] theorem State.setReg_sites (s : State) (r : Nat) (v : W64) : (s.setReg r v).sites = s.sites := rfl
@[simp] theorem State.setReg_stops (s : State) (r : Nat) (v : W64) : (s.setReg r v).stops = s.stops := rfl
@[simp] theorem State.setReg_ctu (s : State) (r : Nat) (v : W64) : (s.setReg r v).ctu = s.ctu := rfl
@[simp] theorem State.setReg_couriers (s : State) (r : Nat) (v : W64) : (s.setReg r v).couriers = s.couriers := rfl
@[simp] theorem State.setReg_ox (s : State) (r : Nat) (v : W64) : (s.setReg r v).ox = s.ox := rfl
@[simp] theorem State.setReg_hashes (s : State) (r : Nat) (v : W64) : (s.setReg r v).hashes = s.hashes := rfl
@[simp] theorem State.setReg_launches (s : State) (r : Nat) (v : W64) : (s.setReg r v).launches = s.launches := rfl
@[simp] theorem State.setReg_nextLaunch (s : State) (r : Nat) (v : W64) : (s.setReg r v).nextLaunch = s.nextLaunch := rfl
@[simp] theorem State.setReg_goOrder (s : State) (r : Nat) (v : W64) : (s.setReg r v).goOrder = s.goOrder := rfl
@[simp] theorem State.setReg_mileMsgs (s : State) (r : Nat) (v : W64) : (s.setReg r v).mileMsgs = s.mileMsgs := rfl
@[simp] theorem State.setReg_disp (s : State) (r : Nat) (v : W64) : (s.setReg r v).disp = s.disp := rfl
@[simp] theorem State.setReg_clocks (s : State) (r : Nat) (v : W64) : (s.setReg r v).clocks = s.clocks := rfl
@[simp] theorem State.setReg_lastCkpt (s : State) (r : Nat) (v : W64) : (s.setReg r v).lastCkpt = s.lastCkpt := rfl
@[simp] theorem State.setReg_guestbook (s : State) (r : Nat) (v : W64) : (s.setReg r v).guestbook = s.guestbook := rfl
@[simp] theorem State.setReg_pcie (s : State) (r : Nat) (v : W64) : (s.setReg r v).pcie = s.pcie := rfl
@[simp] theorem State.setReg_power (s : State) (r : Nat) (v : W64) : (s.setReg r v).power = s.power := rfl
@[simp] theorem State.setReg_fuses (s : State) (r : Nat) (v : W64) : (s.setReg r v).fuses = s.fuses := rfl
@[simp] theorem State.setReg_boot (s : State) (r : Nat) (v : W64) : (s.setReg r v).boot = s.boot := rfl
@[simp] theorem State.setReg_sbx (s : State) (r : Nat) (v : W64) : (s.setReg r v).sbx = s.sbx := rfl
@[simp] theorem State.setReg_service (s : State) (r : Nat) (v : W64) : (s.setReg r v).service = s.service := rfl
@[simp] theorem State.setReg_etcLatch (s : State) (r : Nat) (v : W64) : (s.setReg r v).etcLatch = s.etcLatch := rfl
@[simp] theorem State.setReg_finding (s : State) (r : Nat) (v : W64) : (s.setReg r v).finding = s.finding := rfl
@[simp] theorem State.setReg_stewardTx (s : State) (r : Nat) (v : W64) : (s.setReg r v).stewardTx = s.stewardTx := rfl

/-! ### State.setFld -/

@[simp] theorem State.setFld_pending (s : State) (r : Nat) (f : Fld) (v : Nat) : (s.setFld r f v).pending = s.pending := rfl
@[simp] theorem State.setFld_free (s : State) (r : Nat) (f : Fld) (v : Nat) : (s.setFld r f v).free = s.free := rfl
@[simp] theorem State.setFld_mem (s : State) (r : Nat) (f : Fld) (v : Nat) : (s.setFld r f v).mem = s.mem := rfl
@[simp] theorem State.setFld_wordErr (s : State) (r : Nat) (f : Fld) (v : Nat) : (s.setFld r f v).wordErr = s.wordErr := rfl
@[simp] theorem State.setFld_tiles (s : State) (r : Nat) (f : Fld) (v : Nat) : (s.setFld r f v).tiles = s.tiles := rfl
@[simp] theorem State.setFld_slices (s : State) (r : Nat) (f : Fld) (v : Nat) : (s.setFld r f v).slices = s.slices := rfl
@[simp] theorem State.setFld_hosGroups (s : State) (r : Nat) (f : Fld) (v : Nat) : (s.setFld r f v).hosGroups = s.hosGroups := rfl
@[simp] theorem State.setFld_hosBlocks (s : State) (r : Nat) (f : Fld) (v : Nat) : (s.setFld r f v).hosBlocks = s.hosBlocks := rfl
@[simp] theorem State.setFld_hosCtrs (s : State) (r : Nat) (f : Fld) (v : Nat) : (s.setFld r f v).hosCtrs = s.hosCtrs := rfl
@[simp] theorem State.setFld_hosStore (s : State) (r : Nat) (f : Fld) (v : Nat) : (s.setFld r f v).hosStore = s.hosStore := rfl
@[simp] theorem State.setFld_hosArray (s : State) (r : Nat) (f : Fld) (v : Nat) : (s.setFld r f v).hosArray = s.hosArray := rfl
@[simp] theorem State.setFld_halves (s : State) (r : Nat) (f : Fld) (v : Nat) : (s.setFld r f v).halves = s.halves := rfl
@[simp] theorem State.setFld_uppers (s : State) (r : Nat) (f : Fld) (v : Nat) : (s.setFld r f v).uppers = s.uppers := rfl
@[simp] theorem State.setFld_mesh (s : State) (r : Nat) (f : Fld) (v : Nat) : (s.setFld r f v).mesh = s.mesh := rfl
@[simp] theorem State.setFld_porters (s : State) (r : Nat) (f : Fld) (v : Nat) : (s.setFld r f v).porters = s.porters := rfl
@[simp] theorem State.setFld_steward (s : State) (r : Nat) (f : Fld) (v : Nat) : (s.setFld r f v).steward = s.steward := rfl
@[simp] theorem State.setFld_sites (s : State) (r : Nat) (f : Fld) (v : Nat) : (s.setFld r f v).sites = s.sites := rfl
@[simp] theorem State.setFld_stops (s : State) (r : Nat) (f : Fld) (v : Nat) : (s.setFld r f v).stops = s.stops := rfl
@[simp] theorem State.setFld_ctu (s : State) (r : Nat) (f : Fld) (v : Nat) : (s.setFld r f v).ctu = s.ctu := rfl
@[simp] theorem State.setFld_couriers (s : State) (r : Nat) (f : Fld) (v : Nat) : (s.setFld r f v).couriers = s.couriers := rfl
@[simp] theorem State.setFld_ox (s : State) (r : Nat) (f : Fld) (v : Nat) : (s.setFld r f v).ox = s.ox := rfl
@[simp] theorem State.setFld_hashes (s : State) (r : Nat) (f : Fld) (v : Nat) : (s.setFld r f v).hashes = s.hashes := rfl
@[simp] theorem State.setFld_launches (s : State) (r : Nat) (f : Fld) (v : Nat) : (s.setFld r f v).launches = s.launches := rfl
@[simp] theorem State.setFld_nextLaunch (s : State) (r : Nat) (f : Fld) (v : Nat) : (s.setFld r f v).nextLaunch = s.nextLaunch := rfl
@[simp] theorem State.setFld_goOrder (s : State) (r : Nat) (f : Fld) (v : Nat) : (s.setFld r f v).goOrder = s.goOrder := rfl
@[simp] theorem State.setFld_mileMsgs (s : State) (r : Nat) (f : Fld) (v : Nat) : (s.setFld r f v).mileMsgs = s.mileMsgs := rfl
@[simp] theorem State.setFld_disp (s : State) (r : Nat) (f : Fld) (v : Nat) : (s.setFld r f v).disp = s.disp := rfl
@[simp] theorem State.setFld_clocks (s : State) (r : Nat) (f : Fld) (v : Nat) : (s.setFld r f v).clocks = s.clocks := rfl
@[simp] theorem State.setFld_lastCkpt (s : State) (r : Nat) (f : Fld) (v : Nat) : (s.setFld r f v).lastCkpt = s.lastCkpt := rfl
@[simp] theorem State.setFld_guestbook (s : State) (r : Nat) (f : Fld) (v : Nat) : (s.setFld r f v).guestbook = s.guestbook := rfl
@[simp] theorem State.setFld_pcie (s : State) (r : Nat) (f : Fld) (v : Nat) : (s.setFld r f v).pcie = s.pcie := rfl
@[simp] theorem State.setFld_power (s : State) (r : Nat) (f : Fld) (v : Nat) : (s.setFld r f v).power = s.power := rfl
@[simp] theorem State.setFld_fuses (s : State) (r : Nat) (f : Fld) (v : Nat) : (s.setFld r f v).fuses = s.fuses := rfl
@[simp] theorem State.setFld_boot (s : State) (r : Nat) (f : Fld) (v : Nat) : (s.setFld r f v).boot = s.boot := rfl
@[simp] theorem State.setFld_sbx (s : State) (r : Nat) (f : Fld) (v : Nat) : (s.setFld r f v).sbx = s.sbx := rfl
@[simp] theorem State.setFld_service (s : State) (r : Nat) (f : Fld) (v : Nat) : (s.setFld r f v).service = s.service := rfl
@[simp] theorem State.setFld_etcLatch (s : State) (r : Nat) (f : Fld) (v : Nat) : (s.setFld r f v).etcLatch = s.etcLatch := rfl
@[simp] theorem State.setFld_finding (s : State) (r : Nat) (f : Fld) (v : Nat) : (s.setFld r f v).finding = s.finding := rfl
@[simp] theorem State.setFld_stewardTx (s : State) (r : Nat) (f : Fld) (v : Nat) : (s.setFld r f v).stewardTx = s.stewardTx := rfl

/-! ### State.setFlag -/

@[simp] theorem State.setFlag_pending (s : State) (r : Nat) (f : Fld) (b : Bool) : (s.setFlag r f b).pending = s.pending := rfl
@[simp] theorem State.setFlag_free (s : State) (r : Nat) (f : Fld) (b : Bool) : (s.setFlag r f b).free = s.free := rfl
@[simp] theorem State.setFlag_mem (s : State) (r : Nat) (f : Fld) (b : Bool) : (s.setFlag r f b).mem = s.mem := rfl
@[simp] theorem State.setFlag_wordErr (s : State) (r : Nat) (f : Fld) (b : Bool) : (s.setFlag r f b).wordErr = s.wordErr := rfl
@[simp] theorem State.setFlag_tiles (s : State) (r : Nat) (f : Fld) (b : Bool) : (s.setFlag r f b).tiles = s.tiles := rfl
@[simp] theorem State.setFlag_slices (s : State) (r : Nat) (f : Fld) (b : Bool) : (s.setFlag r f b).slices = s.slices := rfl
@[simp] theorem State.setFlag_hosGroups (s : State) (r : Nat) (f : Fld) (b : Bool) : (s.setFlag r f b).hosGroups = s.hosGroups := rfl
@[simp] theorem State.setFlag_hosBlocks (s : State) (r : Nat) (f : Fld) (b : Bool) : (s.setFlag r f b).hosBlocks = s.hosBlocks := rfl
@[simp] theorem State.setFlag_hosCtrs (s : State) (r : Nat) (f : Fld) (b : Bool) : (s.setFlag r f b).hosCtrs = s.hosCtrs := rfl
@[simp] theorem State.setFlag_hosStore (s : State) (r : Nat) (f : Fld) (b : Bool) : (s.setFlag r f b).hosStore = s.hosStore := rfl
@[simp] theorem State.setFlag_hosArray (s : State) (r : Nat) (f : Fld) (b : Bool) : (s.setFlag r f b).hosArray = s.hosArray := rfl
@[simp] theorem State.setFlag_halves (s : State) (r : Nat) (f : Fld) (b : Bool) : (s.setFlag r f b).halves = s.halves := rfl
@[simp] theorem State.setFlag_uppers (s : State) (r : Nat) (f : Fld) (b : Bool) : (s.setFlag r f b).uppers = s.uppers := rfl
@[simp] theorem State.setFlag_mesh (s : State) (r : Nat) (f : Fld) (b : Bool) : (s.setFlag r f b).mesh = s.mesh := rfl
@[simp] theorem State.setFlag_porters (s : State) (r : Nat) (f : Fld) (b : Bool) : (s.setFlag r f b).porters = s.porters := rfl
@[simp] theorem State.setFlag_steward (s : State) (r : Nat) (f : Fld) (b : Bool) : (s.setFlag r f b).steward = s.steward := rfl
@[simp] theorem State.setFlag_sites (s : State) (r : Nat) (f : Fld) (b : Bool) : (s.setFlag r f b).sites = s.sites := rfl
@[simp] theorem State.setFlag_stops (s : State) (r : Nat) (f : Fld) (b : Bool) : (s.setFlag r f b).stops = s.stops := rfl
@[simp] theorem State.setFlag_ctu (s : State) (r : Nat) (f : Fld) (b : Bool) : (s.setFlag r f b).ctu = s.ctu := rfl
@[simp] theorem State.setFlag_couriers (s : State) (r : Nat) (f : Fld) (b : Bool) : (s.setFlag r f b).couriers = s.couriers := rfl
@[simp] theorem State.setFlag_ox (s : State) (r : Nat) (f : Fld) (b : Bool) : (s.setFlag r f b).ox = s.ox := rfl
@[simp] theorem State.setFlag_hashes (s : State) (r : Nat) (f : Fld) (b : Bool) : (s.setFlag r f b).hashes = s.hashes := rfl
@[simp] theorem State.setFlag_launches (s : State) (r : Nat) (f : Fld) (b : Bool) : (s.setFlag r f b).launches = s.launches := rfl
@[simp] theorem State.setFlag_nextLaunch (s : State) (r : Nat) (f : Fld) (b : Bool) : (s.setFlag r f b).nextLaunch = s.nextLaunch := rfl
@[simp] theorem State.setFlag_goOrder (s : State) (r : Nat) (f : Fld) (b : Bool) : (s.setFlag r f b).goOrder = s.goOrder := rfl
@[simp] theorem State.setFlag_mileMsgs (s : State) (r : Nat) (f : Fld) (b : Bool) : (s.setFlag r f b).mileMsgs = s.mileMsgs := rfl
@[simp] theorem State.setFlag_disp (s : State) (r : Nat) (f : Fld) (b : Bool) : (s.setFlag r f b).disp = s.disp := rfl
@[simp] theorem State.setFlag_clocks (s : State) (r : Nat) (f : Fld) (b : Bool) : (s.setFlag r f b).clocks = s.clocks := rfl
@[simp] theorem State.setFlag_lastCkpt (s : State) (r : Nat) (f : Fld) (b : Bool) : (s.setFlag r f b).lastCkpt = s.lastCkpt := rfl
@[simp] theorem State.setFlag_guestbook (s : State) (r : Nat) (f : Fld) (b : Bool) : (s.setFlag r f b).guestbook = s.guestbook := rfl
@[simp] theorem State.setFlag_pcie (s : State) (r : Nat) (f : Fld) (b : Bool) : (s.setFlag r f b).pcie = s.pcie := rfl
@[simp] theorem State.setFlag_power (s : State) (r : Nat) (f : Fld) (b : Bool) : (s.setFlag r f b).power = s.power := rfl
@[simp] theorem State.setFlag_fuses (s : State) (r : Nat) (f : Fld) (b : Bool) : (s.setFlag r f b).fuses = s.fuses := rfl
@[simp] theorem State.setFlag_boot (s : State) (r : Nat) (f : Fld) (b : Bool) : (s.setFlag r f b).boot = s.boot := rfl
@[simp] theorem State.setFlag_sbx (s : State) (r : Nat) (f : Fld) (b : Bool) : (s.setFlag r f b).sbx = s.sbx := rfl
@[simp] theorem State.setFlag_service (s : State) (r : Nat) (f : Fld) (b : Bool) : (s.setFlag r f b).service = s.service := rfl
@[simp] theorem State.setFlag_etcLatch (s : State) (r : Nat) (f : Fld) (b : Bool) : (s.setFlag r f b).etcLatch = s.etcLatch := rfl
@[simp] theorem State.setFlag_finding (s : State) (r : Nat) (f : Fld) (b : Bool) : (s.setFlag r f b).finding = s.finding := rfl
@[simp] theorem State.setFlag_stewardTx (s : State) (r : Nat) (f : Fld) (b : Bool) : (s.setFlag r f b).stewardTx = s.stewardTx := rfl

/-! ### State.bump -/

@[simp] theorem State.bump_pending (s : State) (r k : Nat) : (s.bump r k).pending = s.pending := rfl
@[simp] theorem State.bump_free (s : State) (r k : Nat) : (s.bump r k).free = s.free := rfl
@[simp] theorem State.bump_mem (s : State) (r k : Nat) : (s.bump r k).mem = s.mem := rfl
@[simp] theorem State.bump_wordErr (s : State) (r k : Nat) : (s.bump r k).wordErr = s.wordErr := rfl
@[simp] theorem State.bump_tiles (s : State) (r k : Nat) : (s.bump r k).tiles = s.tiles := rfl
@[simp] theorem State.bump_slices (s : State) (r k : Nat) : (s.bump r k).slices = s.slices := rfl
@[simp] theorem State.bump_hosGroups (s : State) (r k : Nat) : (s.bump r k).hosGroups = s.hosGroups := rfl
@[simp] theorem State.bump_hosBlocks (s : State) (r k : Nat) : (s.bump r k).hosBlocks = s.hosBlocks := rfl
@[simp] theorem State.bump_hosCtrs (s : State) (r k : Nat) : (s.bump r k).hosCtrs = s.hosCtrs := rfl
@[simp] theorem State.bump_hosStore (s : State) (r k : Nat) : (s.bump r k).hosStore = s.hosStore := rfl
@[simp] theorem State.bump_hosArray (s : State) (r k : Nat) : (s.bump r k).hosArray = s.hosArray := rfl
@[simp] theorem State.bump_halves (s : State) (r k : Nat) : (s.bump r k).halves = s.halves := rfl
@[simp] theorem State.bump_uppers (s : State) (r k : Nat) : (s.bump r k).uppers = s.uppers := rfl
@[simp] theorem State.bump_mesh (s : State) (r k : Nat) : (s.bump r k).mesh = s.mesh := rfl
@[simp] theorem State.bump_porters (s : State) (r k : Nat) : (s.bump r k).porters = s.porters := rfl
@[simp] theorem State.bump_steward (s : State) (r k : Nat) : (s.bump r k).steward = s.steward := rfl
@[simp] theorem State.bump_sites (s : State) (r k : Nat) : (s.bump r k).sites = s.sites := rfl
@[simp] theorem State.bump_stops (s : State) (r k : Nat) : (s.bump r k).stops = s.stops := rfl
@[simp] theorem State.bump_ctu (s : State) (r k : Nat) : (s.bump r k).ctu = s.ctu := rfl
@[simp] theorem State.bump_couriers (s : State) (r k : Nat) : (s.bump r k).couriers = s.couriers := rfl
@[simp] theorem State.bump_ox (s : State) (r k : Nat) : (s.bump r k).ox = s.ox := rfl
@[simp] theorem State.bump_hashes (s : State) (r k : Nat) : (s.bump r k).hashes = s.hashes := rfl
@[simp] theorem State.bump_launches (s : State) (r k : Nat) : (s.bump r k).launches = s.launches := rfl
@[simp] theorem State.bump_nextLaunch (s : State) (r k : Nat) : (s.bump r k).nextLaunch = s.nextLaunch := rfl
@[simp] theorem State.bump_goOrder (s : State) (r k : Nat) : (s.bump r k).goOrder = s.goOrder := rfl
@[simp] theorem State.bump_mileMsgs (s : State) (r k : Nat) : (s.bump r k).mileMsgs = s.mileMsgs := rfl
@[simp] theorem State.bump_disp (s : State) (r k : Nat) : (s.bump r k).disp = s.disp := rfl
@[simp] theorem State.bump_clocks (s : State) (r k : Nat) : (s.bump r k).clocks = s.clocks := rfl
@[simp] theorem State.bump_lastCkpt (s : State) (r k : Nat) : (s.bump r k).lastCkpt = s.lastCkpt := rfl
@[simp] theorem State.bump_guestbook (s : State) (r k : Nat) : (s.bump r k).guestbook = s.guestbook := rfl
@[simp] theorem State.bump_pcie (s : State) (r k : Nat) : (s.bump r k).pcie = s.pcie := rfl
@[simp] theorem State.bump_power (s : State) (r k : Nat) : (s.bump r k).power = s.power := rfl
@[simp] theorem State.bump_fuses (s : State) (r k : Nat) : (s.bump r k).fuses = s.fuses := rfl
@[simp] theorem State.bump_boot (s : State) (r k : Nat) : (s.bump r k).boot = s.boot := rfl
@[simp] theorem State.bump_sbx (s : State) (r k : Nat) : (s.bump r k).sbx = s.sbx := rfl
@[simp] theorem State.bump_service (s : State) (r k : Nat) : (s.bump r k).service = s.service := rfl
@[simp] theorem State.bump_etcLatch (s : State) (r k : Nat) : (s.bump r k).etcLatch = s.etcLatch := rfl
@[simp] theorem State.bump_finding (s : State) (r k : Nat) : (s.bump r k).finding = s.finding := rfl
@[simp] theorem State.bump_stewardTx (s : State) (r k : Nat) : (s.bump r k).stewardTx = s.stewardTx := rfl

/-! ### State.satFld -/

@[simp] theorem State.satFld_pending (s : State) (r : Nat) (f : Fld) (k : Nat) : (s.satFld r f k).pending = s.pending := rfl
@[simp] theorem State.satFld_free (s : State) (r : Nat) (f : Fld) (k : Nat) : (s.satFld r f k).free = s.free := rfl
@[simp] theorem State.satFld_mem (s : State) (r : Nat) (f : Fld) (k : Nat) : (s.satFld r f k).mem = s.mem := rfl
@[simp] theorem State.satFld_wordErr (s : State) (r : Nat) (f : Fld) (k : Nat) : (s.satFld r f k).wordErr = s.wordErr := rfl
@[simp] theorem State.satFld_tiles (s : State) (r : Nat) (f : Fld) (k : Nat) : (s.satFld r f k).tiles = s.tiles := rfl
@[simp] theorem State.satFld_slices (s : State) (r : Nat) (f : Fld) (k : Nat) : (s.satFld r f k).slices = s.slices := rfl
@[simp] theorem State.satFld_hosGroups (s : State) (r : Nat) (f : Fld) (k : Nat) : (s.satFld r f k).hosGroups = s.hosGroups := rfl
@[simp] theorem State.satFld_hosBlocks (s : State) (r : Nat) (f : Fld) (k : Nat) : (s.satFld r f k).hosBlocks = s.hosBlocks := rfl
@[simp] theorem State.satFld_hosCtrs (s : State) (r : Nat) (f : Fld) (k : Nat) : (s.satFld r f k).hosCtrs = s.hosCtrs := rfl
@[simp] theorem State.satFld_hosStore (s : State) (r : Nat) (f : Fld) (k : Nat) : (s.satFld r f k).hosStore = s.hosStore := rfl
@[simp] theorem State.satFld_hosArray (s : State) (r : Nat) (f : Fld) (k : Nat) : (s.satFld r f k).hosArray = s.hosArray := rfl
@[simp] theorem State.satFld_halves (s : State) (r : Nat) (f : Fld) (k : Nat) : (s.satFld r f k).halves = s.halves := rfl
@[simp] theorem State.satFld_uppers (s : State) (r : Nat) (f : Fld) (k : Nat) : (s.satFld r f k).uppers = s.uppers := rfl
@[simp] theorem State.satFld_mesh (s : State) (r : Nat) (f : Fld) (k : Nat) : (s.satFld r f k).mesh = s.mesh := rfl
@[simp] theorem State.satFld_porters (s : State) (r : Nat) (f : Fld) (k : Nat) : (s.satFld r f k).porters = s.porters := rfl
@[simp] theorem State.satFld_steward (s : State) (r : Nat) (f : Fld) (k : Nat) : (s.satFld r f k).steward = s.steward := rfl
@[simp] theorem State.satFld_sites (s : State) (r : Nat) (f : Fld) (k : Nat) : (s.satFld r f k).sites = s.sites := rfl
@[simp] theorem State.satFld_stops (s : State) (r : Nat) (f : Fld) (k : Nat) : (s.satFld r f k).stops = s.stops := rfl
@[simp] theorem State.satFld_ctu (s : State) (r : Nat) (f : Fld) (k : Nat) : (s.satFld r f k).ctu = s.ctu := rfl
@[simp] theorem State.satFld_couriers (s : State) (r : Nat) (f : Fld) (k : Nat) : (s.satFld r f k).couriers = s.couriers := rfl
@[simp] theorem State.satFld_ox (s : State) (r : Nat) (f : Fld) (k : Nat) : (s.satFld r f k).ox = s.ox := rfl
@[simp] theorem State.satFld_hashes (s : State) (r : Nat) (f : Fld) (k : Nat) : (s.satFld r f k).hashes = s.hashes := rfl
@[simp] theorem State.satFld_launches (s : State) (r : Nat) (f : Fld) (k : Nat) : (s.satFld r f k).launches = s.launches := rfl
@[simp] theorem State.satFld_nextLaunch (s : State) (r : Nat) (f : Fld) (k : Nat) : (s.satFld r f k).nextLaunch = s.nextLaunch := rfl
@[simp] theorem State.satFld_goOrder (s : State) (r : Nat) (f : Fld) (k : Nat) : (s.satFld r f k).goOrder = s.goOrder := rfl
@[simp] theorem State.satFld_mileMsgs (s : State) (r : Nat) (f : Fld) (k : Nat) : (s.satFld r f k).mileMsgs = s.mileMsgs := rfl
@[simp] theorem State.satFld_disp (s : State) (r : Nat) (f : Fld) (k : Nat) : (s.satFld r f k).disp = s.disp := rfl
@[simp] theorem State.satFld_clocks (s : State) (r : Nat) (f : Fld) (k : Nat) : (s.satFld r f k).clocks = s.clocks := rfl
@[simp] theorem State.satFld_lastCkpt (s : State) (r : Nat) (f : Fld) (k : Nat) : (s.satFld r f k).lastCkpt = s.lastCkpt := rfl
@[simp] theorem State.satFld_guestbook (s : State) (r : Nat) (f : Fld) (k : Nat) : (s.satFld r f k).guestbook = s.guestbook := rfl
@[simp] theorem State.satFld_pcie (s : State) (r : Nat) (f : Fld) (k : Nat) : (s.satFld r f k).pcie = s.pcie := rfl
@[simp] theorem State.satFld_power (s : State) (r : Nat) (f : Fld) (k : Nat) : (s.satFld r f k).power = s.power := rfl
@[simp] theorem State.satFld_fuses (s : State) (r : Nat) (f : Fld) (k : Nat) : (s.satFld r f k).fuses = s.fuses := rfl
@[simp] theorem State.satFld_boot (s : State) (r : Nat) (f : Fld) (k : Nat) : (s.satFld r f k).boot = s.boot := rfl
@[simp] theorem State.satFld_sbx (s : State) (r : Nat) (f : Fld) (k : Nat) : (s.satFld r f k).sbx = s.sbx := rfl
@[simp] theorem State.satFld_service (s : State) (r : Nat) (f : Fld) (k : Nat) : (s.satFld r f k).service = s.service := rfl
@[simp] theorem State.satFld_etcLatch (s : State) (r : Nat) (f : Fld) (k : Nat) : (s.satFld r f k).etcLatch = s.etcLatch := rfl
@[simp] theorem State.satFld_finding (s : State) (r : Nat) (f : Fld) (k : Nat) : (s.satFld r f k).finding = s.finding := rfl
@[simp] theorem State.satFld_stewardTx (s : State) (r : Nat) (f : Fld) (k : Nat) : (s.satFld r f k).stewardTx = s.stewardTx := rfl

/-! ### State.putBytes -/

@[simp] theorem State.putBytes_pending (s : State) (a : Nat) (l : List Byte) : (s.putBytes a l).pending = s.pending := rfl
@[simp] theorem State.putBytes_free (s : State) (a : Nat) (l : List Byte) : (s.putBytes a l).free = s.free := rfl
@[simp] theorem State.putBytes_regs (s : State) (a : Nat) (l : List Byte) : (s.putBytes a l).regs = s.regs := rfl
@[simp] theorem State.putBytes_wordErr (s : State) (a : Nat) (l : List Byte) : (s.putBytes a l).wordErr = s.wordErr := rfl
@[simp] theorem State.putBytes_tiles (s : State) (a : Nat) (l : List Byte) : (s.putBytes a l).tiles = s.tiles := rfl
@[simp] theorem State.putBytes_slices (s : State) (a : Nat) (l : List Byte) : (s.putBytes a l).slices = s.slices := rfl
@[simp] theorem State.putBytes_hosGroups (s : State) (a : Nat) (l : List Byte) : (s.putBytes a l).hosGroups = s.hosGroups := rfl
@[simp] theorem State.putBytes_hosBlocks (s : State) (a : Nat) (l : List Byte) : (s.putBytes a l).hosBlocks = s.hosBlocks := rfl
@[simp] theorem State.putBytes_hosCtrs (s : State) (a : Nat) (l : List Byte) : (s.putBytes a l).hosCtrs = s.hosCtrs := rfl
@[simp] theorem State.putBytes_hosStore (s : State) (a : Nat) (l : List Byte) : (s.putBytes a l).hosStore = s.hosStore := rfl
@[simp] theorem State.putBytes_hosArray (s : State) (a : Nat) (l : List Byte) : (s.putBytes a l).hosArray = s.hosArray := rfl
@[simp] theorem State.putBytes_halves (s : State) (a : Nat) (l : List Byte) : (s.putBytes a l).halves = s.halves := rfl
@[simp] theorem State.putBytes_uppers (s : State) (a : Nat) (l : List Byte) : (s.putBytes a l).uppers = s.uppers := rfl
@[simp] theorem State.putBytes_mesh (s : State) (a : Nat) (l : List Byte) : (s.putBytes a l).mesh = s.mesh := rfl
@[simp] theorem State.putBytes_porters (s : State) (a : Nat) (l : List Byte) : (s.putBytes a l).porters = s.porters := rfl
@[simp] theorem State.putBytes_steward (s : State) (a : Nat) (l : List Byte) : (s.putBytes a l).steward = s.steward := rfl
@[simp] theorem State.putBytes_sites (s : State) (a : Nat) (l : List Byte) : (s.putBytes a l).sites = s.sites := rfl
@[simp] theorem State.putBytes_stops (s : State) (a : Nat) (l : List Byte) : (s.putBytes a l).stops = s.stops := rfl
@[simp] theorem State.putBytes_ctu (s : State) (a : Nat) (l : List Byte) : (s.putBytes a l).ctu = s.ctu := rfl
@[simp] theorem State.putBytes_couriers (s : State) (a : Nat) (l : List Byte) : (s.putBytes a l).couriers = s.couriers := rfl
@[simp] theorem State.putBytes_ox (s : State) (a : Nat) (l : List Byte) : (s.putBytes a l).ox = s.ox := rfl
@[simp] theorem State.putBytes_hashes (s : State) (a : Nat) (l : List Byte) : (s.putBytes a l).hashes = s.hashes := rfl
@[simp] theorem State.putBytes_launches (s : State) (a : Nat) (l : List Byte) : (s.putBytes a l).launches = s.launches := rfl
@[simp] theorem State.putBytes_nextLaunch (s : State) (a : Nat) (l : List Byte) : (s.putBytes a l).nextLaunch = s.nextLaunch := rfl
@[simp] theorem State.putBytes_goOrder (s : State) (a : Nat) (l : List Byte) : (s.putBytes a l).goOrder = s.goOrder := rfl
@[simp] theorem State.putBytes_mileMsgs (s : State) (a : Nat) (l : List Byte) : (s.putBytes a l).mileMsgs = s.mileMsgs := rfl
@[simp] theorem State.putBytes_disp (s : State) (a : Nat) (l : List Byte) : (s.putBytes a l).disp = s.disp := rfl
@[simp] theorem State.putBytes_clocks (s : State) (a : Nat) (l : List Byte) : (s.putBytes a l).clocks = s.clocks := rfl
@[simp] theorem State.putBytes_lastCkpt (s : State) (a : Nat) (l : List Byte) : (s.putBytes a l).lastCkpt = s.lastCkpt := rfl
@[simp] theorem State.putBytes_guestbook (s : State) (a : Nat) (l : List Byte) : (s.putBytes a l).guestbook = s.guestbook := rfl
@[simp] theorem State.putBytes_pcie (s : State) (a : Nat) (l : List Byte) : (s.putBytes a l).pcie = s.pcie := rfl
@[simp] theorem State.putBytes_power (s : State) (a : Nat) (l : List Byte) : (s.putBytes a l).power = s.power := rfl
@[simp] theorem State.putBytes_fuses (s : State) (a : Nat) (l : List Byte) : (s.putBytes a l).fuses = s.fuses := rfl
@[simp] theorem State.putBytes_boot (s : State) (a : Nat) (l : List Byte) : (s.putBytes a l).boot = s.boot := rfl
@[simp] theorem State.putBytes_sbx (s : State) (a : Nat) (l : List Byte) : (s.putBytes a l).sbx = s.sbx := rfl
@[simp] theorem State.putBytes_service (s : State) (a : Nat) (l : List Byte) : (s.putBytes a l).service = s.service := rfl
@[simp] theorem State.putBytes_etcLatch (s : State) (a : Nat) (l : List Byte) : (s.putBytes a l).etcLatch = s.etcLatch := rfl
@[simp] theorem State.putBytes_finding (s : State) (a : Nat) (l : List Byte) : (s.putBytes a l).finding = s.finding := rfl
@[simp] theorem State.putBytes_stewardTx (s : State) (a : Nat) (l : List Byte) : (s.putBytes a l).stewardTx = s.stewardTx := rfl

/-! ### State.clearBytes -/

@[simp] theorem State.clearBytes_pending (s : State) (a n : Nat) : (s.clearBytes a n).pending = s.pending := rfl
@[simp] theorem State.clearBytes_free (s : State) (a n : Nat) : (s.clearBytes a n).free = s.free := rfl
@[simp] theorem State.clearBytes_regs (s : State) (a n : Nat) : (s.clearBytes a n).regs = s.regs := rfl
@[simp] theorem State.clearBytes_wordErr (s : State) (a n : Nat) : (s.clearBytes a n).wordErr = s.wordErr := rfl
@[simp] theorem State.clearBytes_tiles (s : State) (a n : Nat) : (s.clearBytes a n).tiles = s.tiles := rfl
@[simp] theorem State.clearBytes_slices (s : State) (a n : Nat) : (s.clearBytes a n).slices = s.slices := rfl
@[simp] theorem State.clearBytes_hosGroups (s : State) (a n : Nat) : (s.clearBytes a n).hosGroups = s.hosGroups := rfl
@[simp] theorem State.clearBytes_hosBlocks (s : State) (a n : Nat) : (s.clearBytes a n).hosBlocks = s.hosBlocks := rfl
@[simp] theorem State.clearBytes_hosCtrs (s : State) (a n : Nat) : (s.clearBytes a n).hosCtrs = s.hosCtrs := rfl
@[simp] theorem State.clearBytes_hosStore (s : State) (a n : Nat) : (s.clearBytes a n).hosStore = s.hosStore := rfl
@[simp] theorem State.clearBytes_hosArray (s : State) (a n : Nat) : (s.clearBytes a n).hosArray = s.hosArray := rfl
@[simp] theorem State.clearBytes_halves (s : State) (a n : Nat) : (s.clearBytes a n).halves = s.halves := rfl
@[simp] theorem State.clearBytes_uppers (s : State) (a n : Nat) : (s.clearBytes a n).uppers = s.uppers := rfl
@[simp] theorem State.clearBytes_mesh (s : State) (a n : Nat) : (s.clearBytes a n).mesh = s.mesh := rfl
@[simp] theorem State.clearBytes_porters (s : State) (a n : Nat) : (s.clearBytes a n).porters = s.porters := rfl
@[simp] theorem State.clearBytes_steward (s : State) (a n : Nat) : (s.clearBytes a n).steward = s.steward := rfl
@[simp] theorem State.clearBytes_sites (s : State) (a n : Nat) : (s.clearBytes a n).sites = s.sites := rfl
@[simp] theorem State.clearBytes_stops (s : State) (a n : Nat) : (s.clearBytes a n).stops = s.stops := rfl
@[simp] theorem State.clearBytes_ctu (s : State) (a n : Nat) : (s.clearBytes a n).ctu = s.ctu := rfl
@[simp] theorem State.clearBytes_couriers (s : State) (a n : Nat) : (s.clearBytes a n).couriers = s.couriers := rfl
@[simp] theorem State.clearBytes_ox (s : State) (a n : Nat) : (s.clearBytes a n).ox = s.ox := rfl
@[simp] theorem State.clearBytes_hashes (s : State) (a n : Nat) : (s.clearBytes a n).hashes = s.hashes := rfl
@[simp] theorem State.clearBytes_launches (s : State) (a n : Nat) : (s.clearBytes a n).launches = s.launches := rfl
@[simp] theorem State.clearBytes_nextLaunch (s : State) (a n : Nat) : (s.clearBytes a n).nextLaunch = s.nextLaunch := rfl
@[simp] theorem State.clearBytes_goOrder (s : State) (a n : Nat) : (s.clearBytes a n).goOrder = s.goOrder := rfl
@[simp] theorem State.clearBytes_mileMsgs (s : State) (a n : Nat) : (s.clearBytes a n).mileMsgs = s.mileMsgs := rfl
@[simp] theorem State.clearBytes_disp (s : State) (a n : Nat) : (s.clearBytes a n).disp = s.disp := rfl
@[simp] theorem State.clearBytes_clocks (s : State) (a n : Nat) : (s.clearBytes a n).clocks = s.clocks := rfl
@[simp] theorem State.clearBytes_lastCkpt (s : State) (a n : Nat) : (s.clearBytes a n).lastCkpt = s.lastCkpt := rfl
@[simp] theorem State.clearBytes_guestbook (s : State) (a n : Nat) : (s.clearBytes a n).guestbook = s.guestbook := rfl
@[simp] theorem State.clearBytes_pcie (s : State) (a n : Nat) : (s.clearBytes a n).pcie = s.pcie := rfl
@[simp] theorem State.clearBytes_power (s : State) (a n : Nat) : (s.clearBytes a n).power = s.power := rfl
@[simp] theorem State.clearBytes_fuses (s : State) (a n : Nat) : (s.clearBytes a n).fuses = s.fuses := rfl
@[simp] theorem State.clearBytes_boot (s : State) (a n : Nat) : (s.clearBytes a n).boot = s.boot := rfl
@[simp] theorem State.clearBytes_sbx (s : State) (a n : Nat) : (s.clearBytes a n).sbx = s.sbx := rfl
@[simp] theorem State.clearBytes_service (s : State) (a n : Nat) : (s.clearBytes a n).service = s.service := rfl
@[simp] theorem State.clearBytes_etcLatch (s : State) (a n : Nat) : (s.clearBytes a n).etcLatch = s.etcLatch := rfl
@[simp] theorem State.clearBytes_finding (s : State) (a n : Nat) : (s.clearBytes a n).finding = s.finding := rfl
@[simp] theorem State.clearBytes_stewardTx (s : State) (a n : Nat) : (s.clearBytes a n).stewardTx = s.stewardTx := rfl

/-! ### State.setTile -/

@[simp] theorem State.setTile_pending (s : State) (t : Nat) (v : Tile) : (s.setTile t v).pending = s.pending := rfl
@[simp] theorem State.setTile_free (s : State) (t : Nat) (v : Tile) : (s.setTile t v).free = s.free := rfl
@[simp] theorem State.setTile_regs (s : State) (t : Nat) (v : Tile) : (s.setTile t v).regs = s.regs := rfl
@[simp] theorem State.setTile_mem (s : State) (t : Nat) (v : Tile) : (s.setTile t v).mem = s.mem := rfl
@[simp] theorem State.setTile_wordErr (s : State) (t : Nat) (v : Tile) : (s.setTile t v).wordErr = s.wordErr := rfl
@[simp] theorem State.setTile_slices (s : State) (t : Nat) (v : Tile) : (s.setTile t v).slices = s.slices := rfl
@[simp] theorem State.setTile_hosGroups (s : State) (t : Nat) (v : Tile) : (s.setTile t v).hosGroups = s.hosGroups := rfl
@[simp] theorem State.setTile_hosBlocks (s : State) (t : Nat) (v : Tile) : (s.setTile t v).hosBlocks = s.hosBlocks := rfl
@[simp] theorem State.setTile_hosCtrs (s : State) (t : Nat) (v : Tile) : (s.setTile t v).hosCtrs = s.hosCtrs := rfl
@[simp] theorem State.setTile_hosStore (s : State) (t : Nat) (v : Tile) : (s.setTile t v).hosStore = s.hosStore := rfl
@[simp] theorem State.setTile_hosArray (s : State) (t : Nat) (v : Tile) : (s.setTile t v).hosArray = s.hosArray := rfl
@[simp] theorem State.setTile_halves (s : State) (t : Nat) (v : Tile) : (s.setTile t v).halves = s.halves := rfl
@[simp] theorem State.setTile_uppers (s : State) (t : Nat) (v : Tile) : (s.setTile t v).uppers = s.uppers := rfl
@[simp] theorem State.setTile_mesh (s : State) (t : Nat) (v : Tile) : (s.setTile t v).mesh = s.mesh := rfl
@[simp] theorem State.setTile_porters (s : State) (t : Nat) (v : Tile) : (s.setTile t v).porters = s.porters := rfl
@[simp] theorem State.setTile_steward (s : State) (t : Nat) (v : Tile) : (s.setTile t v).steward = s.steward := rfl
@[simp] theorem State.setTile_sites (s : State) (t : Nat) (v : Tile) : (s.setTile t v).sites = s.sites := rfl
@[simp] theorem State.setTile_stops (s : State) (t : Nat) (v : Tile) : (s.setTile t v).stops = s.stops := rfl
@[simp] theorem State.setTile_ctu (s : State) (t : Nat) (v : Tile) : (s.setTile t v).ctu = s.ctu := rfl
@[simp] theorem State.setTile_couriers (s : State) (t : Nat) (v : Tile) : (s.setTile t v).couriers = s.couriers := rfl
@[simp] theorem State.setTile_ox (s : State) (t : Nat) (v : Tile) : (s.setTile t v).ox = s.ox := rfl
@[simp] theorem State.setTile_hashes (s : State) (t : Nat) (v : Tile) : (s.setTile t v).hashes = s.hashes := rfl
@[simp] theorem State.setTile_launches (s : State) (t : Nat) (v : Tile) : (s.setTile t v).launches = s.launches := rfl
@[simp] theorem State.setTile_nextLaunch (s : State) (t : Nat) (v : Tile) : (s.setTile t v).nextLaunch = s.nextLaunch := rfl
@[simp] theorem State.setTile_goOrder (s : State) (t : Nat) (v : Tile) : (s.setTile t v).goOrder = s.goOrder := rfl
@[simp] theorem State.setTile_mileMsgs (s : State) (t : Nat) (v : Tile) : (s.setTile t v).mileMsgs = s.mileMsgs := rfl
@[simp] theorem State.setTile_disp (s : State) (t : Nat) (v : Tile) : (s.setTile t v).disp = s.disp := rfl
@[simp] theorem State.setTile_clocks (s : State) (t : Nat) (v : Tile) : (s.setTile t v).clocks = s.clocks := rfl
@[simp] theorem State.setTile_lastCkpt (s : State) (t : Nat) (v : Tile) : (s.setTile t v).lastCkpt = s.lastCkpt := rfl
@[simp] theorem State.setTile_guestbook (s : State) (t : Nat) (v : Tile) : (s.setTile t v).guestbook = s.guestbook := rfl
@[simp] theorem State.setTile_pcie (s : State) (t : Nat) (v : Tile) : (s.setTile t v).pcie = s.pcie := rfl
@[simp] theorem State.setTile_power (s : State) (t : Nat) (v : Tile) : (s.setTile t v).power = s.power := rfl
@[simp] theorem State.setTile_fuses (s : State) (t : Nat) (v : Tile) : (s.setTile t v).fuses = s.fuses := rfl
@[simp] theorem State.setTile_boot (s : State) (t : Nat) (v : Tile) : (s.setTile t v).boot = s.boot := rfl
@[simp] theorem State.setTile_sbx (s : State) (t : Nat) (v : Tile) : (s.setTile t v).sbx = s.sbx := rfl
@[simp] theorem State.setTile_service (s : State) (t : Nat) (v : Tile) : (s.setTile t v).service = s.service := rfl
@[simp] theorem State.setTile_etcLatch (s : State) (t : Nat) (v : Tile) : (s.setTile t v).etcLatch = s.etcLatch := rfl
@[simp] theorem State.setTile_finding (s : State) (t : Nat) (v : Tile) : (s.setTile t v).finding = s.finding := rfl
@[simp] theorem State.setTile_stewardTx (s : State) (t : Nat) (v : Tile) : (s.setTile t v).stewardTx = s.stewardTx := rfl

/-! ### State.setSlice -/

@[simp] theorem State.setSlice_pending (s : State) (i : Nat) (v : Slice) : (s.setSlice i v).pending = s.pending := rfl
@[simp] theorem State.setSlice_free (s : State) (i : Nat) (v : Slice) : (s.setSlice i v).free = s.free := rfl
@[simp] theorem State.setSlice_regs (s : State) (i : Nat) (v : Slice) : (s.setSlice i v).regs = s.regs := rfl
@[simp] theorem State.setSlice_mem (s : State) (i : Nat) (v : Slice) : (s.setSlice i v).mem = s.mem := rfl
@[simp] theorem State.setSlice_wordErr (s : State) (i : Nat) (v : Slice) : (s.setSlice i v).wordErr = s.wordErr := rfl
@[simp] theorem State.setSlice_tiles (s : State) (i : Nat) (v : Slice) : (s.setSlice i v).tiles = s.tiles := rfl
@[simp] theorem State.setSlice_hosGroups (s : State) (i : Nat) (v : Slice) : (s.setSlice i v).hosGroups = s.hosGroups := rfl
@[simp] theorem State.setSlice_hosBlocks (s : State) (i : Nat) (v : Slice) : (s.setSlice i v).hosBlocks = s.hosBlocks := rfl
@[simp] theorem State.setSlice_hosCtrs (s : State) (i : Nat) (v : Slice) : (s.setSlice i v).hosCtrs = s.hosCtrs := rfl
@[simp] theorem State.setSlice_hosStore (s : State) (i : Nat) (v : Slice) : (s.setSlice i v).hosStore = s.hosStore := rfl
@[simp] theorem State.setSlice_hosArray (s : State) (i : Nat) (v : Slice) : (s.setSlice i v).hosArray = s.hosArray := rfl
@[simp] theorem State.setSlice_halves (s : State) (i : Nat) (v : Slice) : (s.setSlice i v).halves = s.halves := rfl
@[simp] theorem State.setSlice_uppers (s : State) (i : Nat) (v : Slice) : (s.setSlice i v).uppers = s.uppers := rfl
@[simp] theorem State.setSlice_mesh (s : State) (i : Nat) (v : Slice) : (s.setSlice i v).mesh = s.mesh := rfl
@[simp] theorem State.setSlice_porters (s : State) (i : Nat) (v : Slice) : (s.setSlice i v).porters = s.porters := rfl
@[simp] theorem State.setSlice_steward (s : State) (i : Nat) (v : Slice) : (s.setSlice i v).steward = s.steward := rfl
@[simp] theorem State.setSlice_sites (s : State) (i : Nat) (v : Slice) : (s.setSlice i v).sites = s.sites := rfl
@[simp] theorem State.setSlice_stops (s : State) (i : Nat) (v : Slice) : (s.setSlice i v).stops = s.stops := rfl
@[simp] theorem State.setSlice_ctu (s : State) (i : Nat) (v : Slice) : (s.setSlice i v).ctu = s.ctu := rfl
@[simp] theorem State.setSlice_couriers (s : State) (i : Nat) (v : Slice) : (s.setSlice i v).couriers = s.couriers := rfl
@[simp] theorem State.setSlice_ox (s : State) (i : Nat) (v : Slice) : (s.setSlice i v).ox = s.ox := rfl
@[simp] theorem State.setSlice_hashes (s : State) (i : Nat) (v : Slice) : (s.setSlice i v).hashes = s.hashes := rfl
@[simp] theorem State.setSlice_launches (s : State) (i : Nat) (v : Slice) : (s.setSlice i v).launches = s.launches := rfl
@[simp] theorem State.setSlice_nextLaunch (s : State) (i : Nat) (v : Slice) : (s.setSlice i v).nextLaunch = s.nextLaunch := rfl
@[simp] theorem State.setSlice_goOrder (s : State) (i : Nat) (v : Slice) : (s.setSlice i v).goOrder = s.goOrder := rfl
@[simp] theorem State.setSlice_mileMsgs (s : State) (i : Nat) (v : Slice) : (s.setSlice i v).mileMsgs = s.mileMsgs := rfl
@[simp] theorem State.setSlice_disp (s : State) (i : Nat) (v : Slice) : (s.setSlice i v).disp = s.disp := rfl
@[simp] theorem State.setSlice_clocks (s : State) (i : Nat) (v : Slice) : (s.setSlice i v).clocks = s.clocks := rfl
@[simp] theorem State.setSlice_lastCkpt (s : State) (i : Nat) (v : Slice) : (s.setSlice i v).lastCkpt = s.lastCkpt := rfl
@[simp] theorem State.setSlice_guestbook (s : State) (i : Nat) (v : Slice) : (s.setSlice i v).guestbook = s.guestbook := rfl
@[simp] theorem State.setSlice_pcie (s : State) (i : Nat) (v : Slice) : (s.setSlice i v).pcie = s.pcie := rfl
@[simp] theorem State.setSlice_power (s : State) (i : Nat) (v : Slice) : (s.setSlice i v).power = s.power := rfl
@[simp] theorem State.setSlice_fuses (s : State) (i : Nat) (v : Slice) : (s.setSlice i v).fuses = s.fuses := rfl
@[simp] theorem State.setSlice_boot (s : State) (i : Nat) (v : Slice) : (s.setSlice i v).boot = s.boot := rfl
@[simp] theorem State.setSlice_sbx (s : State) (i : Nat) (v : Slice) : (s.setSlice i v).sbx = s.sbx := rfl
@[simp] theorem State.setSlice_service (s : State) (i : Nat) (v : Slice) : (s.setSlice i v).service = s.service := rfl
@[simp] theorem State.setSlice_etcLatch (s : State) (i : Nat) (v : Slice) : (s.setSlice i v).etcLatch = s.etcLatch := rfl
@[simp] theorem State.setSlice_finding (s : State) (i : Nat) (v : Slice) : (s.setSlice i v).finding = s.finding := rfl
@[simp] theorem State.setSlice_stewardTx (s : State) (i : Nat) (v : Slice) : (s.setSlice i v).stewardTx = s.stewardTx := rfl

/-! ### State.writeBack -/

@[simp] theorem State.writeBack_pending (s : State) (w : Nat) : (s.writeBack w).pending = s.pending := rfl
@[simp] theorem State.writeBack_free (s : State) (w : Nat) : (s.writeBack w).free = s.free := rfl
@[simp] theorem State.writeBack_regs (s : State) (w : Nat) : (s.writeBack w).regs = s.regs := rfl
@[simp] theorem State.writeBack_mem (s : State) (w : Nat) : (s.writeBack w).mem = s.mem := rfl
@[simp] theorem State.writeBack_tiles (s : State) (w : Nat) : (s.writeBack w).tiles = s.tiles := rfl
@[simp] theorem State.writeBack_slices (s : State) (w : Nat) : (s.writeBack w).slices = s.slices := rfl
@[simp] theorem State.writeBack_hosGroups (s : State) (w : Nat) : (s.writeBack w).hosGroups = s.hosGroups := rfl
@[simp] theorem State.writeBack_hosBlocks (s : State) (w : Nat) : (s.writeBack w).hosBlocks = s.hosBlocks := rfl
@[simp] theorem State.writeBack_hosCtrs (s : State) (w : Nat) : (s.writeBack w).hosCtrs = s.hosCtrs := rfl
@[simp] theorem State.writeBack_hosStore (s : State) (w : Nat) : (s.writeBack w).hosStore = s.hosStore := rfl
@[simp] theorem State.writeBack_hosArray (s : State) (w : Nat) : (s.writeBack w).hosArray = s.hosArray := rfl
@[simp] theorem State.writeBack_halves (s : State) (w : Nat) : (s.writeBack w).halves = s.halves := rfl
@[simp] theorem State.writeBack_uppers (s : State) (w : Nat) : (s.writeBack w).uppers = s.uppers := rfl
@[simp] theorem State.writeBack_mesh (s : State) (w : Nat) : (s.writeBack w).mesh = s.mesh := rfl
@[simp] theorem State.writeBack_porters (s : State) (w : Nat) : (s.writeBack w).porters = s.porters := rfl
@[simp] theorem State.writeBack_steward (s : State) (w : Nat) : (s.writeBack w).steward = s.steward := rfl
@[simp] theorem State.writeBack_sites (s : State) (w : Nat) : (s.writeBack w).sites = s.sites := rfl
@[simp] theorem State.writeBack_stops (s : State) (w : Nat) : (s.writeBack w).stops = s.stops := rfl
@[simp] theorem State.writeBack_ctu (s : State) (w : Nat) : (s.writeBack w).ctu = s.ctu := rfl
@[simp] theorem State.writeBack_couriers (s : State) (w : Nat) : (s.writeBack w).couriers = s.couriers := rfl
@[simp] theorem State.writeBack_ox (s : State) (w : Nat) : (s.writeBack w).ox = s.ox := rfl
@[simp] theorem State.writeBack_hashes (s : State) (w : Nat) : (s.writeBack w).hashes = s.hashes := rfl
@[simp] theorem State.writeBack_launches (s : State) (w : Nat) : (s.writeBack w).launches = s.launches := rfl
@[simp] theorem State.writeBack_nextLaunch (s : State) (w : Nat) : (s.writeBack w).nextLaunch = s.nextLaunch := rfl
@[simp] theorem State.writeBack_goOrder (s : State) (w : Nat) : (s.writeBack w).goOrder = s.goOrder := rfl
@[simp] theorem State.writeBack_mileMsgs (s : State) (w : Nat) : (s.writeBack w).mileMsgs = s.mileMsgs := rfl
@[simp] theorem State.writeBack_disp (s : State) (w : Nat) : (s.writeBack w).disp = s.disp := rfl
@[simp] theorem State.writeBack_clocks (s : State) (w : Nat) : (s.writeBack w).clocks = s.clocks := rfl
@[simp] theorem State.writeBack_lastCkpt (s : State) (w : Nat) : (s.writeBack w).lastCkpt = s.lastCkpt := rfl
@[simp] theorem State.writeBack_guestbook (s : State) (w : Nat) : (s.writeBack w).guestbook = s.guestbook := rfl
@[simp] theorem State.writeBack_pcie (s : State) (w : Nat) : (s.writeBack w).pcie = s.pcie := rfl
@[simp] theorem State.writeBack_power (s : State) (w : Nat) : (s.writeBack w).power = s.power := rfl
@[simp] theorem State.writeBack_fuses (s : State) (w : Nat) : (s.writeBack w).fuses = s.fuses := rfl
@[simp] theorem State.writeBack_boot (s : State) (w : Nat) : (s.writeBack w).boot = s.boot := rfl
@[simp] theorem State.writeBack_sbx (s : State) (w : Nat) : (s.writeBack w).sbx = s.sbx := rfl
@[simp] theorem State.writeBack_service (s : State) (w : Nat) : (s.writeBack w).service = s.service := rfl
@[simp] theorem State.writeBack_etcLatch (s : State) (w : Nat) : (s.writeBack w).etcLatch = s.etcLatch := rfl
@[simp] theorem State.writeBack_finding (s : State) (w : Nat) : (s.writeBack w).finding = s.finding := rfl
@[simp] theorem State.writeBack_stewardTx (s : State) (w : Nat) : (s.writeBack w).stewardTx = s.stewardTx := rfl

/-! ### State.setGroup -/

@[simp] theorem State.setGroup_pending (s : State) (h g : Nat) (v : Group) : (s.setGroup h g v).pending = s.pending := rfl
@[simp] theorem State.setGroup_free (s : State) (h g : Nat) (v : Group) : (s.setGroup h g v).free = s.free := rfl
@[simp] theorem State.setGroup_regs (s : State) (h g : Nat) (v : Group) : (s.setGroup h g v).regs = s.regs := rfl
@[simp] theorem State.setGroup_mem (s : State) (h g : Nat) (v : Group) : (s.setGroup h g v).mem = s.mem := rfl
@[simp] theorem State.setGroup_wordErr (s : State) (h g : Nat) (v : Group) : (s.setGroup h g v).wordErr = s.wordErr := rfl
@[simp] theorem State.setGroup_tiles (s : State) (h g : Nat) (v : Group) : (s.setGroup h g v).tiles = s.tiles := rfl
@[simp] theorem State.setGroup_slices (s : State) (h g : Nat) (v : Group) : (s.setGroup h g v).slices = s.slices := rfl
@[simp] theorem State.setGroup_hosBlocks (s : State) (h g : Nat) (v : Group) : (s.setGroup h g v).hosBlocks = s.hosBlocks := rfl
@[simp] theorem State.setGroup_hosCtrs (s : State) (h g : Nat) (v : Group) : (s.setGroup h g v).hosCtrs = s.hosCtrs := rfl
@[simp] theorem State.setGroup_hosStore (s : State) (h g : Nat) (v : Group) : (s.setGroup h g v).hosStore = s.hosStore := rfl
@[simp] theorem State.setGroup_hosArray (s : State) (h g : Nat) (v : Group) : (s.setGroup h g v).hosArray = s.hosArray := rfl
@[simp] theorem State.setGroup_halves (s : State) (h g : Nat) (v : Group) : (s.setGroup h g v).halves = s.halves := rfl
@[simp] theorem State.setGroup_uppers (s : State) (h g : Nat) (v : Group) : (s.setGroup h g v).uppers = s.uppers := rfl
@[simp] theorem State.setGroup_mesh (s : State) (h g : Nat) (v : Group) : (s.setGroup h g v).mesh = s.mesh := rfl
@[simp] theorem State.setGroup_porters (s : State) (h g : Nat) (v : Group) : (s.setGroup h g v).porters = s.porters := rfl
@[simp] theorem State.setGroup_steward (s : State) (h g : Nat) (v : Group) : (s.setGroup h g v).steward = s.steward := rfl
@[simp] theorem State.setGroup_sites (s : State) (h g : Nat) (v : Group) : (s.setGroup h g v).sites = s.sites := rfl
@[simp] theorem State.setGroup_stops (s : State) (h g : Nat) (v : Group) : (s.setGroup h g v).stops = s.stops := rfl
@[simp] theorem State.setGroup_ctu (s : State) (h g : Nat) (v : Group) : (s.setGroup h g v).ctu = s.ctu := rfl
@[simp] theorem State.setGroup_couriers (s : State) (h g : Nat) (v : Group) : (s.setGroup h g v).couriers = s.couriers := rfl
@[simp] theorem State.setGroup_ox (s : State) (h g : Nat) (v : Group) : (s.setGroup h g v).ox = s.ox := rfl
@[simp] theorem State.setGroup_hashes (s : State) (h g : Nat) (v : Group) : (s.setGroup h g v).hashes = s.hashes := rfl
@[simp] theorem State.setGroup_launches (s : State) (h g : Nat) (v : Group) : (s.setGroup h g v).launches = s.launches := rfl
@[simp] theorem State.setGroup_nextLaunch (s : State) (h g : Nat) (v : Group) : (s.setGroup h g v).nextLaunch = s.nextLaunch := rfl
@[simp] theorem State.setGroup_goOrder (s : State) (h g : Nat) (v : Group) : (s.setGroup h g v).goOrder = s.goOrder := rfl
@[simp] theorem State.setGroup_mileMsgs (s : State) (h g : Nat) (v : Group) : (s.setGroup h g v).mileMsgs = s.mileMsgs := rfl
@[simp] theorem State.setGroup_disp (s : State) (h g : Nat) (v : Group) : (s.setGroup h g v).disp = s.disp := rfl
@[simp] theorem State.setGroup_clocks (s : State) (h g : Nat) (v : Group) : (s.setGroup h g v).clocks = s.clocks := rfl
@[simp] theorem State.setGroup_lastCkpt (s : State) (h g : Nat) (v : Group) : (s.setGroup h g v).lastCkpt = s.lastCkpt := rfl
@[simp] theorem State.setGroup_guestbook (s : State) (h g : Nat) (v : Group) : (s.setGroup h g v).guestbook = s.guestbook := rfl
@[simp] theorem State.setGroup_pcie (s : State) (h g : Nat) (v : Group) : (s.setGroup h g v).pcie = s.pcie := rfl
@[simp] theorem State.setGroup_power (s : State) (h g : Nat) (v : Group) : (s.setGroup h g v).power = s.power := rfl
@[simp] theorem State.setGroup_fuses (s : State) (h g : Nat) (v : Group) : (s.setGroup h g v).fuses = s.fuses := rfl
@[simp] theorem State.setGroup_boot (s : State) (h g : Nat) (v : Group) : (s.setGroup h g v).boot = s.boot := rfl
@[simp] theorem State.setGroup_sbx (s : State) (h g : Nat) (v : Group) : (s.setGroup h g v).sbx = s.sbx := rfl
@[simp] theorem State.setGroup_service (s : State) (h g : Nat) (v : Group) : (s.setGroup h g v).service = s.service := rfl
@[simp] theorem State.setGroup_etcLatch (s : State) (h g : Nat) (v : Group) : (s.setGroup h g v).etcLatch = s.etcLatch := rfl
@[simp] theorem State.setGroup_finding (s : State) (h g : Nat) (v : Group) : (s.setGroup h g v).finding = s.finding := rfl
@[simp] theorem State.setGroup_stewardTx (s : State) (h g : Nat) (v : Group) : (s.setGroup h g v).stewardTx = s.stewardTx := rfl

/-! ### State.setBlock -/

@[simp] theorem State.setBlock_pending (s : State) (h b : Nat) (v : Block) : (s.setBlock h b v).pending = s.pending := rfl
@[simp] theorem State.setBlock_free (s : State) (h b : Nat) (v : Block) : (s.setBlock h b v).free = s.free := rfl
@[simp] theorem State.setBlock_regs (s : State) (h b : Nat) (v : Block) : (s.setBlock h b v).regs = s.regs := rfl
@[simp] theorem State.setBlock_mem (s : State) (h b : Nat) (v : Block) : (s.setBlock h b v).mem = s.mem := rfl
@[simp] theorem State.setBlock_wordErr (s : State) (h b : Nat) (v : Block) : (s.setBlock h b v).wordErr = s.wordErr := rfl
@[simp] theorem State.setBlock_tiles (s : State) (h b : Nat) (v : Block) : (s.setBlock h b v).tiles = s.tiles := rfl
@[simp] theorem State.setBlock_slices (s : State) (h b : Nat) (v : Block) : (s.setBlock h b v).slices = s.slices := rfl
@[simp] theorem State.setBlock_hosGroups (s : State) (h b : Nat) (v : Block) : (s.setBlock h b v).hosGroups = s.hosGroups := rfl
@[simp] theorem State.setBlock_hosCtrs (s : State) (h b : Nat) (v : Block) : (s.setBlock h b v).hosCtrs = s.hosCtrs := rfl
@[simp] theorem State.setBlock_hosStore (s : State) (h b : Nat) (v : Block) : (s.setBlock h b v).hosStore = s.hosStore := rfl
@[simp] theorem State.setBlock_hosArray (s : State) (h b : Nat) (v : Block) : (s.setBlock h b v).hosArray = s.hosArray := rfl
@[simp] theorem State.setBlock_halves (s : State) (h b : Nat) (v : Block) : (s.setBlock h b v).halves = s.halves := rfl
@[simp] theorem State.setBlock_uppers (s : State) (h b : Nat) (v : Block) : (s.setBlock h b v).uppers = s.uppers := rfl
@[simp] theorem State.setBlock_mesh (s : State) (h b : Nat) (v : Block) : (s.setBlock h b v).mesh = s.mesh := rfl
@[simp] theorem State.setBlock_porters (s : State) (h b : Nat) (v : Block) : (s.setBlock h b v).porters = s.porters := rfl
@[simp] theorem State.setBlock_steward (s : State) (h b : Nat) (v : Block) : (s.setBlock h b v).steward = s.steward := rfl
@[simp] theorem State.setBlock_sites (s : State) (h b : Nat) (v : Block) : (s.setBlock h b v).sites = s.sites := rfl
@[simp] theorem State.setBlock_stops (s : State) (h b : Nat) (v : Block) : (s.setBlock h b v).stops = s.stops := rfl
@[simp] theorem State.setBlock_ctu (s : State) (h b : Nat) (v : Block) : (s.setBlock h b v).ctu = s.ctu := rfl
@[simp] theorem State.setBlock_couriers (s : State) (h b : Nat) (v : Block) : (s.setBlock h b v).couriers = s.couriers := rfl
@[simp] theorem State.setBlock_ox (s : State) (h b : Nat) (v : Block) : (s.setBlock h b v).ox = s.ox := rfl
@[simp] theorem State.setBlock_hashes (s : State) (h b : Nat) (v : Block) : (s.setBlock h b v).hashes = s.hashes := rfl
@[simp] theorem State.setBlock_launches (s : State) (h b : Nat) (v : Block) : (s.setBlock h b v).launches = s.launches := rfl
@[simp] theorem State.setBlock_nextLaunch (s : State) (h b : Nat) (v : Block) : (s.setBlock h b v).nextLaunch = s.nextLaunch := rfl
@[simp] theorem State.setBlock_goOrder (s : State) (h b : Nat) (v : Block) : (s.setBlock h b v).goOrder = s.goOrder := rfl
@[simp] theorem State.setBlock_mileMsgs (s : State) (h b : Nat) (v : Block) : (s.setBlock h b v).mileMsgs = s.mileMsgs := rfl
@[simp] theorem State.setBlock_disp (s : State) (h b : Nat) (v : Block) : (s.setBlock h b v).disp = s.disp := rfl
@[simp] theorem State.setBlock_clocks (s : State) (h b : Nat) (v : Block) : (s.setBlock h b v).clocks = s.clocks := rfl
@[simp] theorem State.setBlock_lastCkpt (s : State) (h b : Nat) (v : Block) : (s.setBlock h b v).lastCkpt = s.lastCkpt := rfl
@[simp] theorem State.setBlock_guestbook (s : State) (h b : Nat) (v : Block) : (s.setBlock h b v).guestbook = s.guestbook := rfl
@[simp] theorem State.setBlock_pcie (s : State) (h b : Nat) (v : Block) : (s.setBlock h b v).pcie = s.pcie := rfl
@[simp] theorem State.setBlock_power (s : State) (h b : Nat) (v : Block) : (s.setBlock h b v).power = s.power := rfl
@[simp] theorem State.setBlock_fuses (s : State) (h b : Nat) (v : Block) : (s.setBlock h b v).fuses = s.fuses := rfl
@[simp] theorem State.setBlock_boot (s : State) (h b : Nat) (v : Block) : (s.setBlock h b v).boot = s.boot := rfl
@[simp] theorem State.setBlock_sbx (s : State) (h b : Nat) (v : Block) : (s.setBlock h b v).sbx = s.sbx := rfl
@[simp] theorem State.setBlock_service (s : State) (h b : Nat) (v : Block) : (s.setBlock h b v).service = s.service := rfl
@[simp] theorem State.setBlock_etcLatch (s : State) (h b : Nat) (v : Block) : (s.setBlock h b v).etcLatch = s.etcLatch := rfl
@[simp] theorem State.setBlock_finding (s : State) (h b : Nat) (v : Block) : (s.setBlock h b v).finding = s.finding := rfl
@[simp] theorem State.setBlock_stewardTx (s : State) (h b : Nat) (v : Block) : (s.setBlock h b v).stewardTx = s.stewardTx := rfl

/-! ### State.setCtr -/

@[simp] theorem State.setCtr_pending (s : State) (h c : Nat) (v : W32) : (s.setCtr h c v).pending = s.pending := rfl
@[simp] theorem State.setCtr_free (s : State) (h c : Nat) (v : W32) : (s.setCtr h c v).free = s.free := rfl
@[simp] theorem State.setCtr_regs (s : State) (h c : Nat) (v : W32) : (s.setCtr h c v).regs = s.regs := rfl
@[simp] theorem State.setCtr_mem (s : State) (h c : Nat) (v : W32) : (s.setCtr h c v).mem = s.mem := rfl
@[simp] theorem State.setCtr_wordErr (s : State) (h c : Nat) (v : W32) : (s.setCtr h c v).wordErr = s.wordErr := rfl
@[simp] theorem State.setCtr_tiles (s : State) (h c : Nat) (v : W32) : (s.setCtr h c v).tiles = s.tiles := rfl
@[simp] theorem State.setCtr_slices (s : State) (h c : Nat) (v : W32) : (s.setCtr h c v).slices = s.slices := rfl
@[simp] theorem State.setCtr_hosGroups (s : State) (h c : Nat) (v : W32) : (s.setCtr h c v).hosGroups = s.hosGroups := rfl
@[simp] theorem State.setCtr_hosBlocks (s : State) (h c : Nat) (v : W32) : (s.setCtr h c v).hosBlocks = s.hosBlocks := rfl
@[simp] theorem State.setCtr_hosStore (s : State) (h c : Nat) (v : W32) : (s.setCtr h c v).hosStore = s.hosStore := rfl
@[simp] theorem State.setCtr_hosArray (s : State) (h c : Nat) (v : W32) : (s.setCtr h c v).hosArray = s.hosArray := rfl
@[simp] theorem State.setCtr_halves (s : State) (h c : Nat) (v : W32) : (s.setCtr h c v).halves = s.halves := rfl
@[simp] theorem State.setCtr_uppers (s : State) (h c : Nat) (v : W32) : (s.setCtr h c v).uppers = s.uppers := rfl
@[simp] theorem State.setCtr_mesh (s : State) (h c : Nat) (v : W32) : (s.setCtr h c v).mesh = s.mesh := rfl
@[simp] theorem State.setCtr_porters (s : State) (h c : Nat) (v : W32) : (s.setCtr h c v).porters = s.porters := rfl
@[simp] theorem State.setCtr_steward (s : State) (h c : Nat) (v : W32) : (s.setCtr h c v).steward = s.steward := rfl
@[simp] theorem State.setCtr_sites (s : State) (h c : Nat) (v : W32) : (s.setCtr h c v).sites = s.sites := rfl
@[simp] theorem State.setCtr_stops (s : State) (h c : Nat) (v : W32) : (s.setCtr h c v).stops = s.stops := rfl
@[simp] theorem State.setCtr_ctu (s : State) (h c : Nat) (v : W32) : (s.setCtr h c v).ctu = s.ctu := rfl
@[simp] theorem State.setCtr_couriers (s : State) (h c : Nat) (v : W32) : (s.setCtr h c v).couriers = s.couriers := rfl
@[simp] theorem State.setCtr_ox (s : State) (h c : Nat) (v : W32) : (s.setCtr h c v).ox = s.ox := rfl
@[simp] theorem State.setCtr_hashes (s : State) (h c : Nat) (v : W32) : (s.setCtr h c v).hashes = s.hashes := rfl
@[simp] theorem State.setCtr_launches (s : State) (h c : Nat) (v : W32) : (s.setCtr h c v).launches = s.launches := rfl
@[simp] theorem State.setCtr_nextLaunch (s : State) (h c : Nat) (v : W32) : (s.setCtr h c v).nextLaunch = s.nextLaunch := rfl
@[simp] theorem State.setCtr_goOrder (s : State) (h c : Nat) (v : W32) : (s.setCtr h c v).goOrder = s.goOrder := rfl
@[simp] theorem State.setCtr_mileMsgs (s : State) (h c : Nat) (v : W32) : (s.setCtr h c v).mileMsgs = s.mileMsgs := rfl
@[simp] theorem State.setCtr_disp (s : State) (h c : Nat) (v : W32) : (s.setCtr h c v).disp = s.disp := rfl
@[simp] theorem State.setCtr_clocks (s : State) (h c : Nat) (v : W32) : (s.setCtr h c v).clocks = s.clocks := rfl
@[simp] theorem State.setCtr_lastCkpt (s : State) (h c : Nat) (v : W32) : (s.setCtr h c v).lastCkpt = s.lastCkpt := rfl
@[simp] theorem State.setCtr_guestbook (s : State) (h c : Nat) (v : W32) : (s.setCtr h c v).guestbook = s.guestbook := rfl
@[simp] theorem State.setCtr_pcie (s : State) (h c : Nat) (v : W32) : (s.setCtr h c v).pcie = s.pcie := rfl
@[simp] theorem State.setCtr_power (s : State) (h c : Nat) (v : W32) : (s.setCtr h c v).power = s.power := rfl
@[simp] theorem State.setCtr_fuses (s : State) (h c : Nat) (v : W32) : (s.setCtr h c v).fuses = s.fuses := rfl
@[simp] theorem State.setCtr_boot (s : State) (h c : Nat) (v : W32) : (s.setCtr h c v).boot = s.boot := rfl
@[simp] theorem State.setCtr_sbx (s : State) (h c : Nat) (v : W32) : (s.setCtr h c v).sbx = s.sbx := rfl
@[simp] theorem State.setCtr_service (s : State) (h c : Nat) (v : W32) : (s.setCtr h c v).service = s.service := rfl
@[simp] theorem State.setCtr_etcLatch (s : State) (h c : Nat) (v : W32) : (s.setCtr h c v).etcLatch = s.etcLatch := rfl
@[simp] theorem State.setCtr_finding (s : State) (h c : Nat) (v : W32) : (s.setCtr h c v).finding = s.finding := rfl
@[simp] theorem State.setCtr_stewardTx (s : State) (h c : Nat) (v : W32) : (s.setCtr h c v).stewardTx = s.stewardTx := rfl

/-! ### State.setArrayQ -/

@[simp] theorem State.setArrayQ_pending (s : State) (h : Nat) (q : List ArrayOp) : (s.setArrayQ h q).pending = s.pending := rfl
@[simp] theorem State.setArrayQ_free (s : State) (h : Nat) (q : List ArrayOp) : (s.setArrayQ h q).free = s.free := rfl
@[simp] theorem State.setArrayQ_regs (s : State) (h : Nat) (q : List ArrayOp) : (s.setArrayQ h q).regs = s.regs := rfl
@[simp] theorem State.setArrayQ_mem (s : State) (h : Nat) (q : List ArrayOp) : (s.setArrayQ h q).mem = s.mem := rfl
@[simp] theorem State.setArrayQ_wordErr (s : State) (h : Nat) (q : List ArrayOp) : (s.setArrayQ h q).wordErr = s.wordErr := rfl
@[simp] theorem State.setArrayQ_tiles (s : State) (h : Nat) (q : List ArrayOp) : (s.setArrayQ h q).tiles = s.tiles := rfl
@[simp] theorem State.setArrayQ_slices (s : State) (h : Nat) (q : List ArrayOp) : (s.setArrayQ h q).slices = s.slices := rfl
@[simp] theorem State.setArrayQ_hosGroups (s : State) (h : Nat) (q : List ArrayOp) : (s.setArrayQ h q).hosGroups = s.hosGroups := rfl
@[simp] theorem State.setArrayQ_hosBlocks (s : State) (h : Nat) (q : List ArrayOp) : (s.setArrayQ h q).hosBlocks = s.hosBlocks := rfl
@[simp] theorem State.setArrayQ_hosCtrs (s : State) (h : Nat) (q : List ArrayOp) : (s.setArrayQ h q).hosCtrs = s.hosCtrs := rfl
@[simp] theorem State.setArrayQ_hosStore (s : State) (h : Nat) (q : List ArrayOp) : (s.setArrayQ h q).hosStore = s.hosStore := rfl
@[simp] theorem State.setArrayQ_halves (s : State) (h : Nat) (q : List ArrayOp) : (s.setArrayQ h q).halves = s.halves := rfl
@[simp] theorem State.setArrayQ_uppers (s : State) (h : Nat) (q : List ArrayOp) : (s.setArrayQ h q).uppers = s.uppers := rfl
@[simp] theorem State.setArrayQ_mesh (s : State) (h : Nat) (q : List ArrayOp) : (s.setArrayQ h q).mesh = s.mesh := rfl
@[simp] theorem State.setArrayQ_porters (s : State) (h : Nat) (q : List ArrayOp) : (s.setArrayQ h q).porters = s.porters := rfl
@[simp] theorem State.setArrayQ_steward (s : State) (h : Nat) (q : List ArrayOp) : (s.setArrayQ h q).steward = s.steward := rfl
@[simp] theorem State.setArrayQ_sites (s : State) (h : Nat) (q : List ArrayOp) : (s.setArrayQ h q).sites = s.sites := rfl
@[simp] theorem State.setArrayQ_stops (s : State) (h : Nat) (q : List ArrayOp) : (s.setArrayQ h q).stops = s.stops := rfl
@[simp] theorem State.setArrayQ_ctu (s : State) (h : Nat) (q : List ArrayOp) : (s.setArrayQ h q).ctu = s.ctu := rfl
@[simp] theorem State.setArrayQ_couriers (s : State) (h : Nat) (q : List ArrayOp) : (s.setArrayQ h q).couriers = s.couriers := rfl
@[simp] theorem State.setArrayQ_ox (s : State) (h : Nat) (q : List ArrayOp) : (s.setArrayQ h q).ox = s.ox := rfl
@[simp] theorem State.setArrayQ_hashes (s : State) (h : Nat) (q : List ArrayOp) : (s.setArrayQ h q).hashes = s.hashes := rfl
@[simp] theorem State.setArrayQ_launches (s : State) (h : Nat) (q : List ArrayOp) : (s.setArrayQ h q).launches = s.launches := rfl
@[simp] theorem State.setArrayQ_nextLaunch (s : State) (h : Nat) (q : List ArrayOp) : (s.setArrayQ h q).nextLaunch = s.nextLaunch := rfl
@[simp] theorem State.setArrayQ_goOrder (s : State) (h : Nat) (q : List ArrayOp) : (s.setArrayQ h q).goOrder = s.goOrder := rfl
@[simp] theorem State.setArrayQ_mileMsgs (s : State) (h : Nat) (q : List ArrayOp) : (s.setArrayQ h q).mileMsgs = s.mileMsgs := rfl
@[simp] theorem State.setArrayQ_disp (s : State) (h : Nat) (q : List ArrayOp) : (s.setArrayQ h q).disp = s.disp := rfl
@[simp] theorem State.setArrayQ_clocks (s : State) (h : Nat) (q : List ArrayOp) : (s.setArrayQ h q).clocks = s.clocks := rfl
@[simp] theorem State.setArrayQ_lastCkpt (s : State) (h : Nat) (q : List ArrayOp) : (s.setArrayQ h q).lastCkpt = s.lastCkpt := rfl
@[simp] theorem State.setArrayQ_guestbook (s : State) (h : Nat) (q : List ArrayOp) : (s.setArrayQ h q).guestbook = s.guestbook := rfl
@[simp] theorem State.setArrayQ_pcie (s : State) (h : Nat) (q : List ArrayOp) : (s.setArrayQ h q).pcie = s.pcie := rfl
@[simp] theorem State.setArrayQ_power (s : State) (h : Nat) (q : List ArrayOp) : (s.setArrayQ h q).power = s.power := rfl
@[simp] theorem State.setArrayQ_fuses (s : State) (h : Nat) (q : List ArrayOp) : (s.setArrayQ h q).fuses = s.fuses := rfl
@[simp] theorem State.setArrayQ_boot (s : State) (h : Nat) (q : List ArrayOp) : (s.setArrayQ h q).boot = s.boot := rfl
@[simp] theorem State.setArrayQ_sbx (s : State) (h : Nat) (q : List ArrayOp) : (s.setArrayQ h q).sbx = s.sbx := rfl
@[simp] theorem State.setArrayQ_service (s : State) (h : Nat) (q : List ArrayOp) : (s.setArrayQ h q).service = s.service := rfl
@[simp] theorem State.setArrayQ_etcLatch (s : State) (h : Nat) (q : List ArrayOp) : (s.setArrayQ h q).etcLatch = s.etcLatch := rfl
@[simp] theorem State.setArrayQ_finding (s : State) (h : Nat) (q : List ArrayOp) : (s.setArrayQ h q).finding = s.finding := rfl
@[simp] theorem State.setArrayQ_stewardTx (s : State) (h : Nat) (q : List ArrayOp) : (s.setArrayQ h q).stewardTx = s.stewardTx := rfl

/-! ### State.setHalf -/

@[simp] theorem State.setHalf_pending (s : State) (e : Nat) (v : HalfX) : (s.setHalf e v).pending = s.pending := rfl
@[simp] theorem State.setHalf_free (s : State) (e : Nat) (v : HalfX) : (s.setHalf e v).free = s.free := rfl
@[simp] theorem State.setHalf_regs (s : State) (e : Nat) (v : HalfX) : (s.setHalf e v).regs = s.regs := rfl
@[simp] theorem State.setHalf_mem (s : State) (e : Nat) (v : HalfX) : (s.setHalf e v).mem = s.mem := rfl
@[simp] theorem State.setHalf_wordErr (s : State) (e : Nat) (v : HalfX) : (s.setHalf e v).wordErr = s.wordErr := rfl
@[simp] theorem State.setHalf_tiles (s : State) (e : Nat) (v : HalfX) : (s.setHalf e v).tiles = s.tiles := rfl
@[simp] theorem State.setHalf_slices (s : State) (e : Nat) (v : HalfX) : (s.setHalf e v).slices = s.slices := rfl
@[simp] theorem State.setHalf_hosGroups (s : State) (e : Nat) (v : HalfX) : (s.setHalf e v).hosGroups = s.hosGroups := rfl
@[simp] theorem State.setHalf_hosBlocks (s : State) (e : Nat) (v : HalfX) : (s.setHalf e v).hosBlocks = s.hosBlocks := rfl
@[simp] theorem State.setHalf_hosCtrs (s : State) (e : Nat) (v : HalfX) : (s.setHalf e v).hosCtrs = s.hosCtrs := rfl
@[simp] theorem State.setHalf_hosStore (s : State) (e : Nat) (v : HalfX) : (s.setHalf e v).hosStore = s.hosStore := rfl
@[simp] theorem State.setHalf_hosArray (s : State) (e : Nat) (v : HalfX) : (s.setHalf e v).hosArray = s.hosArray := rfl
@[simp] theorem State.setHalf_uppers (s : State) (e : Nat) (v : HalfX) : (s.setHalf e v).uppers = s.uppers := rfl
@[simp] theorem State.setHalf_mesh (s : State) (e : Nat) (v : HalfX) : (s.setHalf e v).mesh = s.mesh := rfl
@[simp] theorem State.setHalf_porters (s : State) (e : Nat) (v : HalfX) : (s.setHalf e v).porters = s.porters := rfl
@[simp] theorem State.setHalf_steward (s : State) (e : Nat) (v : HalfX) : (s.setHalf e v).steward = s.steward := rfl
@[simp] theorem State.setHalf_sites (s : State) (e : Nat) (v : HalfX) : (s.setHalf e v).sites = s.sites := rfl
@[simp] theorem State.setHalf_stops (s : State) (e : Nat) (v : HalfX) : (s.setHalf e v).stops = s.stops := rfl
@[simp] theorem State.setHalf_ctu (s : State) (e : Nat) (v : HalfX) : (s.setHalf e v).ctu = s.ctu := rfl
@[simp] theorem State.setHalf_couriers (s : State) (e : Nat) (v : HalfX) : (s.setHalf e v).couriers = s.couriers := rfl
@[simp] theorem State.setHalf_ox (s : State) (e : Nat) (v : HalfX) : (s.setHalf e v).ox = s.ox := rfl
@[simp] theorem State.setHalf_hashes (s : State) (e : Nat) (v : HalfX) : (s.setHalf e v).hashes = s.hashes := rfl
@[simp] theorem State.setHalf_launches (s : State) (e : Nat) (v : HalfX) : (s.setHalf e v).launches = s.launches := rfl
@[simp] theorem State.setHalf_nextLaunch (s : State) (e : Nat) (v : HalfX) : (s.setHalf e v).nextLaunch = s.nextLaunch := rfl
@[simp] theorem State.setHalf_goOrder (s : State) (e : Nat) (v : HalfX) : (s.setHalf e v).goOrder = s.goOrder := rfl
@[simp] theorem State.setHalf_mileMsgs (s : State) (e : Nat) (v : HalfX) : (s.setHalf e v).mileMsgs = s.mileMsgs := rfl
@[simp] theorem State.setHalf_disp (s : State) (e : Nat) (v : HalfX) : (s.setHalf e v).disp = s.disp := rfl
@[simp] theorem State.setHalf_clocks (s : State) (e : Nat) (v : HalfX) : (s.setHalf e v).clocks = s.clocks := rfl
@[simp] theorem State.setHalf_lastCkpt (s : State) (e : Nat) (v : HalfX) : (s.setHalf e v).lastCkpt = s.lastCkpt := rfl
@[simp] theorem State.setHalf_guestbook (s : State) (e : Nat) (v : HalfX) : (s.setHalf e v).guestbook = s.guestbook := rfl
@[simp] theorem State.setHalf_pcie (s : State) (e : Nat) (v : HalfX) : (s.setHalf e v).pcie = s.pcie := rfl
@[simp] theorem State.setHalf_power (s : State) (e : Nat) (v : HalfX) : (s.setHalf e v).power = s.power := rfl
@[simp] theorem State.setHalf_fuses (s : State) (e : Nat) (v : HalfX) : (s.setHalf e v).fuses = s.fuses := rfl
@[simp] theorem State.setHalf_boot (s : State) (e : Nat) (v : HalfX) : (s.setHalf e v).boot = s.boot := rfl
@[simp] theorem State.setHalf_sbx (s : State) (e : Nat) (v : HalfX) : (s.setHalf e v).sbx = s.sbx := rfl
@[simp] theorem State.setHalf_service (s : State) (e : Nat) (v : HalfX) : (s.setHalf e v).service = s.service := rfl
@[simp] theorem State.setHalf_etcLatch (s : State) (e : Nat) (v : HalfX) : (s.setHalf e v).etcLatch = s.etcLatch := rfl
@[simp] theorem State.setHalf_finding (s : State) (e : Nat) (v : HalfX) : (s.setHalf e v).finding = s.finding := rfl
@[simp] theorem State.setHalf_stewardTx (s : State) (e : Nat) (v : HalfX) : (s.setHalf e v).stewardTx = s.stewardTx := rfl

/-! ### State.setUpper -/

@[simp] theorem State.setUpper_pending (s : State) (u : Nat) (v : Upper) : (s.setUpper u v).pending = s.pending := rfl
@[simp] theorem State.setUpper_free (s : State) (u : Nat) (v : Upper) : (s.setUpper u v).free = s.free := rfl
@[simp] theorem State.setUpper_regs (s : State) (u : Nat) (v : Upper) : (s.setUpper u v).regs = s.regs := rfl
@[simp] theorem State.setUpper_mem (s : State) (u : Nat) (v : Upper) : (s.setUpper u v).mem = s.mem := rfl
@[simp] theorem State.setUpper_wordErr (s : State) (u : Nat) (v : Upper) : (s.setUpper u v).wordErr = s.wordErr := rfl
@[simp] theorem State.setUpper_tiles (s : State) (u : Nat) (v : Upper) : (s.setUpper u v).tiles = s.tiles := rfl
@[simp] theorem State.setUpper_slices (s : State) (u : Nat) (v : Upper) : (s.setUpper u v).slices = s.slices := rfl
@[simp] theorem State.setUpper_hosGroups (s : State) (u : Nat) (v : Upper) : (s.setUpper u v).hosGroups = s.hosGroups := rfl
@[simp] theorem State.setUpper_hosBlocks (s : State) (u : Nat) (v : Upper) : (s.setUpper u v).hosBlocks = s.hosBlocks := rfl
@[simp] theorem State.setUpper_hosCtrs (s : State) (u : Nat) (v : Upper) : (s.setUpper u v).hosCtrs = s.hosCtrs := rfl
@[simp] theorem State.setUpper_hosStore (s : State) (u : Nat) (v : Upper) : (s.setUpper u v).hosStore = s.hosStore := rfl
@[simp] theorem State.setUpper_hosArray (s : State) (u : Nat) (v : Upper) : (s.setUpper u v).hosArray = s.hosArray := rfl
@[simp] theorem State.setUpper_halves (s : State) (u : Nat) (v : Upper) : (s.setUpper u v).halves = s.halves := rfl
@[simp] theorem State.setUpper_mesh (s : State) (u : Nat) (v : Upper) : (s.setUpper u v).mesh = s.mesh := rfl
@[simp] theorem State.setUpper_porters (s : State) (u : Nat) (v : Upper) : (s.setUpper u v).porters = s.porters := rfl
@[simp] theorem State.setUpper_steward (s : State) (u : Nat) (v : Upper) : (s.setUpper u v).steward = s.steward := rfl
@[simp] theorem State.setUpper_sites (s : State) (u : Nat) (v : Upper) : (s.setUpper u v).sites = s.sites := rfl
@[simp] theorem State.setUpper_stops (s : State) (u : Nat) (v : Upper) : (s.setUpper u v).stops = s.stops := rfl
@[simp] theorem State.setUpper_ctu (s : State) (u : Nat) (v : Upper) : (s.setUpper u v).ctu = s.ctu := rfl
@[simp] theorem State.setUpper_couriers (s : State) (u : Nat) (v : Upper) : (s.setUpper u v).couriers = s.couriers := rfl
@[simp] theorem State.setUpper_ox (s : State) (u : Nat) (v : Upper) : (s.setUpper u v).ox = s.ox := rfl
@[simp] theorem State.setUpper_hashes (s : State) (u : Nat) (v : Upper) : (s.setUpper u v).hashes = s.hashes := rfl
@[simp] theorem State.setUpper_launches (s : State) (u : Nat) (v : Upper) : (s.setUpper u v).launches = s.launches := rfl
@[simp] theorem State.setUpper_nextLaunch (s : State) (u : Nat) (v : Upper) : (s.setUpper u v).nextLaunch = s.nextLaunch := rfl
@[simp] theorem State.setUpper_goOrder (s : State) (u : Nat) (v : Upper) : (s.setUpper u v).goOrder = s.goOrder := rfl
@[simp] theorem State.setUpper_mileMsgs (s : State) (u : Nat) (v : Upper) : (s.setUpper u v).mileMsgs = s.mileMsgs := rfl
@[simp] theorem State.setUpper_disp (s : State) (u : Nat) (v : Upper) : (s.setUpper u v).disp = s.disp := rfl
@[simp] theorem State.setUpper_clocks (s : State) (u : Nat) (v : Upper) : (s.setUpper u v).clocks = s.clocks := rfl
@[simp] theorem State.setUpper_lastCkpt (s : State) (u : Nat) (v : Upper) : (s.setUpper u v).lastCkpt = s.lastCkpt := rfl
@[simp] theorem State.setUpper_guestbook (s : State) (u : Nat) (v : Upper) : (s.setUpper u v).guestbook = s.guestbook := rfl
@[simp] theorem State.setUpper_pcie (s : State) (u : Nat) (v : Upper) : (s.setUpper u v).pcie = s.pcie := rfl
@[simp] theorem State.setUpper_power (s : State) (u : Nat) (v : Upper) : (s.setUpper u v).power = s.power := rfl
@[simp] theorem State.setUpper_fuses (s : State) (u : Nat) (v : Upper) : (s.setUpper u v).fuses = s.fuses := rfl
@[simp] theorem State.setUpper_boot (s : State) (u : Nat) (v : Upper) : (s.setUpper u v).boot = s.boot := rfl
@[simp] theorem State.setUpper_sbx (s : State) (u : Nat) (v : Upper) : (s.setUpper u v).sbx = s.sbx := rfl
@[simp] theorem State.setUpper_service (s : State) (u : Nat) (v : Upper) : (s.setUpper u v).service = s.service := rfl
@[simp] theorem State.setUpper_etcLatch (s : State) (u : Nat) (v : Upper) : (s.setUpper u v).etcLatch = s.etcLatch := rfl
@[simp] theorem State.setUpper_finding (s : State) (u : Nat) (v : Upper) : (s.setUpper u v).finding = s.finding := rfl
@[simp] theorem State.setUpper_stewardTx (s : State) (u : Nat) (v : Upper) : (s.setUpper u v).stewardTx = s.stewardTx := rfl

/-! ### State.setInbox -/

@[simp] theorem State.setInbox_pending (s : State) (e : MeshEnd) (l : List (Nat × MeshBody)) : (s.setInbox e l).pending = s.pending := rfl
@[simp] theorem State.setInbox_free (s : State) (e : MeshEnd) (l : List (Nat × MeshBody)) : (s.setInbox e l).free = s.free := rfl
@[simp] theorem State.setInbox_regs (s : State) (e : MeshEnd) (l : List (Nat × MeshBody)) : (s.setInbox e l).regs = s.regs := rfl
@[simp] theorem State.setInbox_mem (s : State) (e : MeshEnd) (l : List (Nat × MeshBody)) : (s.setInbox e l).mem = s.mem := rfl
@[simp] theorem State.setInbox_wordErr (s : State) (e : MeshEnd) (l : List (Nat × MeshBody)) : (s.setInbox e l).wordErr = s.wordErr := rfl
@[simp] theorem State.setInbox_tiles (s : State) (e : MeshEnd) (l : List (Nat × MeshBody)) : (s.setInbox e l).tiles = s.tiles := rfl
@[simp] theorem State.setInbox_slices (s : State) (e : MeshEnd) (l : List (Nat × MeshBody)) : (s.setInbox e l).slices = s.slices := rfl
@[simp] theorem State.setInbox_hosGroups (s : State) (e : MeshEnd) (l : List (Nat × MeshBody)) : (s.setInbox e l).hosGroups = s.hosGroups := rfl
@[simp] theorem State.setInbox_hosBlocks (s : State) (e : MeshEnd) (l : List (Nat × MeshBody)) : (s.setInbox e l).hosBlocks = s.hosBlocks := rfl
@[simp] theorem State.setInbox_hosCtrs (s : State) (e : MeshEnd) (l : List (Nat × MeshBody)) : (s.setInbox e l).hosCtrs = s.hosCtrs := rfl
@[simp] theorem State.setInbox_hosStore (s : State) (e : MeshEnd) (l : List (Nat × MeshBody)) : (s.setInbox e l).hosStore = s.hosStore := rfl
@[simp] theorem State.setInbox_hosArray (s : State) (e : MeshEnd) (l : List (Nat × MeshBody)) : (s.setInbox e l).hosArray = s.hosArray := rfl
@[simp] theorem State.setInbox_halves (s : State) (e : MeshEnd) (l : List (Nat × MeshBody)) : (s.setInbox e l).halves = s.halves := rfl
@[simp] theorem State.setInbox_uppers (s : State) (e : MeshEnd) (l : List (Nat × MeshBody)) : (s.setInbox e l).uppers = s.uppers := rfl
@[simp] theorem State.setInbox_porters (s : State) (e : MeshEnd) (l : List (Nat × MeshBody)) : (s.setInbox e l).porters = s.porters := rfl
@[simp] theorem State.setInbox_steward (s : State) (e : MeshEnd) (l : List (Nat × MeshBody)) : (s.setInbox e l).steward = s.steward := rfl
@[simp] theorem State.setInbox_sites (s : State) (e : MeshEnd) (l : List (Nat × MeshBody)) : (s.setInbox e l).sites = s.sites := rfl
@[simp] theorem State.setInbox_stops (s : State) (e : MeshEnd) (l : List (Nat × MeshBody)) : (s.setInbox e l).stops = s.stops := rfl
@[simp] theorem State.setInbox_ctu (s : State) (e : MeshEnd) (l : List (Nat × MeshBody)) : (s.setInbox e l).ctu = s.ctu := rfl
@[simp] theorem State.setInbox_couriers (s : State) (e : MeshEnd) (l : List (Nat × MeshBody)) : (s.setInbox e l).couriers = s.couriers := rfl
@[simp] theorem State.setInbox_ox (s : State) (e : MeshEnd) (l : List (Nat × MeshBody)) : (s.setInbox e l).ox = s.ox := rfl
@[simp] theorem State.setInbox_hashes (s : State) (e : MeshEnd) (l : List (Nat × MeshBody)) : (s.setInbox e l).hashes = s.hashes := rfl
@[simp] theorem State.setInbox_launches (s : State) (e : MeshEnd) (l : List (Nat × MeshBody)) : (s.setInbox e l).launches = s.launches := rfl
@[simp] theorem State.setInbox_nextLaunch (s : State) (e : MeshEnd) (l : List (Nat × MeshBody)) : (s.setInbox e l).nextLaunch = s.nextLaunch := rfl
@[simp] theorem State.setInbox_goOrder (s : State) (e : MeshEnd) (l : List (Nat × MeshBody)) : (s.setInbox e l).goOrder = s.goOrder := rfl
@[simp] theorem State.setInbox_mileMsgs (s : State) (e : MeshEnd) (l : List (Nat × MeshBody)) : (s.setInbox e l).mileMsgs = s.mileMsgs := rfl
@[simp] theorem State.setInbox_disp (s : State) (e : MeshEnd) (l : List (Nat × MeshBody)) : (s.setInbox e l).disp = s.disp := rfl
@[simp] theorem State.setInbox_clocks (s : State) (e : MeshEnd) (l : List (Nat × MeshBody)) : (s.setInbox e l).clocks = s.clocks := rfl
@[simp] theorem State.setInbox_lastCkpt (s : State) (e : MeshEnd) (l : List (Nat × MeshBody)) : (s.setInbox e l).lastCkpt = s.lastCkpt := rfl
@[simp] theorem State.setInbox_guestbook (s : State) (e : MeshEnd) (l : List (Nat × MeshBody)) : (s.setInbox e l).guestbook = s.guestbook := rfl
@[simp] theorem State.setInbox_pcie (s : State) (e : MeshEnd) (l : List (Nat × MeshBody)) : (s.setInbox e l).pcie = s.pcie := rfl
@[simp] theorem State.setInbox_power (s : State) (e : MeshEnd) (l : List (Nat × MeshBody)) : (s.setInbox e l).power = s.power := rfl
@[simp] theorem State.setInbox_fuses (s : State) (e : MeshEnd) (l : List (Nat × MeshBody)) : (s.setInbox e l).fuses = s.fuses := rfl
@[simp] theorem State.setInbox_boot (s : State) (e : MeshEnd) (l : List (Nat × MeshBody)) : (s.setInbox e l).boot = s.boot := rfl
@[simp] theorem State.setInbox_sbx (s : State) (e : MeshEnd) (l : List (Nat × MeshBody)) : (s.setInbox e l).sbx = s.sbx := rfl
@[simp] theorem State.setInbox_service (s : State) (e : MeshEnd) (l : List (Nat × MeshBody)) : (s.setInbox e l).service = s.service := rfl
@[simp] theorem State.setInbox_etcLatch (s : State) (e : MeshEnd) (l : List (Nat × MeshBody)) : (s.setInbox e l).etcLatch = s.etcLatch := rfl
@[simp] theorem State.setInbox_finding (s : State) (e : MeshEnd) (l : List (Nat × MeshBody)) : (s.setInbox e l).finding = s.finding := rfl
@[simp] theorem State.setInbox_stewardTx (s : State) (e : MeshEnd) (l : List (Nat × MeshBody)) : (s.setInbox e l).stewardTx = s.stewardTx := rfl

/-! ### State.setQueue -/

@[simp] theorem State.setQueue_pending (s : State) (r i vc : Nat) (l : List Flit) : (s.setQueue r i vc l).pending = s.pending := rfl
@[simp] theorem State.setQueue_free (s : State) (r i vc : Nat) (l : List Flit) : (s.setQueue r i vc l).free = s.free := rfl
@[simp] theorem State.setQueue_regs (s : State) (r i vc : Nat) (l : List Flit) : (s.setQueue r i vc l).regs = s.regs := rfl
@[simp] theorem State.setQueue_mem (s : State) (r i vc : Nat) (l : List Flit) : (s.setQueue r i vc l).mem = s.mem := rfl
@[simp] theorem State.setQueue_wordErr (s : State) (r i vc : Nat) (l : List Flit) : (s.setQueue r i vc l).wordErr = s.wordErr := rfl
@[simp] theorem State.setQueue_tiles (s : State) (r i vc : Nat) (l : List Flit) : (s.setQueue r i vc l).tiles = s.tiles := rfl
@[simp] theorem State.setQueue_slices (s : State) (r i vc : Nat) (l : List Flit) : (s.setQueue r i vc l).slices = s.slices := rfl
@[simp] theorem State.setQueue_hosGroups (s : State) (r i vc : Nat) (l : List Flit) : (s.setQueue r i vc l).hosGroups = s.hosGroups := rfl
@[simp] theorem State.setQueue_hosBlocks (s : State) (r i vc : Nat) (l : List Flit) : (s.setQueue r i vc l).hosBlocks = s.hosBlocks := rfl
@[simp] theorem State.setQueue_hosCtrs (s : State) (r i vc : Nat) (l : List Flit) : (s.setQueue r i vc l).hosCtrs = s.hosCtrs := rfl
@[simp] theorem State.setQueue_hosStore (s : State) (r i vc : Nat) (l : List Flit) : (s.setQueue r i vc l).hosStore = s.hosStore := rfl
@[simp] theorem State.setQueue_hosArray (s : State) (r i vc : Nat) (l : List Flit) : (s.setQueue r i vc l).hosArray = s.hosArray := rfl
@[simp] theorem State.setQueue_halves (s : State) (r i vc : Nat) (l : List Flit) : (s.setQueue r i vc l).halves = s.halves := rfl
@[simp] theorem State.setQueue_uppers (s : State) (r i vc : Nat) (l : List Flit) : (s.setQueue r i vc l).uppers = s.uppers := rfl
@[simp] theorem State.setQueue_porters (s : State) (r i vc : Nat) (l : List Flit) : (s.setQueue r i vc l).porters = s.porters := rfl
@[simp] theorem State.setQueue_steward (s : State) (r i vc : Nat) (l : List Flit) : (s.setQueue r i vc l).steward = s.steward := rfl
@[simp] theorem State.setQueue_sites (s : State) (r i vc : Nat) (l : List Flit) : (s.setQueue r i vc l).sites = s.sites := rfl
@[simp] theorem State.setQueue_stops (s : State) (r i vc : Nat) (l : List Flit) : (s.setQueue r i vc l).stops = s.stops := rfl
@[simp] theorem State.setQueue_ctu (s : State) (r i vc : Nat) (l : List Flit) : (s.setQueue r i vc l).ctu = s.ctu := rfl
@[simp] theorem State.setQueue_couriers (s : State) (r i vc : Nat) (l : List Flit) : (s.setQueue r i vc l).couriers = s.couriers := rfl
@[simp] theorem State.setQueue_ox (s : State) (r i vc : Nat) (l : List Flit) : (s.setQueue r i vc l).ox = s.ox := rfl
@[simp] theorem State.setQueue_hashes (s : State) (r i vc : Nat) (l : List Flit) : (s.setQueue r i vc l).hashes = s.hashes := rfl
@[simp] theorem State.setQueue_launches (s : State) (r i vc : Nat) (l : List Flit) : (s.setQueue r i vc l).launches = s.launches := rfl
@[simp] theorem State.setQueue_nextLaunch (s : State) (r i vc : Nat) (l : List Flit) : (s.setQueue r i vc l).nextLaunch = s.nextLaunch := rfl
@[simp] theorem State.setQueue_goOrder (s : State) (r i vc : Nat) (l : List Flit) : (s.setQueue r i vc l).goOrder = s.goOrder := rfl
@[simp] theorem State.setQueue_mileMsgs (s : State) (r i vc : Nat) (l : List Flit) : (s.setQueue r i vc l).mileMsgs = s.mileMsgs := rfl
@[simp] theorem State.setQueue_disp (s : State) (r i vc : Nat) (l : List Flit) : (s.setQueue r i vc l).disp = s.disp := rfl
@[simp] theorem State.setQueue_clocks (s : State) (r i vc : Nat) (l : List Flit) : (s.setQueue r i vc l).clocks = s.clocks := rfl
@[simp] theorem State.setQueue_lastCkpt (s : State) (r i vc : Nat) (l : List Flit) : (s.setQueue r i vc l).lastCkpt = s.lastCkpt := rfl
@[simp] theorem State.setQueue_guestbook (s : State) (r i vc : Nat) (l : List Flit) : (s.setQueue r i vc l).guestbook = s.guestbook := rfl
@[simp] theorem State.setQueue_pcie (s : State) (r i vc : Nat) (l : List Flit) : (s.setQueue r i vc l).pcie = s.pcie := rfl
@[simp] theorem State.setQueue_power (s : State) (r i vc : Nat) (l : List Flit) : (s.setQueue r i vc l).power = s.power := rfl
@[simp] theorem State.setQueue_fuses (s : State) (r i vc : Nat) (l : List Flit) : (s.setQueue r i vc l).fuses = s.fuses := rfl
@[simp] theorem State.setQueue_boot (s : State) (r i vc : Nat) (l : List Flit) : (s.setQueue r i vc l).boot = s.boot := rfl
@[simp] theorem State.setQueue_sbx (s : State) (r i vc : Nat) (l : List Flit) : (s.setQueue r i vc l).sbx = s.sbx := rfl
@[simp] theorem State.setQueue_service (s : State) (r i vc : Nat) (l : List Flit) : (s.setQueue r i vc l).service = s.service := rfl
@[simp] theorem State.setQueue_etcLatch (s : State) (r i vc : Nat) (l : List Flit) : (s.setQueue r i vc l).etcLatch = s.etcLatch := rfl
@[simp] theorem State.setQueue_finding (s : State) (r i vc : Nat) (l : List Flit) : (s.setQueue r i vc l).finding = s.finding := rfl
@[simp] theorem State.setQueue_stewardTx (s : State) (r i vc : Nat) (l : List Flit) : (s.setQueue r i vc l).stewardTx = s.stewardTx := rfl

/-! ### State.setPorter -/

@[simp] theorem State.setPorter_pending (s : State) (n : Nat) (p : Porter) : (s.setPorter n p).pending = s.pending := rfl
@[simp] theorem State.setPorter_free (s : State) (n : Nat) (p : Porter) : (s.setPorter n p).free = s.free := rfl
@[simp] theorem State.setPorter_regs (s : State) (n : Nat) (p : Porter) : (s.setPorter n p).regs = s.regs := rfl
@[simp] theorem State.setPorter_mem (s : State) (n : Nat) (p : Porter) : (s.setPorter n p).mem = s.mem := rfl
@[simp] theorem State.setPorter_wordErr (s : State) (n : Nat) (p : Porter) : (s.setPorter n p).wordErr = s.wordErr := rfl
@[simp] theorem State.setPorter_tiles (s : State) (n : Nat) (p : Porter) : (s.setPorter n p).tiles = s.tiles := rfl
@[simp] theorem State.setPorter_slices (s : State) (n : Nat) (p : Porter) : (s.setPorter n p).slices = s.slices := rfl
@[simp] theorem State.setPorter_hosGroups (s : State) (n : Nat) (p : Porter) : (s.setPorter n p).hosGroups = s.hosGroups := rfl
@[simp] theorem State.setPorter_hosBlocks (s : State) (n : Nat) (p : Porter) : (s.setPorter n p).hosBlocks = s.hosBlocks := rfl
@[simp] theorem State.setPorter_hosCtrs (s : State) (n : Nat) (p : Porter) : (s.setPorter n p).hosCtrs = s.hosCtrs := rfl
@[simp] theorem State.setPorter_hosStore (s : State) (n : Nat) (p : Porter) : (s.setPorter n p).hosStore = s.hosStore := rfl
@[simp] theorem State.setPorter_hosArray (s : State) (n : Nat) (p : Porter) : (s.setPorter n p).hosArray = s.hosArray := rfl
@[simp] theorem State.setPorter_halves (s : State) (n : Nat) (p : Porter) : (s.setPorter n p).halves = s.halves := rfl
@[simp] theorem State.setPorter_uppers (s : State) (n : Nat) (p : Porter) : (s.setPorter n p).uppers = s.uppers := rfl
@[simp] theorem State.setPorter_mesh (s : State) (n : Nat) (p : Porter) : (s.setPorter n p).mesh = s.mesh := rfl
@[simp] theorem State.setPorter_steward (s : State) (n : Nat) (p : Porter) : (s.setPorter n p).steward = s.steward := rfl
@[simp] theorem State.setPorter_sites (s : State) (n : Nat) (p : Porter) : (s.setPorter n p).sites = s.sites := rfl
@[simp] theorem State.setPorter_stops (s : State) (n : Nat) (p : Porter) : (s.setPorter n p).stops = s.stops := rfl
@[simp] theorem State.setPorter_ctu (s : State) (n : Nat) (p : Porter) : (s.setPorter n p).ctu = s.ctu := rfl
@[simp] theorem State.setPorter_couriers (s : State) (n : Nat) (p : Porter) : (s.setPorter n p).couriers = s.couriers := rfl
@[simp] theorem State.setPorter_ox (s : State) (n : Nat) (p : Porter) : (s.setPorter n p).ox = s.ox := rfl
@[simp] theorem State.setPorter_hashes (s : State) (n : Nat) (p : Porter) : (s.setPorter n p).hashes = s.hashes := rfl
@[simp] theorem State.setPorter_launches (s : State) (n : Nat) (p : Porter) : (s.setPorter n p).launches = s.launches := rfl
@[simp] theorem State.setPorter_nextLaunch (s : State) (n : Nat) (p : Porter) : (s.setPorter n p).nextLaunch = s.nextLaunch := rfl
@[simp] theorem State.setPorter_goOrder (s : State) (n : Nat) (p : Porter) : (s.setPorter n p).goOrder = s.goOrder := rfl
@[simp] theorem State.setPorter_mileMsgs (s : State) (n : Nat) (p : Porter) : (s.setPorter n p).mileMsgs = s.mileMsgs := rfl
@[simp] theorem State.setPorter_disp (s : State) (n : Nat) (p : Porter) : (s.setPorter n p).disp = s.disp := rfl
@[simp] theorem State.setPorter_clocks (s : State) (n : Nat) (p : Porter) : (s.setPorter n p).clocks = s.clocks := rfl
@[simp] theorem State.setPorter_lastCkpt (s : State) (n : Nat) (p : Porter) : (s.setPorter n p).lastCkpt = s.lastCkpt := rfl
@[simp] theorem State.setPorter_guestbook (s : State) (n : Nat) (p : Porter) : (s.setPorter n p).guestbook = s.guestbook := rfl
@[simp] theorem State.setPorter_pcie (s : State) (n : Nat) (p : Porter) : (s.setPorter n p).pcie = s.pcie := rfl
@[simp] theorem State.setPorter_power (s : State) (n : Nat) (p : Porter) : (s.setPorter n p).power = s.power := rfl
@[simp] theorem State.setPorter_fuses (s : State) (n : Nat) (p : Porter) : (s.setPorter n p).fuses = s.fuses := rfl
@[simp] theorem State.setPorter_boot (s : State) (n : Nat) (p : Porter) : (s.setPorter n p).boot = s.boot := rfl
@[simp] theorem State.setPorter_sbx (s : State) (n : Nat) (p : Porter) : (s.setPorter n p).sbx = s.sbx := rfl
@[simp] theorem State.setPorter_service (s : State) (n : Nat) (p : Porter) : (s.setPorter n p).service = s.service := rfl
@[simp] theorem State.setPorter_etcLatch (s : State) (n : Nat) (p : Porter) : (s.setPorter n p).etcLatch = s.etcLatch := rfl
@[simp] theorem State.setPorter_finding (s : State) (n : Nat) (p : Porter) : (s.setPorter n p).finding = s.finding := rfl
@[simp] theorem State.setPorter_stewardTx (s : State) (n : Nat) (p : Porter) : (s.setPorter n p).stewardTx = s.stewardTx := rfl

/-! ### State.setScore -/

@[simp] theorem State.setScore_pending (s : State) (k : Nat) (v : SCore) : (s.setScore k v).pending = s.pending := rfl
@[simp] theorem State.setScore_free (s : State) (k : Nat) (v : SCore) : (s.setScore k v).free = s.free := rfl
@[simp] theorem State.setScore_regs (s : State) (k : Nat) (v : SCore) : (s.setScore k v).regs = s.regs := rfl
@[simp] theorem State.setScore_mem (s : State) (k : Nat) (v : SCore) : (s.setScore k v).mem = s.mem := rfl
@[simp] theorem State.setScore_wordErr (s : State) (k : Nat) (v : SCore) : (s.setScore k v).wordErr = s.wordErr := rfl
@[simp] theorem State.setScore_tiles (s : State) (k : Nat) (v : SCore) : (s.setScore k v).tiles = s.tiles := rfl
@[simp] theorem State.setScore_slices (s : State) (k : Nat) (v : SCore) : (s.setScore k v).slices = s.slices := rfl
@[simp] theorem State.setScore_hosGroups (s : State) (k : Nat) (v : SCore) : (s.setScore k v).hosGroups = s.hosGroups := rfl
@[simp] theorem State.setScore_hosBlocks (s : State) (k : Nat) (v : SCore) : (s.setScore k v).hosBlocks = s.hosBlocks := rfl
@[simp] theorem State.setScore_hosCtrs (s : State) (k : Nat) (v : SCore) : (s.setScore k v).hosCtrs = s.hosCtrs := rfl
@[simp] theorem State.setScore_hosStore (s : State) (k : Nat) (v : SCore) : (s.setScore k v).hosStore = s.hosStore := rfl
@[simp] theorem State.setScore_hosArray (s : State) (k : Nat) (v : SCore) : (s.setScore k v).hosArray = s.hosArray := rfl
@[simp] theorem State.setScore_halves (s : State) (k : Nat) (v : SCore) : (s.setScore k v).halves = s.halves := rfl
@[simp] theorem State.setScore_uppers (s : State) (k : Nat) (v : SCore) : (s.setScore k v).uppers = s.uppers := rfl
@[simp] theorem State.setScore_mesh (s : State) (k : Nat) (v : SCore) : (s.setScore k v).mesh = s.mesh := rfl
@[simp] theorem State.setScore_porters (s : State) (k : Nat) (v : SCore) : (s.setScore k v).porters = s.porters := rfl
@[simp] theorem State.setScore_sites (s : State) (k : Nat) (v : SCore) : (s.setScore k v).sites = s.sites := rfl
@[simp] theorem State.setScore_stops (s : State) (k : Nat) (v : SCore) : (s.setScore k v).stops = s.stops := rfl
@[simp] theorem State.setScore_ctu (s : State) (k : Nat) (v : SCore) : (s.setScore k v).ctu = s.ctu := rfl
@[simp] theorem State.setScore_couriers (s : State) (k : Nat) (v : SCore) : (s.setScore k v).couriers = s.couriers := rfl
@[simp] theorem State.setScore_ox (s : State) (k : Nat) (v : SCore) : (s.setScore k v).ox = s.ox := rfl
@[simp] theorem State.setScore_hashes (s : State) (k : Nat) (v : SCore) : (s.setScore k v).hashes = s.hashes := rfl
@[simp] theorem State.setScore_launches (s : State) (k : Nat) (v : SCore) : (s.setScore k v).launches = s.launches := rfl
@[simp] theorem State.setScore_nextLaunch (s : State) (k : Nat) (v : SCore) : (s.setScore k v).nextLaunch = s.nextLaunch := rfl
@[simp] theorem State.setScore_goOrder (s : State) (k : Nat) (v : SCore) : (s.setScore k v).goOrder = s.goOrder := rfl
@[simp] theorem State.setScore_mileMsgs (s : State) (k : Nat) (v : SCore) : (s.setScore k v).mileMsgs = s.mileMsgs := rfl
@[simp] theorem State.setScore_disp (s : State) (k : Nat) (v : SCore) : (s.setScore k v).disp = s.disp := rfl
@[simp] theorem State.setScore_clocks (s : State) (k : Nat) (v : SCore) : (s.setScore k v).clocks = s.clocks := rfl
@[simp] theorem State.setScore_lastCkpt (s : State) (k : Nat) (v : SCore) : (s.setScore k v).lastCkpt = s.lastCkpt := rfl
@[simp] theorem State.setScore_guestbook (s : State) (k : Nat) (v : SCore) : (s.setScore k v).guestbook = s.guestbook := rfl
@[simp] theorem State.setScore_pcie (s : State) (k : Nat) (v : SCore) : (s.setScore k v).pcie = s.pcie := rfl
@[simp] theorem State.setScore_power (s : State) (k : Nat) (v : SCore) : (s.setScore k v).power = s.power := rfl
@[simp] theorem State.setScore_fuses (s : State) (k : Nat) (v : SCore) : (s.setScore k v).fuses = s.fuses := rfl
@[simp] theorem State.setScore_boot (s : State) (k : Nat) (v : SCore) : (s.setScore k v).boot = s.boot := rfl
@[simp] theorem State.setScore_sbx (s : State) (k : Nat) (v : SCore) : (s.setScore k v).sbx = s.sbx := rfl
@[simp] theorem State.setScore_service (s : State) (k : Nat) (v : SCore) : (s.setScore k v).service = s.service := rfl
@[simp] theorem State.setScore_etcLatch (s : State) (k : Nat) (v : SCore) : (s.setScore k v).etcLatch = s.etcLatch := rfl
@[simp] theorem State.setScore_finding (s : State) (k : Nat) (v : SCore) : (s.setScore k v).finding = s.finding := rfl
@[simp] theorem State.setScore_stewardTx (s : State) (k : Nat) (v : SCore) : (s.setScore k v).stewardTx = s.stewardTx := rfl

/-! ### State.updSteward -/

@[simp] theorem State.updSteward_pending (s : State) (f : Steward → Steward) : (s.updSteward f).pending = s.pending := rfl
@[simp] theorem State.updSteward_free (s : State) (f : Steward → Steward) : (s.updSteward f).free = s.free := rfl
@[simp] theorem State.updSteward_regs (s : State) (f : Steward → Steward) : (s.updSteward f).regs = s.regs := rfl
@[simp] theorem State.updSteward_mem (s : State) (f : Steward → Steward) : (s.updSteward f).mem = s.mem := rfl
@[simp] theorem State.updSteward_wordErr (s : State) (f : Steward → Steward) : (s.updSteward f).wordErr = s.wordErr := rfl
@[simp] theorem State.updSteward_tiles (s : State) (f : Steward → Steward) : (s.updSteward f).tiles = s.tiles := rfl
@[simp] theorem State.updSteward_slices (s : State) (f : Steward → Steward) : (s.updSteward f).slices = s.slices := rfl
@[simp] theorem State.updSteward_hosGroups (s : State) (f : Steward → Steward) : (s.updSteward f).hosGroups = s.hosGroups := rfl
@[simp] theorem State.updSteward_hosBlocks (s : State) (f : Steward → Steward) : (s.updSteward f).hosBlocks = s.hosBlocks := rfl
@[simp] theorem State.updSteward_hosCtrs (s : State) (f : Steward → Steward) : (s.updSteward f).hosCtrs = s.hosCtrs := rfl
@[simp] theorem State.updSteward_hosStore (s : State) (f : Steward → Steward) : (s.updSteward f).hosStore = s.hosStore := rfl
@[simp] theorem State.updSteward_hosArray (s : State) (f : Steward → Steward) : (s.updSteward f).hosArray = s.hosArray := rfl
@[simp] theorem State.updSteward_halves (s : State) (f : Steward → Steward) : (s.updSteward f).halves = s.halves := rfl
@[simp] theorem State.updSteward_uppers (s : State) (f : Steward → Steward) : (s.updSteward f).uppers = s.uppers := rfl
@[simp] theorem State.updSteward_mesh (s : State) (f : Steward → Steward) : (s.updSteward f).mesh = s.mesh := rfl
@[simp] theorem State.updSteward_porters (s : State) (f : Steward → Steward) : (s.updSteward f).porters = s.porters := rfl
@[simp] theorem State.updSteward_sites (s : State) (f : Steward → Steward) : (s.updSteward f).sites = s.sites := rfl
@[simp] theorem State.updSteward_stops (s : State) (f : Steward → Steward) : (s.updSteward f).stops = s.stops := rfl
@[simp] theorem State.updSteward_ctu (s : State) (f : Steward → Steward) : (s.updSteward f).ctu = s.ctu := rfl
@[simp] theorem State.updSteward_couriers (s : State) (f : Steward → Steward) : (s.updSteward f).couriers = s.couriers := rfl
@[simp] theorem State.updSteward_ox (s : State) (f : Steward → Steward) : (s.updSteward f).ox = s.ox := rfl
@[simp] theorem State.updSteward_hashes (s : State) (f : Steward → Steward) : (s.updSteward f).hashes = s.hashes := rfl
@[simp] theorem State.updSteward_launches (s : State) (f : Steward → Steward) : (s.updSteward f).launches = s.launches := rfl
@[simp] theorem State.updSteward_nextLaunch (s : State) (f : Steward → Steward) : (s.updSteward f).nextLaunch = s.nextLaunch := rfl
@[simp] theorem State.updSteward_goOrder (s : State) (f : Steward → Steward) : (s.updSteward f).goOrder = s.goOrder := rfl
@[simp] theorem State.updSteward_mileMsgs (s : State) (f : Steward → Steward) : (s.updSteward f).mileMsgs = s.mileMsgs := rfl
@[simp] theorem State.updSteward_disp (s : State) (f : Steward → Steward) : (s.updSteward f).disp = s.disp := rfl
@[simp] theorem State.updSteward_clocks (s : State) (f : Steward → Steward) : (s.updSteward f).clocks = s.clocks := rfl
@[simp] theorem State.updSteward_lastCkpt (s : State) (f : Steward → Steward) : (s.updSteward f).lastCkpt = s.lastCkpt := rfl
@[simp] theorem State.updSteward_guestbook (s : State) (f : Steward → Steward) : (s.updSteward f).guestbook = s.guestbook := rfl
@[simp] theorem State.updSteward_pcie (s : State) (f : Steward → Steward) : (s.updSteward f).pcie = s.pcie := rfl
@[simp] theorem State.updSteward_power (s : State) (f : Steward → Steward) : (s.updSteward f).power = s.power := rfl
@[simp] theorem State.updSteward_fuses (s : State) (f : Steward → Steward) : (s.updSteward f).fuses = s.fuses := rfl
@[simp] theorem State.updSteward_boot (s : State) (f : Steward → Steward) : (s.updSteward f).boot = s.boot := rfl
@[simp] theorem State.updSteward_sbx (s : State) (f : Steward → Steward) : (s.updSteward f).sbx = s.sbx := rfl
@[simp] theorem State.updSteward_service (s : State) (f : Steward → Steward) : (s.updSteward f).service = s.service := rfl
@[simp] theorem State.updSteward_etcLatch (s : State) (f : Steward → Steward) : (s.updSteward f).etcLatch = s.etcLatch := rfl
@[simp] theorem State.updSteward_finding (s : State) (f : Steward → Steward) : (s.updSteward f).finding = s.finding := rfl
@[simp] theorem State.updSteward_stewardTx (s : State) (f : Steward → Steward) : (s.updSteward f).stewardTx = s.stewardTx := rfl

/-! ### State.setSite -/

@[simp] theorem State.setSite_pending (s : State) (i : Nat) (v : Site) : (s.setSite i v).pending = s.pending := rfl
@[simp] theorem State.setSite_free (s : State) (i : Nat) (v : Site) : (s.setSite i v).free = s.free := rfl
@[simp] theorem State.setSite_regs (s : State) (i : Nat) (v : Site) : (s.setSite i v).regs = s.regs := rfl
@[simp] theorem State.setSite_mem (s : State) (i : Nat) (v : Site) : (s.setSite i v).mem = s.mem := rfl
@[simp] theorem State.setSite_wordErr (s : State) (i : Nat) (v : Site) : (s.setSite i v).wordErr = s.wordErr := rfl
@[simp] theorem State.setSite_tiles (s : State) (i : Nat) (v : Site) : (s.setSite i v).tiles = s.tiles := rfl
@[simp] theorem State.setSite_slices (s : State) (i : Nat) (v : Site) : (s.setSite i v).slices = s.slices := rfl
@[simp] theorem State.setSite_hosGroups (s : State) (i : Nat) (v : Site) : (s.setSite i v).hosGroups = s.hosGroups := rfl
@[simp] theorem State.setSite_hosBlocks (s : State) (i : Nat) (v : Site) : (s.setSite i v).hosBlocks = s.hosBlocks := rfl
@[simp] theorem State.setSite_hosCtrs (s : State) (i : Nat) (v : Site) : (s.setSite i v).hosCtrs = s.hosCtrs := rfl
@[simp] theorem State.setSite_hosStore (s : State) (i : Nat) (v : Site) : (s.setSite i v).hosStore = s.hosStore := rfl
@[simp] theorem State.setSite_hosArray (s : State) (i : Nat) (v : Site) : (s.setSite i v).hosArray = s.hosArray := rfl
@[simp] theorem State.setSite_halves (s : State) (i : Nat) (v : Site) : (s.setSite i v).halves = s.halves := rfl
@[simp] theorem State.setSite_uppers (s : State) (i : Nat) (v : Site) : (s.setSite i v).uppers = s.uppers := rfl
@[simp] theorem State.setSite_mesh (s : State) (i : Nat) (v : Site) : (s.setSite i v).mesh = s.mesh := rfl
@[simp] theorem State.setSite_porters (s : State) (i : Nat) (v : Site) : (s.setSite i v).porters = s.porters := rfl
@[simp] theorem State.setSite_steward (s : State) (i : Nat) (v : Site) : (s.setSite i v).steward = s.steward := rfl
@[simp] theorem State.setSite_stops (s : State) (i : Nat) (v : Site) : (s.setSite i v).stops = s.stops := rfl
@[simp] theorem State.setSite_ctu (s : State) (i : Nat) (v : Site) : (s.setSite i v).ctu = s.ctu := rfl
@[simp] theorem State.setSite_couriers (s : State) (i : Nat) (v : Site) : (s.setSite i v).couriers = s.couriers := rfl
@[simp] theorem State.setSite_ox (s : State) (i : Nat) (v : Site) : (s.setSite i v).ox = s.ox := rfl
@[simp] theorem State.setSite_hashes (s : State) (i : Nat) (v : Site) : (s.setSite i v).hashes = s.hashes := rfl
@[simp] theorem State.setSite_launches (s : State) (i : Nat) (v : Site) : (s.setSite i v).launches = s.launches := rfl
@[simp] theorem State.setSite_nextLaunch (s : State) (i : Nat) (v : Site) : (s.setSite i v).nextLaunch = s.nextLaunch := rfl
@[simp] theorem State.setSite_goOrder (s : State) (i : Nat) (v : Site) : (s.setSite i v).goOrder = s.goOrder := rfl
@[simp] theorem State.setSite_mileMsgs (s : State) (i : Nat) (v : Site) : (s.setSite i v).mileMsgs = s.mileMsgs := rfl
@[simp] theorem State.setSite_disp (s : State) (i : Nat) (v : Site) : (s.setSite i v).disp = s.disp := rfl
@[simp] theorem State.setSite_clocks (s : State) (i : Nat) (v : Site) : (s.setSite i v).clocks = s.clocks := rfl
@[simp] theorem State.setSite_lastCkpt (s : State) (i : Nat) (v : Site) : (s.setSite i v).lastCkpt = s.lastCkpt := rfl
@[simp] theorem State.setSite_guestbook (s : State) (i : Nat) (v : Site) : (s.setSite i v).guestbook = s.guestbook := rfl
@[simp] theorem State.setSite_pcie (s : State) (i : Nat) (v : Site) : (s.setSite i v).pcie = s.pcie := rfl
@[simp] theorem State.setSite_power (s : State) (i : Nat) (v : Site) : (s.setSite i v).power = s.power := rfl
@[simp] theorem State.setSite_fuses (s : State) (i : Nat) (v : Site) : (s.setSite i v).fuses = s.fuses := rfl
@[simp] theorem State.setSite_boot (s : State) (i : Nat) (v : Site) : (s.setSite i v).boot = s.boot := rfl
@[simp] theorem State.setSite_sbx (s : State) (i : Nat) (v : Site) : (s.setSite i v).sbx = s.sbx := rfl
@[simp] theorem State.setSite_service (s : State) (i : Nat) (v : Site) : (s.setSite i v).service = s.service := rfl
@[simp] theorem State.setSite_etcLatch (s : State) (i : Nat) (v : Site) : (s.setSite i v).etcLatch = s.etcLatch := rfl
@[simp] theorem State.setSite_finding (s : State) (i : Nat) (v : Site) : (s.setSite i v).finding = s.finding := rfl
@[simp] theorem State.setSite_stewardTx (s : State) (i : Nat) (v : Site) : (s.setSite i v).stewardTx = s.stewardTx := rfl

/-! ### State.setStop -/

@[simp] theorem State.setStop_pending (s : State) (k : Nat) (v : Stop) : (s.setStop k v).pending = s.pending := rfl
@[simp] theorem State.setStop_free (s : State) (k : Nat) (v : Stop) : (s.setStop k v).free = s.free := rfl
@[simp] theorem State.setStop_regs (s : State) (k : Nat) (v : Stop) : (s.setStop k v).regs = s.regs := rfl
@[simp] theorem State.setStop_mem (s : State) (k : Nat) (v : Stop) : (s.setStop k v).mem = s.mem := rfl
@[simp] theorem State.setStop_wordErr (s : State) (k : Nat) (v : Stop) : (s.setStop k v).wordErr = s.wordErr := rfl
@[simp] theorem State.setStop_tiles (s : State) (k : Nat) (v : Stop) : (s.setStop k v).tiles = s.tiles := rfl
@[simp] theorem State.setStop_slices (s : State) (k : Nat) (v : Stop) : (s.setStop k v).slices = s.slices := rfl
@[simp] theorem State.setStop_hosGroups (s : State) (k : Nat) (v : Stop) : (s.setStop k v).hosGroups = s.hosGroups := rfl
@[simp] theorem State.setStop_hosBlocks (s : State) (k : Nat) (v : Stop) : (s.setStop k v).hosBlocks = s.hosBlocks := rfl
@[simp] theorem State.setStop_hosCtrs (s : State) (k : Nat) (v : Stop) : (s.setStop k v).hosCtrs = s.hosCtrs := rfl
@[simp] theorem State.setStop_hosStore (s : State) (k : Nat) (v : Stop) : (s.setStop k v).hosStore = s.hosStore := rfl
@[simp] theorem State.setStop_hosArray (s : State) (k : Nat) (v : Stop) : (s.setStop k v).hosArray = s.hosArray := rfl
@[simp] theorem State.setStop_halves (s : State) (k : Nat) (v : Stop) : (s.setStop k v).halves = s.halves := rfl
@[simp] theorem State.setStop_uppers (s : State) (k : Nat) (v : Stop) : (s.setStop k v).uppers = s.uppers := rfl
@[simp] theorem State.setStop_mesh (s : State) (k : Nat) (v : Stop) : (s.setStop k v).mesh = s.mesh := rfl
@[simp] theorem State.setStop_porters (s : State) (k : Nat) (v : Stop) : (s.setStop k v).porters = s.porters := rfl
@[simp] theorem State.setStop_steward (s : State) (k : Nat) (v : Stop) : (s.setStop k v).steward = s.steward := rfl
@[simp] theorem State.setStop_sites (s : State) (k : Nat) (v : Stop) : (s.setStop k v).sites = s.sites := rfl
@[simp] theorem State.setStop_ctu (s : State) (k : Nat) (v : Stop) : (s.setStop k v).ctu = s.ctu := rfl
@[simp] theorem State.setStop_couriers (s : State) (k : Nat) (v : Stop) : (s.setStop k v).couriers = s.couriers := rfl
@[simp] theorem State.setStop_ox (s : State) (k : Nat) (v : Stop) : (s.setStop k v).ox = s.ox := rfl
@[simp] theorem State.setStop_hashes (s : State) (k : Nat) (v : Stop) : (s.setStop k v).hashes = s.hashes := rfl
@[simp] theorem State.setStop_launches (s : State) (k : Nat) (v : Stop) : (s.setStop k v).launches = s.launches := rfl
@[simp] theorem State.setStop_nextLaunch (s : State) (k : Nat) (v : Stop) : (s.setStop k v).nextLaunch = s.nextLaunch := rfl
@[simp] theorem State.setStop_goOrder (s : State) (k : Nat) (v : Stop) : (s.setStop k v).goOrder = s.goOrder := rfl
@[simp] theorem State.setStop_mileMsgs (s : State) (k : Nat) (v : Stop) : (s.setStop k v).mileMsgs = s.mileMsgs := rfl
@[simp] theorem State.setStop_disp (s : State) (k : Nat) (v : Stop) : (s.setStop k v).disp = s.disp := rfl
@[simp] theorem State.setStop_clocks (s : State) (k : Nat) (v : Stop) : (s.setStop k v).clocks = s.clocks := rfl
@[simp] theorem State.setStop_lastCkpt (s : State) (k : Nat) (v : Stop) : (s.setStop k v).lastCkpt = s.lastCkpt := rfl
@[simp] theorem State.setStop_guestbook (s : State) (k : Nat) (v : Stop) : (s.setStop k v).guestbook = s.guestbook := rfl
@[simp] theorem State.setStop_pcie (s : State) (k : Nat) (v : Stop) : (s.setStop k v).pcie = s.pcie := rfl
@[simp] theorem State.setStop_power (s : State) (k : Nat) (v : Stop) : (s.setStop k v).power = s.power := rfl
@[simp] theorem State.setStop_fuses (s : State) (k : Nat) (v : Stop) : (s.setStop k v).fuses = s.fuses := rfl
@[simp] theorem State.setStop_boot (s : State) (k : Nat) (v : Stop) : (s.setStop k v).boot = s.boot := rfl
@[simp] theorem State.setStop_sbx (s : State) (k : Nat) (v : Stop) : (s.setStop k v).sbx = s.sbx := rfl
@[simp] theorem State.setStop_service (s : State) (k : Nat) (v : Stop) : (s.setStop k v).service = s.service := rfl
@[simp] theorem State.setStop_etcLatch (s : State) (k : Nat) (v : Stop) : (s.setStop k v).etcLatch = s.etcLatch := rfl
@[simp] theorem State.setStop_finding (s : State) (k : Nat) (v : Stop) : (s.setStop k v).finding = s.finding := rfl
@[simp] theorem State.setStop_stewardTx (s : State) (k : Nat) (v : Stop) : (s.setStop k v).stewardTx = s.stewardTx := rfl

/-! ### State.updCtu -/

@[simp] theorem State.updCtu_pending (s : State) (f : Ctu → Ctu) : (s.updCtu f).pending = s.pending := rfl
@[simp] theorem State.updCtu_free (s : State) (f : Ctu → Ctu) : (s.updCtu f).free = s.free := rfl
@[simp] theorem State.updCtu_regs (s : State) (f : Ctu → Ctu) : (s.updCtu f).regs = s.regs := rfl
@[simp] theorem State.updCtu_mem (s : State) (f : Ctu → Ctu) : (s.updCtu f).mem = s.mem := rfl
@[simp] theorem State.updCtu_wordErr (s : State) (f : Ctu → Ctu) : (s.updCtu f).wordErr = s.wordErr := rfl
@[simp] theorem State.updCtu_tiles (s : State) (f : Ctu → Ctu) : (s.updCtu f).tiles = s.tiles := rfl
@[simp] theorem State.updCtu_slices (s : State) (f : Ctu → Ctu) : (s.updCtu f).slices = s.slices := rfl
@[simp] theorem State.updCtu_hosGroups (s : State) (f : Ctu → Ctu) : (s.updCtu f).hosGroups = s.hosGroups := rfl
@[simp] theorem State.updCtu_hosBlocks (s : State) (f : Ctu → Ctu) : (s.updCtu f).hosBlocks = s.hosBlocks := rfl
@[simp] theorem State.updCtu_hosCtrs (s : State) (f : Ctu → Ctu) : (s.updCtu f).hosCtrs = s.hosCtrs := rfl
@[simp] theorem State.updCtu_hosStore (s : State) (f : Ctu → Ctu) : (s.updCtu f).hosStore = s.hosStore := rfl
@[simp] theorem State.updCtu_hosArray (s : State) (f : Ctu → Ctu) : (s.updCtu f).hosArray = s.hosArray := rfl
@[simp] theorem State.updCtu_halves (s : State) (f : Ctu → Ctu) : (s.updCtu f).halves = s.halves := rfl
@[simp] theorem State.updCtu_uppers (s : State) (f : Ctu → Ctu) : (s.updCtu f).uppers = s.uppers := rfl
@[simp] theorem State.updCtu_mesh (s : State) (f : Ctu → Ctu) : (s.updCtu f).mesh = s.mesh := rfl
@[simp] theorem State.updCtu_porters (s : State) (f : Ctu → Ctu) : (s.updCtu f).porters = s.porters := rfl
@[simp] theorem State.updCtu_steward (s : State) (f : Ctu → Ctu) : (s.updCtu f).steward = s.steward := rfl
@[simp] theorem State.updCtu_sites (s : State) (f : Ctu → Ctu) : (s.updCtu f).sites = s.sites := rfl
@[simp] theorem State.updCtu_stops (s : State) (f : Ctu → Ctu) : (s.updCtu f).stops = s.stops := rfl
@[simp] theorem State.updCtu_couriers (s : State) (f : Ctu → Ctu) : (s.updCtu f).couriers = s.couriers := rfl
@[simp] theorem State.updCtu_ox (s : State) (f : Ctu → Ctu) : (s.updCtu f).ox = s.ox := rfl
@[simp] theorem State.updCtu_hashes (s : State) (f : Ctu → Ctu) : (s.updCtu f).hashes = s.hashes := rfl
@[simp] theorem State.updCtu_launches (s : State) (f : Ctu → Ctu) : (s.updCtu f).launches = s.launches := rfl
@[simp] theorem State.updCtu_nextLaunch (s : State) (f : Ctu → Ctu) : (s.updCtu f).nextLaunch = s.nextLaunch := rfl
@[simp] theorem State.updCtu_goOrder (s : State) (f : Ctu → Ctu) : (s.updCtu f).goOrder = s.goOrder := rfl
@[simp] theorem State.updCtu_mileMsgs (s : State) (f : Ctu → Ctu) : (s.updCtu f).mileMsgs = s.mileMsgs := rfl
@[simp] theorem State.updCtu_disp (s : State) (f : Ctu → Ctu) : (s.updCtu f).disp = s.disp := rfl
@[simp] theorem State.updCtu_clocks (s : State) (f : Ctu → Ctu) : (s.updCtu f).clocks = s.clocks := rfl
@[simp] theorem State.updCtu_lastCkpt (s : State) (f : Ctu → Ctu) : (s.updCtu f).lastCkpt = s.lastCkpt := rfl
@[simp] theorem State.updCtu_guestbook (s : State) (f : Ctu → Ctu) : (s.updCtu f).guestbook = s.guestbook := rfl
@[simp] theorem State.updCtu_pcie (s : State) (f : Ctu → Ctu) : (s.updCtu f).pcie = s.pcie := rfl
@[simp] theorem State.updCtu_power (s : State) (f : Ctu → Ctu) : (s.updCtu f).power = s.power := rfl
@[simp] theorem State.updCtu_fuses (s : State) (f : Ctu → Ctu) : (s.updCtu f).fuses = s.fuses := rfl
@[simp] theorem State.updCtu_boot (s : State) (f : Ctu → Ctu) : (s.updCtu f).boot = s.boot := rfl
@[simp] theorem State.updCtu_sbx (s : State) (f : Ctu → Ctu) : (s.updCtu f).sbx = s.sbx := rfl
@[simp] theorem State.updCtu_service (s : State) (f : Ctu → Ctu) : (s.updCtu f).service = s.service := rfl
@[simp] theorem State.updCtu_etcLatch (s : State) (f : Ctu → Ctu) : (s.updCtu f).etcLatch = s.etcLatch := rfl
@[simp] theorem State.updCtu_finding (s : State) (f : Ctu → Ctu) : (s.updCtu f).finding = s.finding := rfl
@[simp] theorem State.updCtu_stewardTx (s : State) (f : Ctu → Ctu) : (s.updCtu f).stewardTx = s.stewardTx := rfl

/-! ### State.setChan -/

@[simp] theorem State.setChan_pending (s : State) (c ch : Nat) (v : Chan) : (s.setChan c ch v).pending = s.pending := rfl
@[simp] theorem State.setChan_free (s : State) (c ch : Nat) (v : Chan) : (s.setChan c ch v).free = s.free := rfl
@[simp] theorem State.setChan_regs (s : State) (c ch : Nat) (v : Chan) : (s.setChan c ch v).regs = s.regs := rfl
@[simp] theorem State.setChan_mem (s : State) (c ch : Nat) (v : Chan) : (s.setChan c ch v).mem = s.mem := rfl
@[simp] theorem State.setChan_wordErr (s : State) (c ch : Nat) (v : Chan) : (s.setChan c ch v).wordErr = s.wordErr := rfl
@[simp] theorem State.setChan_tiles (s : State) (c ch : Nat) (v : Chan) : (s.setChan c ch v).tiles = s.tiles := rfl
@[simp] theorem State.setChan_slices (s : State) (c ch : Nat) (v : Chan) : (s.setChan c ch v).slices = s.slices := rfl
@[simp] theorem State.setChan_hosGroups (s : State) (c ch : Nat) (v : Chan) : (s.setChan c ch v).hosGroups = s.hosGroups := rfl
@[simp] theorem State.setChan_hosBlocks (s : State) (c ch : Nat) (v : Chan) : (s.setChan c ch v).hosBlocks = s.hosBlocks := rfl
@[simp] theorem State.setChan_hosCtrs (s : State) (c ch : Nat) (v : Chan) : (s.setChan c ch v).hosCtrs = s.hosCtrs := rfl
@[simp] theorem State.setChan_hosStore (s : State) (c ch : Nat) (v : Chan) : (s.setChan c ch v).hosStore = s.hosStore := rfl
@[simp] theorem State.setChan_hosArray (s : State) (c ch : Nat) (v : Chan) : (s.setChan c ch v).hosArray = s.hosArray := rfl
@[simp] theorem State.setChan_halves (s : State) (c ch : Nat) (v : Chan) : (s.setChan c ch v).halves = s.halves := rfl
@[simp] theorem State.setChan_uppers (s : State) (c ch : Nat) (v : Chan) : (s.setChan c ch v).uppers = s.uppers := rfl
@[simp] theorem State.setChan_mesh (s : State) (c ch : Nat) (v : Chan) : (s.setChan c ch v).mesh = s.mesh := rfl
@[simp] theorem State.setChan_porters (s : State) (c ch : Nat) (v : Chan) : (s.setChan c ch v).porters = s.porters := rfl
@[simp] theorem State.setChan_steward (s : State) (c ch : Nat) (v : Chan) : (s.setChan c ch v).steward = s.steward := rfl
@[simp] theorem State.setChan_sites (s : State) (c ch : Nat) (v : Chan) : (s.setChan c ch v).sites = s.sites := rfl
@[simp] theorem State.setChan_stops (s : State) (c ch : Nat) (v : Chan) : (s.setChan c ch v).stops = s.stops := rfl
@[simp] theorem State.setChan_ctu (s : State) (c ch : Nat) (v : Chan) : (s.setChan c ch v).ctu = s.ctu := rfl
@[simp] theorem State.setChan_ox (s : State) (c ch : Nat) (v : Chan) : (s.setChan c ch v).ox = s.ox := rfl
@[simp] theorem State.setChan_hashes (s : State) (c ch : Nat) (v : Chan) : (s.setChan c ch v).hashes = s.hashes := rfl
@[simp] theorem State.setChan_launches (s : State) (c ch : Nat) (v : Chan) : (s.setChan c ch v).launches = s.launches := rfl
@[simp] theorem State.setChan_nextLaunch (s : State) (c ch : Nat) (v : Chan) : (s.setChan c ch v).nextLaunch = s.nextLaunch := rfl
@[simp] theorem State.setChan_goOrder (s : State) (c ch : Nat) (v : Chan) : (s.setChan c ch v).goOrder = s.goOrder := rfl
@[simp] theorem State.setChan_mileMsgs (s : State) (c ch : Nat) (v : Chan) : (s.setChan c ch v).mileMsgs = s.mileMsgs := rfl
@[simp] theorem State.setChan_disp (s : State) (c ch : Nat) (v : Chan) : (s.setChan c ch v).disp = s.disp := rfl
@[simp] theorem State.setChan_clocks (s : State) (c ch : Nat) (v : Chan) : (s.setChan c ch v).clocks = s.clocks := rfl
@[simp] theorem State.setChan_lastCkpt (s : State) (c ch : Nat) (v : Chan) : (s.setChan c ch v).lastCkpt = s.lastCkpt := rfl
@[simp] theorem State.setChan_guestbook (s : State) (c ch : Nat) (v : Chan) : (s.setChan c ch v).guestbook = s.guestbook := rfl
@[simp] theorem State.setChan_pcie (s : State) (c ch : Nat) (v : Chan) : (s.setChan c ch v).pcie = s.pcie := rfl
@[simp] theorem State.setChan_power (s : State) (c ch : Nat) (v : Chan) : (s.setChan c ch v).power = s.power := rfl
@[simp] theorem State.setChan_fuses (s : State) (c ch : Nat) (v : Chan) : (s.setChan c ch v).fuses = s.fuses := rfl
@[simp] theorem State.setChan_boot (s : State) (c ch : Nat) (v : Chan) : (s.setChan c ch v).boot = s.boot := rfl
@[simp] theorem State.setChan_sbx (s : State) (c ch : Nat) (v : Chan) : (s.setChan c ch v).sbx = s.sbx := rfl
@[simp] theorem State.setChan_service (s : State) (c ch : Nat) (v : Chan) : (s.setChan c ch v).service = s.service := rfl
@[simp] theorem State.setChan_etcLatch (s : State) (c ch : Nat) (v : Chan) : (s.setChan c ch v).etcLatch = s.etcLatch := rfl
@[simp] theorem State.setChan_finding (s : State) (c ch : Nat) (v : Chan) : (s.setChan c ch v).finding = s.finding := rfl
@[simp] theorem State.setChan_stewardTx (s : State) (c ch : Nat) (v : Chan) : (s.setChan c ch v).stewardTx = s.stewardTx := rfl

/-! ### State.setOxl -/

@[simp] theorem State.setOxl_pending (s : State) (x : Nat) (v : Oxlux) : (s.setOxl x v).pending = s.pending := rfl
@[simp] theorem State.setOxl_free (s : State) (x : Nat) (v : Oxlux) : (s.setOxl x v).free = s.free := rfl
@[simp] theorem State.setOxl_regs (s : State) (x : Nat) (v : Oxlux) : (s.setOxl x v).regs = s.regs := rfl
@[simp] theorem State.setOxl_mem (s : State) (x : Nat) (v : Oxlux) : (s.setOxl x v).mem = s.mem := rfl
@[simp] theorem State.setOxl_wordErr (s : State) (x : Nat) (v : Oxlux) : (s.setOxl x v).wordErr = s.wordErr := rfl
@[simp] theorem State.setOxl_tiles (s : State) (x : Nat) (v : Oxlux) : (s.setOxl x v).tiles = s.tiles := rfl
@[simp] theorem State.setOxl_slices (s : State) (x : Nat) (v : Oxlux) : (s.setOxl x v).slices = s.slices := rfl
@[simp] theorem State.setOxl_hosGroups (s : State) (x : Nat) (v : Oxlux) : (s.setOxl x v).hosGroups = s.hosGroups := rfl
@[simp] theorem State.setOxl_hosBlocks (s : State) (x : Nat) (v : Oxlux) : (s.setOxl x v).hosBlocks = s.hosBlocks := rfl
@[simp] theorem State.setOxl_hosCtrs (s : State) (x : Nat) (v : Oxlux) : (s.setOxl x v).hosCtrs = s.hosCtrs := rfl
@[simp] theorem State.setOxl_hosStore (s : State) (x : Nat) (v : Oxlux) : (s.setOxl x v).hosStore = s.hosStore := rfl
@[simp] theorem State.setOxl_hosArray (s : State) (x : Nat) (v : Oxlux) : (s.setOxl x v).hosArray = s.hosArray := rfl
@[simp] theorem State.setOxl_halves (s : State) (x : Nat) (v : Oxlux) : (s.setOxl x v).halves = s.halves := rfl
@[simp] theorem State.setOxl_uppers (s : State) (x : Nat) (v : Oxlux) : (s.setOxl x v).uppers = s.uppers := rfl
@[simp] theorem State.setOxl_mesh (s : State) (x : Nat) (v : Oxlux) : (s.setOxl x v).mesh = s.mesh := rfl
@[simp] theorem State.setOxl_porters (s : State) (x : Nat) (v : Oxlux) : (s.setOxl x v).porters = s.porters := rfl
@[simp] theorem State.setOxl_steward (s : State) (x : Nat) (v : Oxlux) : (s.setOxl x v).steward = s.steward := rfl
@[simp] theorem State.setOxl_sites (s : State) (x : Nat) (v : Oxlux) : (s.setOxl x v).sites = s.sites := rfl
@[simp] theorem State.setOxl_stops (s : State) (x : Nat) (v : Oxlux) : (s.setOxl x v).stops = s.stops := rfl
@[simp] theorem State.setOxl_ctu (s : State) (x : Nat) (v : Oxlux) : (s.setOxl x v).ctu = s.ctu := rfl
@[simp] theorem State.setOxl_couriers (s : State) (x : Nat) (v : Oxlux) : (s.setOxl x v).couriers = s.couriers := rfl
@[simp] theorem State.setOxl_hashes (s : State) (x : Nat) (v : Oxlux) : (s.setOxl x v).hashes = s.hashes := rfl
@[simp] theorem State.setOxl_launches (s : State) (x : Nat) (v : Oxlux) : (s.setOxl x v).launches = s.launches := rfl
@[simp] theorem State.setOxl_nextLaunch (s : State) (x : Nat) (v : Oxlux) : (s.setOxl x v).nextLaunch = s.nextLaunch := rfl
@[simp] theorem State.setOxl_goOrder (s : State) (x : Nat) (v : Oxlux) : (s.setOxl x v).goOrder = s.goOrder := rfl
@[simp] theorem State.setOxl_mileMsgs (s : State) (x : Nat) (v : Oxlux) : (s.setOxl x v).mileMsgs = s.mileMsgs := rfl
@[simp] theorem State.setOxl_disp (s : State) (x : Nat) (v : Oxlux) : (s.setOxl x v).disp = s.disp := rfl
@[simp] theorem State.setOxl_clocks (s : State) (x : Nat) (v : Oxlux) : (s.setOxl x v).clocks = s.clocks := rfl
@[simp] theorem State.setOxl_lastCkpt (s : State) (x : Nat) (v : Oxlux) : (s.setOxl x v).lastCkpt = s.lastCkpt := rfl
@[simp] theorem State.setOxl_guestbook (s : State) (x : Nat) (v : Oxlux) : (s.setOxl x v).guestbook = s.guestbook := rfl
@[simp] theorem State.setOxl_pcie (s : State) (x : Nat) (v : Oxlux) : (s.setOxl x v).pcie = s.pcie := rfl
@[simp] theorem State.setOxl_power (s : State) (x : Nat) (v : Oxlux) : (s.setOxl x v).power = s.power := rfl
@[simp] theorem State.setOxl_fuses (s : State) (x : Nat) (v : Oxlux) : (s.setOxl x v).fuses = s.fuses := rfl
@[simp] theorem State.setOxl_boot (s : State) (x : Nat) (v : Oxlux) : (s.setOxl x v).boot = s.boot := rfl
@[simp] theorem State.setOxl_sbx (s : State) (x : Nat) (v : Oxlux) : (s.setOxl x v).sbx = s.sbx := rfl
@[simp] theorem State.setOxl_service (s : State) (x : Nat) (v : Oxlux) : (s.setOxl x v).service = s.service := rfl
@[simp] theorem State.setOxl_etcLatch (s : State) (x : Nat) (v : Oxlux) : (s.setOxl x v).etcLatch = s.etcLatch := rfl
@[simp] theorem State.setOxl_finding (s : State) (x : Nat) (v : Oxlux) : (s.setOxl x v).finding = s.finding := rfl
@[simp] theorem State.setOxl_stewardTx (s : State) (x : Nat) (v : Oxlux) : (s.setOxl x v).stewardTx = s.stewardTx := rfl

/-! ### State.setHashCtx -/

@[simp] theorem State.setHashCtx_pending (s : State) (k h : Nat) (v : HashCtx) : (s.setHashCtx k h v).pending = s.pending := rfl
@[simp] theorem State.setHashCtx_free (s : State) (k h : Nat) (v : HashCtx) : (s.setHashCtx k h v).free = s.free := rfl
@[simp] theorem State.setHashCtx_regs (s : State) (k h : Nat) (v : HashCtx) : (s.setHashCtx k h v).regs = s.regs := rfl
@[simp] theorem State.setHashCtx_mem (s : State) (k h : Nat) (v : HashCtx) : (s.setHashCtx k h v).mem = s.mem := rfl
@[simp] theorem State.setHashCtx_wordErr (s : State) (k h : Nat) (v : HashCtx) : (s.setHashCtx k h v).wordErr = s.wordErr := rfl
@[simp] theorem State.setHashCtx_tiles (s : State) (k h : Nat) (v : HashCtx) : (s.setHashCtx k h v).tiles = s.tiles := rfl
@[simp] theorem State.setHashCtx_slices (s : State) (k h : Nat) (v : HashCtx) : (s.setHashCtx k h v).slices = s.slices := rfl
@[simp] theorem State.setHashCtx_hosGroups (s : State) (k h : Nat) (v : HashCtx) : (s.setHashCtx k h v).hosGroups = s.hosGroups := rfl
@[simp] theorem State.setHashCtx_hosBlocks (s : State) (k h : Nat) (v : HashCtx) : (s.setHashCtx k h v).hosBlocks = s.hosBlocks := rfl
@[simp] theorem State.setHashCtx_hosCtrs (s : State) (k h : Nat) (v : HashCtx) : (s.setHashCtx k h v).hosCtrs = s.hosCtrs := rfl
@[simp] theorem State.setHashCtx_hosStore (s : State) (k h : Nat) (v : HashCtx) : (s.setHashCtx k h v).hosStore = s.hosStore := rfl
@[simp] theorem State.setHashCtx_hosArray (s : State) (k h : Nat) (v : HashCtx) : (s.setHashCtx k h v).hosArray = s.hosArray := rfl
@[simp] theorem State.setHashCtx_halves (s : State) (k h : Nat) (v : HashCtx) : (s.setHashCtx k h v).halves = s.halves := rfl
@[simp] theorem State.setHashCtx_uppers (s : State) (k h : Nat) (v : HashCtx) : (s.setHashCtx k h v).uppers = s.uppers := rfl
@[simp] theorem State.setHashCtx_mesh (s : State) (k h : Nat) (v : HashCtx) : (s.setHashCtx k h v).mesh = s.mesh := rfl
@[simp] theorem State.setHashCtx_porters (s : State) (k h : Nat) (v : HashCtx) : (s.setHashCtx k h v).porters = s.porters := rfl
@[simp] theorem State.setHashCtx_steward (s : State) (k h : Nat) (v : HashCtx) : (s.setHashCtx k h v).steward = s.steward := rfl
@[simp] theorem State.setHashCtx_sites (s : State) (k h : Nat) (v : HashCtx) : (s.setHashCtx k h v).sites = s.sites := rfl
@[simp] theorem State.setHashCtx_stops (s : State) (k h : Nat) (v : HashCtx) : (s.setHashCtx k h v).stops = s.stops := rfl
@[simp] theorem State.setHashCtx_ctu (s : State) (k h : Nat) (v : HashCtx) : (s.setHashCtx k h v).ctu = s.ctu := rfl
@[simp] theorem State.setHashCtx_couriers (s : State) (k h : Nat) (v : HashCtx) : (s.setHashCtx k h v).couriers = s.couriers := rfl
@[simp] theorem State.setHashCtx_ox (s : State) (k h : Nat) (v : HashCtx) : (s.setHashCtx k h v).ox = s.ox := rfl
@[simp] theorem State.setHashCtx_launches (s : State) (k h : Nat) (v : HashCtx) : (s.setHashCtx k h v).launches = s.launches := rfl
@[simp] theorem State.setHashCtx_nextLaunch (s : State) (k h : Nat) (v : HashCtx) : (s.setHashCtx k h v).nextLaunch = s.nextLaunch := rfl
@[simp] theorem State.setHashCtx_goOrder (s : State) (k h : Nat) (v : HashCtx) : (s.setHashCtx k h v).goOrder = s.goOrder := rfl
@[simp] theorem State.setHashCtx_mileMsgs (s : State) (k h : Nat) (v : HashCtx) : (s.setHashCtx k h v).mileMsgs = s.mileMsgs := rfl
@[simp] theorem State.setHashCtx_disp (s : State) (k h : Nat) (v : HashCtx) : (s.setHashCtx k h v).disp = s.disp := rfl
@[simp] theorem State.setHashCtx_clocks (s : State) (k h : Nat) (v : HashCtx) : (s.setHashCtx k h v).clocks = s.clocks := rfl
@[simp] theorem State.setHashCtx_lastCkpt (s : State) (k h : Nat) (v : HashCtx) : (s.setHashCtx k h v).lastCkpt = s.lastCkpt := rfl
@[simp] theorem State.setHashCtx_guestbook (s : State) (k h : Nat) (v : HashCtx) : (s.setHashCtx k h v).guestbook = s.guestbook := rfl
@[simp] theorem State.setHashCtx_pcie (s : State) (k h : Nat) (v : HashCtx) : (s.setHashCtx k h v).pcie = s.pcie := rfl
@[simp] theorem State.setHashCtx_power (s : State) (k h : Nat) (v : HashCtx) : (s.setHashCtx k h v).power = s.power := rfl
@[simp] theorem State.setHashCtx_fuses (s : State) (k h : Nat) (v : HashCtx) : (s.setHashCtx k h v).fuses = s.fuses := rfl
@[simp] theorem State.setHashCtx_boot (s : State) (k h : Nat) (v : HashCtx) : (s.setHashCtx k h v).boot = s.boot := rfl
@[simp] theorem State.setHashCtx_sbx (s : State) (k h : Nat) (v : HashCtx) : (s.setHashCtx k h v).sbx = s.sbx := rfl
@[simp] theorem State.setHashCtx_service (s : State) (k h : Nat) (v : HashCtx) : (s.setHashCtx k h v).service = s.service := rfl
@[simp] theorem State.setHashCtx_etcLatch (s : State) (k h : Nat) (v : HashCtx) : (s.setHashCtx k h v).etcLatch = s.etcLatch := rfl
@[simp] theorem State.setHashCtx_finding (s : State) (k h : Nat) (v : HashCtx) : (s.setHashCtx k h v).finding = s.finding := rfl
@[simp] theorem State.setHashCtx_stewardTx (s : State) (k h : Nat) (v : HashCtx) : (s.setHashCtx k h v).stewardTx = s.stewardTx := rfl

/-! ### State.setLaunch -/

@[simp] theorem State.setLaunch_pending (s : State) (k : Nat) (v : Launch) : (s.setLaunch k v).pending = s.pending := rfl
@[simp] theorem State.setLaunch_free (s : State) (k : Nat) (v : Launch) : (s.setLaunch k v).free = s.free := rfl
@[simp] theorem State.setLaunch_regs (s : State) (k : Nat) (v : Launch) : (s.setLaunch k v).regs = s.regs := rfl
@[simp] theorem State.setLaunch_mem (s : State) (k : Nat) (v : Launch) : (s.setLaunch k v).mem = s.mem := rfl
@[simp] theorem State.setLaunch_wordErr (s : State) (k : Nat) (v : Launch) : (s.setLaunch k v).wordErr = s.wordErr := rfl
@[simp] theorem State.setLaunch_tiles (s : State) (k : Nat) (v : Launch) : (s.setLaunch k v).tiles = s.tiles := rfl
@[simp] theorem State.setLaunch_slices (s : State) (k : Nat) (v : Launch) : (s.setLaunch k v).slices = s.slices := rfl
@[simp] theorem State.setLaunch_hosGroups (s : State) (k : Nat) (v : Launch) : (s.setLaunch k v).hosGroups = s.hosGroups := rfl
@[simp] theorem State.setLaunch_hosBlocks (s : State) (k : Nat) (v : Launch) : (s.setLaunch k v).hosBlocks = s.hosBlocks := rfl
@[simp] theorem State.setLaunch_hosCtrs (s : State) (k : Nat) (v : Launch) : (s.setLaunch k v).hosCtrs = s.hosCtrs := rfl
@[simp] theorem State.setLaunch_hosStore (s : State) (k : Nat) (v : Launch) : (s.setLaunch k v).hosStore = s.hosStore := rfl
@[simp] theorem State.setLaunch_hosArray (s : State) (k : Nat) (v : Launch) : (s.setLaunch k v).hosArray = s.hosArray := rfl
@[simp] theorem State.setLaunch_halves (s : State) (k : Nat) (v : Launch) : (s.setLaunch k v).halves = s.halves := rfl
@[simp] theorem State.setLaunch_uppers (s : State) (k : Nat) (v : Launch) : (s.setLaunch k v).uppers = s.uppers := rfl
@[simp] theorem State.setLaunch_mesh (s : State) (k : Nat) (v : Launch) : (s.setLaunch k v).mesh = s.mesh := rfl
@[simp] theorem State.setLaunch_porters (s : State) (k : Nat) (v : Launch) : (s.setLaunch k v).porters = s.porters := rfl
@[simp] theorem State.setLaunch_steward (s : State) (k : Nat) (v : Launch) : (s.setLaunch k v).steward = s.steward := rfl
@[simp] theorem State.setLaunch_sites (s : State) (k : Nat) (v : Launch) : (s.setLaunch k v).sites = s.sites := rfl
@[simp] theorem State.setLaunch_stops (s : State) (k : Nat) (v : Launch) : (s.setLaunch k v).stops = s.stops := rfl
@[simp] theorem State.setLaunch_ctu (s : State) (k : Nat) (v : Launch) : (s.setLaunch k v).ctu = s.ctu := rfl
@[simp] theorem State.setLaunch_couriers (s : State) (k : Nat) (v : Launch) : (s.setLaunch k v).couriers = s.couriers := rfl
@[simp] theorem State.setLaunch_ox (s : State) (k : Nat) (v : Launch) : (s.setLaunch k v).ox = s.ox := rfl
@[simp] theorem State.setLaunch_hashes (s : State) (k : Nat) (v : Launch) : (s.setLaunch k v).hashes = s.hashes := rfl
@[simp] theorem State.setLaunch_nextLaunch (s : State) (k : Nat) (v : Launch) : (s.setLaunch k v).nextLaunch = s.nextLaunch := rfl
@[simp] theorem State.setLaunch_goOrder (s : State) (k : Nat) (v : Launch) : (s.setLaunch k v).goOrder = s.goOrder := rfl
@[simp] theorem State.setLaunch_mileMsgs (s : State) (k : Nat) (v : Launch) : (s.setLaunch k v).mileMsgs = s.mileMsgs := rfl
@[simp] theorem State.setLaunch_disp (s : State) (k : Nat) (v : Launch) : (s.setLaunch k v).disp = s.disp := rfl
@[simp] theorem State.setLaunch_clocks (s : State) (k : Nat) (v : Launch) : (s.setLaunch k v).clocks = s.clocks := rfl
@[simp] theorem State.setLaunch_lastCkpt (s : State) (k : Nat) (v : Launch) : (s.setLaunch k v).lastCkpt = s.lastCkpt := rfl
@[simp] theorem State.setLaunch_guestbook (s : State) (k : Nat) (v : Launch) : (s.setLaunch k v).guestbook = s.guestbook := rfl
@[simp] theorem State.setLaunch_pcie (s : State) (k : Nat) (v : Launch) : (s.setLaunch k v).pcie = s.pcie := rfl
@[simp] theorem State.setLaunch_power (s : State) (k : Nat) (v : Launch) : (s.setLaunch k v).power = s.power := rfl
@[simp] theorem State.setLaunch_fuses (s : State) (k : Nat) (v : Launch) : (s.setLaunch k v).fuses = s.fuses := rfl
@[simp] theorem State.setLaunch_boot (s : State) (k : Nat) (v : Launch) : (s.setLaunch k v).boot = s.boot := rfl
@[simp] theorem State.setLaunch_sbx (s : State) (k : Nat) (v : Launch) : (s.setLaunch k v).sbx = s.sbx := rfl
@[simp] theorem State.setLaunch_service (s : State) (k : Nat) (v : Launch) : (s.setLaunch k v).service = s.service := rfl
@[simp] theorem State.setLaunch_etcLatch (s : State) (k : Nat) (v : Launch) : (s.setLaunch k v).etcLatch = s.etcLatch := rfl
@[simp] theorem State.setLaunch_finding (s : State) (k : Nat) (v : Launch) : (s.setLaunch k v).finding = s.finding := rfl
@[simp] theorem State.setLaunch_stewardTx (s : State) (k : Nat) (v : Launch) : (s.setLaunch k v).stewardTx = s.stewardTx := rfl

/-! ### State.setClock -/

@[simp] theorem State.setClock_pending (s : State) (d v : Nat) : (s.setClock d v).pending = s.pending := rfl
@[simp] theorem State.setClock_free (s : State) (d v : Nat) : (s.setClock d v).free = s.free := rfl
@[simp] theorem State.setClock_regs (s : State) (d v : Nat) : (s.setClock d v).regs = s.regs := rfl
@[simp] theorem State.setClock_mem (s : State) (d v : Nat) : (s.setClock d v).mem = s.mem := rfl
@[simp] theorem State.setClock_wordErr (s : State) (d v : Nat) : (s.setClock d v).wordErr = s.wordErr := rfl
@[simp] theorem State.setClock_tiles (s : State) (d v : Nat) : (s.setClock d v).tiles = s.tiles := rfl
@[simp] theorem State.setClock_slices (s : State) (d v : Nat) : (s.setClock d v).slices = s.slices := rfl
@[simp] theorem State.setClock_hosGroups (s : State) (d v : Nat) : (s.setClock d v).hosGroups = s.hosGroups := rfl
@[simp] theorem State.setClock_hosBlocks (s : State) (d v : Nat) : (s.setClock d v).hosBlocks = s.hosBlocks := rfl
@[simp] theorem State.setClock_hosCtrs (s : State) (d v : Nat) : (s.setClock d v).hosCtrs = s.hosCtrs := rfl
@[simp] theorem State.setClock_hosStore (s : State) (d v : Nat) : (s.setClock d v).hosStore = s.hosStore := rfl
@[simp] theorem State.setClock_hosArray (s : State) (d v : Nat) : (s.setClock d v).hosArray = s.hosArray := rfl
@[simp] theorem State.setClock_halves (s : State) (d v : Nat) : (s.setClock d v).halves = s.halves := rfl
@[simp] theorem State.setClock_uppers (s : State) (d v : Nat) : (s.setClock d v).uppers = s.uppers := rfl
@[simp] theorem State.setClock_mesh (s : State) (d v : Nat) : (s.setClock d v).mesh = s.mesh := rfl
@[simp] theorem State.setClock_porters (s : State) (d v : Nat) : (s.setClock d v).porters = s.porters := rfl
@[simp] theorem State.setClock_steward (s : State) (d v : Nat) : (s.setClock d v).steward = s.steward := rfl
@[simp] theorem State.setClock_sites (s : State) (d v : Nat) : (s.setClock d v).sites = s.sites := rfl
@[simp] theorem State.setClock_stops (s : State) (d v : Nat) : (s.setClock d v).stops = s.stops := rfl
@[simp] theorem State.setClock_ctu (s : State) (d v : Nat) : (s.setClock d v).ctu = s.ctu := rfl
@[simp] theorem State.setClock_couriers (s : State) (d v : Nat) : (s.setClock d v).couriers = s.couriers := rfl
@[simp] theorem State.setClock_ox (s : State) (d v : Nat) : (s.setClock d v).ox = s.ox := rfl
@[simp] theorem State.setClock_hashes (s : State) (d v : Nat) : (s.setClock d v).hashes = s.hashes := rfl
@[simp] theorem State.setClock_launches (s : State) (d v : Nat) : (s.setClock d v).launches = s.launches := rfl
@[simp] theorem State.setClock_nextLaunch (s : State) (d v : Nat) : (s.setClock d v).nextLaunch = s.nextLaunch := rfl
@[simp] theorem State.setClock_goOrder (s : State) (d v : Nat) : (s.setClock d v).goOrder = s.goOrder := rfl
@[simp] theorem State.setClock_mileMsgs (s : State) (d v : Nat) : (s.setClock d v).mileMsgs = s.mileMsgs := rfl
@[simp] theorem State.setClock_disp (s : State) (d v : Nat) : (s.setClock d v).disp = s.disp := rfl
@[simp] theorem State.setClock_lastCkpt (s : State) (d v : Nat) : (s.setClock d v).lastCkpt = s.lastCkpt := rfl
@[simp] theorem State.setClock_guestbook (s : State) (d v : Nat) : (s.setClock d v).guestbook = s.guestbook := rfl
@[simp] theorem State.setClock_pcie (s : State) (d v : Nat) : (s.setClock d v).pcie = s.pcie := rfl
@[simp] theorem State.setClock_power (s : State) (d v : Nat) : (s.setClock d v).power = s.power := rfl
@[simp] theorem State.setClock_fuses (s : State) (d v : Nat) : (s.setClock d v).fuses = s.fuses := rfl
@[simp] theorem State.setClock_boot (s : State) (d v : Nat) : (s.setClock d v).boot = s.boot := rfl
@[simp] theorem State.setClock_sbx (s : State) (d v : Nat) : (s.setClock d v).sbx = s.sbx := rfl
@[simp] theorem State.setClock_service (s : State) (d v : Nat) : (s.setClock d v).service = s.service := rfl
@[simp] theorem State.setClock_etcLatch (s : State) (d v : Nat) : (s.setClock d v).etcLatch = s.etcLatch := rfl
@[simp] theorem State.setClock_finding (s : State) (d v : Nat) : (s.setClock d v).finding = s.finding := rfl
@[simp] theorem State.setClock_stewardTx (s : State) (d v : Nat) : (s.setClock d v).stewardTx = s.stewardTx := rfl

/-! ### State.pcieSend -/

@[simp] theorem State.pcieSend_pending (s : State) (o : PcieOut) : (s.pcieSend o).pending = s.pending := rfl
@[simp] theorem State.pcieSend_free (s : State) (o : PcieOut) : (s.pcieSend o).free = s.free := rfl
@[simp] theorem State.pcieSend_regs (s : State) (o : PcieOut) : (s.pcieSend o).regs = s.regs := rfl
@[simp] theorem State.pcieSend_mem (s : State) (o : PcieOut) : (s.pcieSend o).mem = s.mem := rfl
@[simp] theorem State.pcieSend_wordErr (s : State) (o : PcieOut) : (s.pcieSend o).wordErr = s.wordErr := rfl
@[simp] theorem State.pcieSend_tiles (s : State) (o : PcieOut) : (s.pcieSend o).tiles = s.tiles := rfl
@[simp] theorem State.pcieSend_slices (s : State) (o : PcieOut) : (s.pcieSend o).slices = s.slices := rfl
@[simp] theorem State.pcieSend_hosGroups (s : State) (o : PcieOut) : (s.pcieSend o).hosGroups = s.hosGroups := rfl
@[simp] theorem State.pcieSend_hosBlocks (s : State) (o : PcieOut) : (s.pcieSend o).hosBlocks = s.hosBlocks := rfl
@[simp] theorem State.pcieSend_hosCtrs (s : State) (o : PcieOut) : (s.pcieSend o).hosCtrs = s.hosCtrs := rfl
@[simp] theorem State.pcieSend_hosStore (s : State) (o : PcieOut) : (s.pcieSend o).hosStore = s.hosStore := rfl
@[simp] theorem State.pcieSend_hosArray (s : State) (o : PcieOut) : (s.pcieSend o).hosArray = s.hosArray := rfl
@[simp] theorem State.pcieSend_halves (s : State) (o : PcieOut) : (s.pcieSend o).halves = s.halves := rfl
@[simp] theorem State.pcieSend_uppers (s : State) (o : PcieOut) : (s.pcieSend o).uppers = s.uppers := rfl
@[simp] theorem State.pcieSend_mesh (s : State) (o : PcieOut) : (s.pcieSend o).mesh = s.mesh := rfl
@[simp] theorem State.pcieSend_porters (s : State) (o : PcieOut) : (s.pcieSend o).porters = s.porters := rfl
@[simp] theorem State.pcieSend_steward (s : State) (o : PcieOut) : (s.pcieSend o).steward = s.steward := rfl
@[simp] theorem State.pcieSend_sites (s : State) (o : PcieOut) : (s.pcieSend o).sites = s.sites := rfl
@[simp] theorem State.pcieSend_stops (s : State) (o : PcieOut) : (s.pcieSend o).stops = s.stops := rfl
@[simp] theorem State.pcieSend_ctu (s : State) (o : PcieOut) : (s.pcieSend o).ctu = s.ctu := rfl
@[simp] theorem State.pcieSend_couriers (s : State) (o : PcieOut) : (s.pcieSend o).couriers = s.couriers := rfl
@[simp] theorem State.pcieSend_ox (s : State) (o : PcieOut) : (s.pcieSend o).ox = s.ox := rfl
@[simp] theorem State.pcieSend_hashes (s : State) (o : PcieOut) : (s.pcieSend o).hashes = s.hashes := rfl
@[simp] theorem State.pcieSend_launches (s : State) (o : PcieOut) : (s.pcieSend o).launches = s.launches := rfl
@[simp] theorem State.pcieSend_nextLaunch (s : State) (o : PcieOut) : (s.pcieSend o).nextLaunch = s.nextLaunch := rfl
@[simp] theorem State.pcieSend_goOrder (s : State) (o : PcieOut) : (s.pcieSend o).goOrder = s.goOrder := rfl
@[simp] theorem State.pcieSend_mileMsgs (s : State) (o : PcieOut) : (s.pcieSend o).mileMsgs = s.mileMsgs := rfl
@[simp] theorem State.pcieSend_disp (s : State) (o : PcieOut) : (s.pcieSend o).disp = s.disp := rfl
@[simp] theorem State.pcieSend_clocks (s : State) (o : PcieOut) : (s.pcieSend o).clocks = s.clocks := rfl
@[simp] theorem State.pcieSend_lastCkpt (s : State) (o : PcieOut) : (s.pcieSend o).lastCkpt = s.lastCkpt := rfl
@[simp] theorem State.pcieSend_guestbook (s : State) (o : PcieOut) : (s.pcieSend o).guestbook = s.guestbook := rfl
@[simp] theorem State.pcieSend_power (s : State) (o : PcieOut) : (s.pcieSend o).power = s.power := rfl
@[simp] theorem State.pcieSend_fuses (s : State) (o : PcieOut) : (s.pcieSend o).fuses = s.fuses := rfl
@[simp] theorem State.pcieSend_boot (s : State) (o : PcieOut) : (s.pcieSend o).boot = s.boot := rfl
@[simp] theorem State.pcieSend_sbx (s : State) (o : PcieOut) : (s.pcieSend o).sbx = s.sbx := rfl
@[simp] theorem State.pcieSend_service (s : State) (o : PcieOut) : (s.pcieSend o).service = s.service := rfl
@[simp] theorem State.pcieSend_etcLatch (s : State) (o : PcieOut) : (s.pcieSend o).etcLatch = s.etcLatch := rfl
@[simp] theorem State.pcieSend_finding (s : State) (o : PcieOut) : (s.pcieSend o).finding = s.finding := rfl
@[simp] theorem State.pcieSend_stewardTx (s : State) (o : PcieOut) : (s.pcieSend o).stewardTx = s.stewardTx := rfl

/-! ### State.updPower -/

@[simp] theorem State.updPower_pending (s : State) (f : Power → Power) : (s.updPower f).pending = s.pending := rfl
@[simp] theorem State.updPower_free (s : State) (f : Power → Power) : (s.updPower f).free = s.free := rfl
@[simp] theorem State.updPower_regs (s : State) (f : Power → Power) : (s.updPower f).regs = s.regs := rfl
@[simp] theorem State.updPower_mem (s : State) (f : Power → Power) : (s.updPower f).mem = s.mem := rfl
@[simp] theorem State.updPower_wordErr (s : State) (f : Power → Power) : (s.updPower f).wordErr = s.wordErr := rfl
@[simp] theorem State.updPower_tiles (s : State) (f : Power → Power) : (s.updPower f).tiles = s.tiles := rfl
@[simp] theorem State.updPower_slices (s : State) (f : Power → Power) : (s.updPower f).slices = s.slices := rfl
@[simp] theorem State.updPower_hosGroups (s : State) (f : Power → Power) : (s.updPower f).hosGroups = s.hosGroups := rfl
@[simp] theorem State.updPower_hosBlocks (s : State) (f : Power → Power) : (s.updPower f).hosBlocks = s.hosBlocks := rfl
@[simp] theorem State.updPower_hosCtrs (s : State) (f : Power → Power) : (s.updPower f).hosCtrs = s.hosCtrs := rfl
@[simp] theorem State.updPower_hosStore (s : State) (f : Power → Power) : (s.updPower f).hosStore = s.hosStore := rfl
@[simp] theorem State.updPower_hosArray (s : State) (f : Power → Power) : (s.updPower f).hosArray = s.hosArray := rfl
@[simp] theorem State.updPower_halves (s : State) (f : Power → Power) : (s.updPower f).halves = s.halves := rfl
@[simp] theorem State.updPower_uppers (s : State) (f : Power → Power) : (s.updPower f).uppers = s.uppers := rfl
@[simp] theorem State.updPower_mesh (s : State) (f : Power → Power) : (s.updPower f).mesh = s.mesh := rfl
@[simp] theorem State.updPower_porters (s : State) (f : Power → Power) : (s.updPower f).porters = s.porters := rfl
@[simp] theorem State.updPower_steward (s : State) (f : Power → Power) : (s.updPower f).steward = s.steward := rfl
@[simp] theorem State.updPower_sites (s : State) (f : Power → Power) : (s.updPower f).sites = s.sites := rfl
@[simp] theorem State.updPower_stops (s : State) (f : Power → Power) : (s.updPower f).stops = s.stops := rfl
@[simp] theorem State.updPower_ctu (s : State) (f : Power → Power) : (s.updPower f).ctu = s.ctu := rfl
@[simp] theorem State.updPower_couriers (s : State) (f : Power → Power) : (s.updPower f).couriers = s.couriers := rfl
@[simp] theorem State.updPower_ox (s : State) (f : Power → Power) : (s.updPower f).ox = s.ox := rfl
@[simp] theorem State.updPower_hashes (s : State) (f : Power → Power) : (s.updPower f).hashes = s.hashes := rfl
@[simp] theorem State.updPower_launches (s : State) (f : Power → Power) : (s.updPower f).launches = s.launches := rfl
@[simp] theorem State.updPower_nextLaunch (s : State) (f : Power → Power) : (s.updPower f).nextLaunch = s.nextLaunch := rfl
@[simp] theorem State.updPower_goOrder (s : State) (f : Power → Power) : (s.updPower f).goOrder = s.goOrder := rfl
@[simp] theorem State.updPower_mileMsgs (s : State) (f : Power → Power) : (s.updPower f).mileMsgs = s.mileMsgs := rfl
@[simp] theorem State.updPower_disp (s : State) (f : Power → Power) : (s.updPower f).disp = s.disp := rfl
@[simp] theorem State.updPower_clocks (s : State) (f : Power → Power) : (s.updPower f).clocks = s.clocks := rfl
@[simp] theorem State.updPower_lastCkpt (s : State) (f : Power → Power) : (s.updPower f).lastCkpt = s.lastCkpt := rfl
@[simp] theorem State.updPower_guestbook (s : State) (f : Power → Power) : (s.updPower f).guestbook = s.guestbook := rfl
@[simp] theorem State.updPower_pcie (s : State) (f : Power → Power) : (s.updPower f).pcie = s.pcie := rfl
@[simp] theorem State.updPower_fuses (s : State) (f : Power → Power) : (s.updPower f).fuses = s.fuses := rfl
@[simp] theorem State.updPower_boot (s : State) (f : Power → Power) : (s.updPower f).boot = s.boot := rfl
@[simp] theorem State.updPower_sbx (s : State) (f : Power → Power) : (s.updPower f).sbx = s.sbx := rfl
@[simp] theorem State.updPower_service (s : State) (f : Power → Power) : (s.updPower f).service = s.service := rfl
@[simp] theorem State.updPower_etcLatch (s : State) (f : Power → Power) : (s.updPower f).etcLatch = s.etcLatch := rfl
@[simp] theorem State.updPower_finding (s : State) (f : Power → Power) : (s.updPower f).finding = s.finding := rfl
@[simp] theorem State.updPower_stewardTx (s : State) (f : Power → Power) : (s.updPower f).stewardTx = s.stewardTx := rfl

/-! ### State.updSbx -/

@[simp] theorem State.updSbx_pending (s : State) (f : Strongbox → Strongbox) : (s.updSbx f).pending = s.pending := rfl
@[simp] theorem State.updSbx_free (s : State) (f : Strongbox → Strongbox) : (s.updSbx f).free = s.free := rfl
@[simp] theorem State.updSbx_regs (s : State) (f : Strongbox → Strongbox) : (s.updSbx f).regs = s.regs := rfl
@[simp] theorem State.updSbx_mem (s : State) (f : Strongbox → Strongbox) : (s.updSbx f).mem = s.mem := rfl
@[simp] theorem State.updSbx_wordErr (s : State) (f : Strongbox → Strongbox) : (s.updSbx f).wordErr = s.wordErr := rfl
@[simp] theorem State.updSbx_tiles (s : State) (f : Strongbox → Strongbox) : (s.updSbx f).tiles = s.tiles := rfl
@[simp] theorem State.updSbx_slices (s : State) (f : Strongbox → Strongbox) : (s.updSbx f).slices = s.slices := rfl
@[simp] theorem State.updSbx_hosGroups (s : State) (f : Strongbox → Strongbox) : (s.updSbx f).hosGroups = s.hosGroups := rfl
@[simp] theorem State.updSbx_hosBlocks (s : State) (f : Strongbox → Strongbox) : (s.updSbx f).hosBlocks = s.hosBlocks := rfl
@[simp] theorem State.updSbx_hosCtrs (s : State) (f : Strongbox → Strongbox) : (s.updSbx f).hosCtrs = s.hosCtrs := rfl
@[simp] theorem State.updSbx_hosStore (s : State) (f : Strongbox → Strongbox) : (s.updSbx f).hosStore = s.hosStore := rfl
@[simp] theorem State.updSbx_hosArray (s : State) (f : Strongbox → Strongbox) : (s.updSbx f).hosArray = s.hosArray := rfl
@[simp] theorem State.updSbx_halves (s : State) (f : Strongbox → Strongbox) : (s.updSbx f).halves = s.halves := rfl
@[simp] theorem State.updSbx_uppers (s : State) (f : Strongbox → Strongbox) : (s.updSbx f).uppers = s.uppers := rfl
@[simp] theorem State.updSbx_mesh (s : State) (f : Strongbox → Strongbox) : (s.updSbx f).mesh = s.mesh := rfl
@[simp] theorem State.updSbx_porters (s : State) (f : Strongbox → Strongbox) : (s.updSbx f).porters = s.porters := rfl
@[simp] theorem State.updSbx_steward (s : State) (f : Strongbox → Strongbox) : (s.updSbx f).steward = s.steward := rfl
@[simp] theorem State.updSbx_sites (s : State) (f : Strongbox → Strongbox) : (s.updSbx f).sites = s.sites := rfl
@[simp] theorem State.updSbx_stops (s : State) (f : Strongbox → Strongbox) : (s.updSbx f).stops = s.stops := rfl
@[simp] theorem State.updSbx_ctu (s : State) (f : Strongbox → Strongbox) : (s.updSbx f).ctu = s.ctu := rfl
@[simp] theorem State.updSbx_couriers (s : State) (f : Strongbox → Strongbox) : (s.updSbx f).couriers = s.couriers := rfl
@[simp] theorem State.updSbx_ox (s : State) (f : Strongbox → Strongbox) : (s.updSbx f).ox = s.ox := rfl
@[simp] theorem State.updSbx_hashes (s : State) (f : Strongbox → Strongbox) : (s.updSbx f).hashes = s.hashes := rfl
@[simp] theorem State.updSbx_launches (s : State) (f : Strongbox → Strongbox) : (s.updSbx f).launches = s.launches := rfl
@[simp] theorem State.updSbx_nextLaunch (s : State) (f : Strongbox → Strongbox) : (s.updSbx f).nextLaunch = s.nextLaunch := rfl
@[simp] theorem State.updSbx_goOrder (s : State) (f : Strongbox → Strongbox) : (s.updSbx f).goOrder = s.goOrder := rfl
@[simp] theorem State.updSbx_mileMsgs (s : State) (f : Strongbox → Strongbox) : (s.updSbx f).mileMsgs = s.mileMsgs := rfl
@[simp] theorem State.updSbx_disp (s : State) (f : Strongbox → Strongbox) : (s.updSbx f).disp = s.disp := rfl
@[simp] theorem State.updSbx_clocks (s : State) (f : Strongbox → Strongbox) : (s.updSbx f).clocks = s.clocks := rfl
@[simp] theorem State.updSbx_lastCkpt (s : State) (f : Strongbox → Strongbox) : (s.updSbx f).lastCkpt = s.lastCkpt := rfl
@[simp] theorem State.updSbx_guestbook (s : State) (f : Strongbox → Strongbox) : (s.updSbx f).guestbook = s.guestbook := rfl
@[simp] theorem State.updSbx_pcie (s : State) (f : Strongbox → Strongbox) : (s.updSbx f).pcie = s.pcie := rfl
@[simp] theorem State.updSbx_power (s : State) (f : Strongbox → Strongbox) : (s.updSbx f).power = s.power := rfl
@[simp] theorem State.updSbx_fuses (s : State) (f : Strongbox → Strongbox) : (s.updSbx f).fuses = s.fuses := rfl
@[simp] theorem State.updSbx_boot (s : State) (f : Strongbox → Strongbox) : (s.updSbx f).boot = s.boot := rfl
@[simp] theorem State.updSbx_service (s : State) (f : Strongbox → Strongbox) : (s.updSbx f).service = s.service := rfl
@[simp] theorem State.updSbx_etcLatch (s : State) (f : Strongbox → Strongbox) : (s.updSbx f).etcLatch = s.etcLatch := rfl
@[simp] theorem State.updSbx_finding (s : State) (f : Strongbox → Strongbox) : (s.updSbx f).finding = s.finding := rfl
@[simp] theorem State.updSbx_stewardTx (s : State) (f : Strongbox → Strongbox) : (s.updSbx f).stewardTx = s.stewardTx := rfl

/-! ### State.stewardSend -/

@[simp] theorem State.stewardSend_pending (s : State) (x : Nat) (m : List Byte) : (s.stewardSend x m).pending = s.pending := rfl
@[simp] theorem State.stewardSend_free (s : State) (x : Nat) (m : List Byte) : (s.stewardSend x m).free = s.free := rfl
@[simp] theorem State.stewardSend_regs (s : State) (x : Nat) (m : List Byte) : (s.stewardSend x m).regs = s.regs := rfl
@[simp] theorem State.stewardSend_mem (s : State) (x : Nat) (m : List Byte) : (s.stewardSend x m).mem = s.mem := rfl
@[simp] theorem State.stewardSend_wordErr (s : State) (x : Nat) (m : List Byte) : (s.stewardSend x m).wordErr = s.wordErr := rfl
@[simp] theorem State.stewardSend_tiles (s : State) (x : Nat) (m : List Byte) : (s.stewardSend x m).tiles = s.tiles := rfl
@[simp] theorem State.stewardSend_slices (s : State) (x : Nat) (m : List Byte) : (s.stewardSend x m).slices = s.slices := rfl
@[simp] theorem State.stewardSend_hosGroups (s : State) (x : Nat) (m : List Byte) : (s.stewardSend x m).hosGroups = s.hosGroups := rfl
@[simp] theorem State.stewardSend_hosBlocks (s : State) (x : Nat) (m : List Byte) : (s.stewardSend x m).hosBlocks = s.hosBlocks := rfl
@[simp] theorem State.stewardSend_hosCtrs (s : State) (x : Nat) (m : List Byte) : (s.stewardSend x m).hosCtrs = s.hosCtrs := rfl
@[simp] theorem State.stewardSend_hosStore (s : State) (x : Nat) (m : List Byte) : (s.stewardSend x m).hosStore = s.hosStore := rfl
@[simp] theorem State.stewardSend_hosArray (s : State) (x : Nat) (m : List Byte) : (s.stewardSend x m).hosArray = s.hosArray := rfl
@[simp] theorem State.stewardSend_halves (s : State) (x : Nat) (m : List Byte) : (s.stewardSend x m).halves = s.halves := rfl
@[simp] theorem State.stewardSend_uppers (s : State) (x : Nat) (m : List Byte) : (s.stewardSend x m).uppers = s.uppers := rfl
@[simp] theorem State.stewardSend_mesh (s : State) (x : Nat) (m : List Byte) : (s.stewardSend x m).mesh = s.mesh := rfl
@[simp] theorem State.stewardSend_porters (s : State) (x : Nat) (m : List Byte) : (s.stewardSend x m).porters = s.porters := rfl
@[simp] theorem State.stewardSend_steward (s : State) (x : Nat) (m : List Byte) : (s.stewardSend x m).steward = s.steward := rfl
@[simp] theorem State.stewardSend_sites (s : State) (x : Nat) (m : List Byte) : (s.stewardSend x m).sites = s.sites := rfl
@[simp] theorem State.stewardSend_stops (s : State) (x : Nat) (m : List Byte) : (s.stewardSend x m).stops = s.stops := rfl
@[simp] theorem State.stewardSend_ctu (s : State) (x : Nat) (m : List Byte) : (s.stewardSend x m).ctu = s.ctu := rfl
@[simp] theorem State.stewardSend_couriers (s : State) (x : Nat) (m : List Byte) : (s.stewardSend x m).couriers = s.couriers := rfl
@[simp] theorem State.stewardSend_ox (s : State) (x : Nat) (m : List Byte) : (s.stewardSend x m).ox = s.ox := rfl
@[simp] theorem State.stewardSend_hashes (s : State) (x : Nat) (m : List Byte) : (s.stewardSend x m).hashes = s.hashes := rfl
@[simp] theorem State.stewardSend_launches (s : State) (x : Nat) (m : List Byte) : (s.stewardSend x m).launches = s.launches := rfl
@[simp] theorem State.stewardSend_nextLaunch (s : State) (x : Nat) (m : List Byte) : (s.stewardSend x m).nextLaunch = s.nextLaunch := rfl
@[simp] theorem State.stewardSend_goOrder (s : State) (x : Nat) (m : List Byte) : (s.stewardSend x m).goOrder = s.goOrder := rfl
@[simp] theorem State.stewardSend_mileMsgs (s : State) (x : Nat) (m : List Byte) : (s.stewardSend x m).mileMsgs = s.mileMsgs := rfl
@[simp] theorem State.stewardSend_disp (s : State) (x : Nat) (m : List Byte) : (s.stewardSend x m).disp = s.disp := rfl
@[simp] theorem State.stewardSend_clocks (s : State) (x : Nat) (m : List Byte) : (s.stewardSend x m).clocks = s.clocks := rfl
@[simp] theorem State.stewardSend_lastCkpt (s : State) (x : Nat) (m : List Byte) : (s.stewardSend x m).lastCkpt = s.lastCkpt := rfl
@[simp] theorem State.stewardSend_guestbook (s : State) (x : Nat) (m : List Byte) : (s.stewardSend x m).guestbook = s.guestbook := rfl
@[simp] theorem State.stewardSend_pcie (s : State) (x : Nat) (m : List Byte) : (s.stewardSend x m).pcie = s.pcie := rfl
@[simp] theorem State.stewardSend_power (s : State) (x : Nat) (m : List Byte) : (s.stewardSend x m).power = s.power := rfl
@[simp] theorem State.stewardSend_fuses (s : State) (x : Nat) (m : List Byte) : (s.stewardSend x m).fuses = s.fuses := rfl
@[simp] theorem State.stewardSend_boot (s : State) (x : Nat) (m : List Byte) : (s.stewardSend x m).boot = s.boot := rfl
@[simp] theorem State.stewardSend_sbx (s : State) (x : Nat) (m : List Byte) : (s.stewardSend x m).sbx = s.sbx := rfl
@[simp] theorem State.stewardSend_service (s : State) (x : Nat) (m : List Byte) : (s.stewardSend x m).service = s.service := rfl
@[simp] theorem State.stewardSend_etcLatch (s : State) (x : Nat) (m : List Byte) : (s.stewardSend x m).etcLatch = s.etcLatch := rfl
@[simp] theorem State.stewardSend_finding (s : State) (x : Nat) (m : List Byte) : (s.stewardSend x m).finding = s.finding := rfl

/-! ### State.arrive -/

@[simp] theorem State.arrive_pending (s : State) (k i : Nat) : (s.arrive k i).pending = s.pending := rfl
@[simp] theorem State.arrive_free (s : State) (k i : Nat) : (s.arrive k i).free = s.free := rfl
@[simp] theorem State.arrive_regs (s : State) (k i : Nat) : (s.arrive k i).regs = s.regs := rfl
@[simp] theorem State.arrive_mem (s : State) (k i : Nat) : (s.arrive k i).mem = s.mem := rfl
@[simp] theorem State.arrive_wordErr (s : State) (k i : Nat) : (s.arrive k i).wordErr = s.wordErr := rfl
@[simp] theorem State.arrive_tiles (s : State) (k i : Nat) : (s.arrive k i).tiles = s.tiles := rfl
@[simp] theorem State.arrive_slices (s : State) (k i : Nat) : (s.arrive k i).slices = s.slices := rfl
@[simp] theorem State.arrive_hosGroups (s : State) (k i : Nat) : (s.arrive k i).hosGroups = s.hosGroups := rfl
@[simp] theorem State.arrive_hosBlocks (s : State) (k i : Nat) : (s.arrive k i).hosBlocks = s.hosBlocks := rfl
@[simp] theorem State.arrive_hosCtrs (s : State) (k i : Nat) : (s.arrive k i).hosCtrs = s.hosCtrs := rfl
@[simp] theorem State.arrive_hosStore (s : State) (k i : Nat) : (s.arrive k i).hosStore = s.hosStore := rfl
@[simp] theorem State.arrive_hosArray (s : State) (k i : Nat) : (s.arrive k i).hosArray = s.hosArray := rfl
@[simp] theorem State.arrive_halves (s : State) (k i : Nat) : (s.arrive k i).halves = s.halves := rfl
@[simp] theorem State.arrive_uppers (s : State) (k i : Nat) : (s.arrive k i).uppers = s.uppers := rfl
@[simp] theorem State.arrive_mesh (s : State) (k i : Nat) : (s.arrive k i).mesh = s.mesh := rfl
@[simp] theorem State.arrive_porters (s : State) (k i : Nat) : (s.arrive k i).porters = s.porters := rfl
@[simp] theorem State.arrive_steward (s : State) (k i : Nat) : (s.arrive k i).steward = s.steward := rfl
@[simp] theorem State.arrive_sites (s : State) (k i : Nat) : (s.arrive k i).sites = s.sites := rfl
@[simp] theorem State.arrive_stops (s : State) (k i : Nat) : (s.arrive k i).stops = s.stops := rfl
@[simp] theorem State.arrive_ctu (s : State) (k i : Nat) : (s.arrive k i).ctu = s.ctu := rfl
@[simp] theorem State.arrive_couriers (s : State) (k i : Nat) : (s.arrive k i).couriers = s.couriers := rfl
@[simp] theorem State.arrive_ox (s : State) (k i : Nat) : (s.arrive k i).ox = s.ox := rfl
@[simp] theorem State.arrive_hashes (s : State) (k i : Nat) : (s.arrive k i).hashes = s.hashes := rfl
@[simp] theorem State.arrive_launches (s : State) (k i : Nat) : (s.arrive k i).launches = s.launches := rfl
@[simp] theorem State.arrive_nextLaunch (s : State) (k i : Nat) : (s.arrive k i).nextLaunch = s.nextLaunch := rfl
@[simp] theorem State.arrive_goOrder (s : State) (k i : Nat) : (s.arrive k i).goOrder = s.goOrder := rfl
@[simp] theorem State.arrive_disp (s : State) (k i : Nat) : (s.arrive k i).disp = s.disp := rfl
@[simp] theorem State.arrive_clocks (s : State) (k i : Nat) : (s.arrive k i).clocks = s.clocks := rfl
@[simp] theorem State.arrive_lastCkpt (s : State) (k i : Nat) : (s.arrive k i).lastCkpt = s.lastCkpt := rfl
@[simp] theorem State.arrive_guestbook (s : State) (k i : Nat) : (s.arrive k i).guestbook = s.guestbook := rfl
@[simp] theorem State.arrive_pcie (s : State) (k i : Nat) : (s.arrive k i).pcie = s.pcie := rfl
@[simp] theorem State.arrive_power (s : State) (k i : Nat) : (s.arrive k i).power = s.power := rfl
@[simp] theorem State.arrive_fuses (s : State) (k i : Nat) : (s.arrive k i).fuses = s.fuses := rfl
@[simp] theorem State.arrive_boot (s : State) (k i : Nat) : (s.arrive k i).boot = s.boot := rfl
@[simp] theorem State.arrive_sbx (s : State) (k i : Nat) : (s.arrive k i).sbx = s.sbx := rfl
@[simp] theorem State.arrive_service (s : State) (k i : Nat) : (s.arrive k i).service = s.service := rfl
@[simp] theorem State.arrive_etcLatch (s : State) (k i : Nat) : (s.arrive k i).etcLatch = s.etcLatch := rfl
@[simp] theorem State.arrive_finding (s : State) (k i : Nat) : (s.arrive k i).finding = s.finding := rfl
@[simp] theorem State.arrive_stewardTx (s : State) (k i : Nat) : (s.arrive k i).stewardTx = s.stewardTx := rfl

end Sys2Proof.Machine
end

