-- ==== Sys2Proof/Laws/Ops.lean ====
section
/-!
SUPPORT. Sys2Proof/Laws/Ops.lean: what the named operations do to the part they act on: registers and their fields, memory and its
canonical form, and the one record that an update of a unit replaces.
-/

namespace Sys2Proof.Machine

open Sys2Proof.Safety

/-! ### Registers -/

/-- A register after a write of a register: the value written there, elsewhere what was there. -/
theorem reg_setReg (s : State) (r r' : Nat) (v : W64) : (s.setReg r v).reg r' = if r' = r then v else s.reg r' := by
  unfold State.reg State.setReg tabSet
  by_cases hv : v = resetVal r
  · simp only [hv, if_true, tabFind_erase]
    by_cases h : r' = r <;> simp [h]
  · simp only [hv, if_false, tabFind_insert]
    by_cases h : r' = r <;> simp [h]

@[simp] theorem reg_setReg_same (s : State) (r : Nat) (v : W64) : (s.setReg r v).reg r = v := by simp [reg_setReg]

theorem reg_setReg_other (s : State) {r r' : Nat} (v : W64) (h : r' ≠ r) : (s.setReg r v).reg r' = s.reg r' := by simp [reg_setReg, h]

theorem reg_setFld_other (s : State) {r r' : Nat} (f : Fld) (v : Nat) (h : r' ≠ r) : (s.setFld r f v).reg r' = s.reg r' :=
  reg_setReg_other s _ h

@[simp] theorem reg_setFld_same (s : State) (r : Nat) (f : Fld) (v : Nat) : (s.setFld r f v).reg r = fldPut (s.reg r) f v :=
  reg_setReg_same s r _

theorem fld_setFld_other (s : State) {r r' : Nat} (f g : Fld) (v : Nat) (h : r' ≠ r) : (s.setFld r f v).fld r' g = s.fld r' g := by
  unfold State.fld; rw [reg_setFld_other s f v h]

/-- A field of a register that the field lies in. -/
theorem fldGet_lt (w : W64) (f : Fld) : fldGet w f < 2 ^ fldWidth f := Nat.mod_lt _ (Nat.two_pow_pos _)

theorem testBit_fldGet (w : W64) (f : Fld) (i : Nat) : (fldGet w f).testBit i = (decide (i < fldWidth f) && w.getLsbD (f.lo + i)) := by
  unfold fldGet
  rw [Nat.testBit_mod_two_pow, Nat.testBit_div_two_pow, Nat.add_comm i f.lo]; rfl

theorem getLsbD_fldMask (f : Fld) (i : Nat) :
    (fldMask f).getLsbD i = (decide (i < 64) && (decide (f.lo ≤ i) && decide (i - f.lo < fldWidth f))) := by
  unfold fldMask
  rw [BitVec.getLsbD_ofNat, Nat.testBit_mul_two_pow, Nat.testBit_two_pow_sub_one]

theorem getLsbD_fldPut (w : W64) (f : Fld) (v i : Nat) (hi : i < 64) :
    (fldPut w f v).getLsbD i = if f.lo ≤ i ∧ i - f.lo < fldWidth f then v.testBit (i - f.lo) else w.getLsbD i := by
  unfold fldPut
  rw [BitVec.getLsbD_or, BitVec.getLsbD_and, BitVec.getLsbD_not, getLsbD_fldMask, BitVec.getLsbD_ofNat, Nat.testBit_mul_two_pow,
    Nat.testBit_mod_two_pow]
  by_cases h1 : f.lo ≤ i <;> by_cases h2 : i - f.lo < fldWidth f <;> simp [h1, h2, hi]

/-- A field after it is replaced: the value, as wide as the field. -/
theorem fldGet_fldPut (w : W64) (f : Fld) (v : Nat) (h : f.hi < 64) : fldGet (fldPut w f v) f = v % 2 ^ fldWidth f := by
  apply Nat.eq_of_testBit_eq
  intro i
  rw [testBit_fldGet, Nat.testBit_mod_two_pow]
  by_cases hi : i < fldWidth f
  · have h64 : f.lo + i < 64 := by unfold fldWidth at hi; omega
    rw [getLsbD_fldPut _ _ _ _ h64]
    simp [hi]
  · simp [hi]

/-- A field is unchanged when another that shares no bit with it is replaced. -/
theorem fldGet_fldPut_apart (w : W64) (f g : Fld) (v : Nat) (h : f.hi < g.lo ∨ g.hi < f.lo) (hg : g.hi < 64) (hf : f.lo ≤ f.hi) :
    fldGet (fldPut w f v) g = fldGet w g := by
  apply Nat.eq_of_testBit_eq
  intro i
  rw [testBit_fldGet, testBit_fldGet]
  by_cases hi : i < fldWidth g
  · have h64 : g.lo + i < 64 := by unfold fldWidth at hi; omega
    rw [getLsbD_fldPut _ _ _ _ h64]
    have : ¬ (f.lo ≤ g.lo + i ∧ g.lo + i - f.lo < fldWidth f) := by unfold fldWidth at *; omega
    simp [this]
  · simp [hi]

theorem fld_setFld (s : State) (r : Nat) (f : Fld) (v : Nat) (h : f.hi < 64) : (s.setFld r f v).fld r f = v % 2 ^ fldWidth f := by
  unfold State.fld; rw [reg_setFld_same, fldGet_fldPut _ _ _ h]

theorem fld_setFld_apart (s : State) (r : Nat) (f g : Fld) (v : Nat) (h : f.hi < g.lo ∨ g.hi < f.lo) (hg : g.hi < 64)
    (hf : f.lo ≤ f.hi) : (s.setFld r f v).fld r g = s.fld r g := by
  unfold State.fld; rw [reg_setFld_same, fldGet_fldPut_apart _ _ _ _ h hg hf]

theorem flag_setFlag (s : State) (r : Nat) (f : Fld) (b : Bool) (h : f.hi < 64) (hf : f.lo ≤ f.hi) : (s.setFlag r f b).flag r f = b := by
  unfold State.flag State.setFlag
  rw [fld_setFld _ _ _ _ h]
  have h1 : 1 < 2 ^ fldWidth f := Nat.one_lt_two_pow (by unfold fldWidth; omega)
  cases b with
  | false => simp [b2n]
  | true => simp [b2n, Nat.mod_eq_of_lt h1]

theorem flag_setFlag_other (s : State) {r r' : Nat} (f g : Fld) (b : Bool) (h : r' ≠ r) : (s.setFlag r f b).flag r' g = s.flag r' g := by
  unfold State.flag State.setFlag; rw [fld_setFld_other s f g _ h]

/-- Writes of registers keep their canonical form. -/
theorem regs_wf_setReg {s : State} (r : Nat) (v : W64) (h : tabWf resetVal s.regs = true) : tabWf resetVal (s.setReg r v).regs = true :=
  tabWf_set r v h

/-! ### Memory -/

/-- A byte after a list was written: the list where it lies, elsewhere what was there. -/
theorem byte_putBytes (s : State) (a : Nat) (l : List Byte) (a' : Nat) :
    (s.putBytes a l).byte a' = if a ≤ a' ∧ a' < a + l.length then l.getD (a' - a) 0 else s.byte a' := tabGet_write 0 s.mem a l a'

theorem tabFind_filter {α : Type} (t : Tab α) (p : Nat → Bool) (k : Nat) :
    tabFind (t.filter fun e => p e.1) k = if p k = true then tabFind t k else none := by
  induction t with
  | nil => simp
  | cons e t ih =>
    obtain ⟨a, v⟩ := e
    simp only [List.filter_cons]
    by_cases hk : k = a
    · subst hk
      by_cases hp : p k = true <;> simp [hp, tabFind, ih]
    · by_cases hp : p a = true <;> simp [hp, tabFind, ih, hk]

/-- A byte after a range was cleared: 0 in the range, elsewhere what was there. -/
theorem byte_clearBytes (s : State) (a n a' : Nat) : (s.clearBytes a n).byte a' = if a ≤ a' ∧ a' < a + n then 0 else s.byte a' := by
  unfold State.byte State.clearBytes tabGet
  simp only
  rw [tabFind_filter s.mem (fun k => !(decide (a ≤ k) && decide (k < a + n)))]
  by_cases h : a ≤ a' ∧ a' < a + n
  · simp [h.1, h.2]
  · have : (!(decide (a ≤ a') && decide (a' < a + n))) = true := by
      simp only [Bool.not_eq_true', Bool.and_eq_false_imp, decide_eq_true_eq, decide_eq_false_iff_not]
      intro h1 h2; exact h ⟨h1, h2⟩
    rw [this, if_pos rfl, if_neg h]

/-- A write of bytes keeps memory's canonical form. -/
theorem wf_putBytes {s : State} (a : Nat) (l : List Byte) (h : Memory.wf s.mem = true) : Memory.wf (s.putBytes a l).mem = true :=
  tabWf_write a l h

/-- A clear of bytes keeps memory's canonical form. -/
theorem wf_clearBytes {s : State} (a n : Nat) (h : Memory.wf s.mem = true) : Memory.wf (s.clearBytes a n).mem = true :=
  tabWf_filter _ h

/-- Memory at reset is in canonical form. -/
theorem wf_reset : Memory.wf State.reset.mem = true := rfl

/-! ### The record that an update of a unit replaces -/

@[simp] theorem tile_setTile (s : State) (t : Nat) (v : Tile) : (s.setTile t v).tile t = v := tabGet_set_same _ _ _ _
theorem tile_setTile_other (s : State) {t t' : Nat} (v : Tile) (h : t' ≠ t) : (s.setTile t v).tile t' = s.tile t' := tabGet_set_other _ _ _ h
@[simp] theorem slice_setSlice (s : State) (i : Nat) (v : Slice) : (s.setSlice i v).slice i = v := tabGet_set_same _ _ _ _
theorem slice_setSlice_other (s : State) {i j : Nat} (v : Slice) (h : j ≠ i) : (s.setSlice i v).slice j = s.slice j :=
  tabGet_set_other _ _ _ h
@[simp] theorem site_setSite (s : State) (i : Nat) (v : Site) : (s.setSite i v).site i = v := tabGet_set_same _ _ _ _
theorem site_setSite_other (s : State) {i j : Nat} (v : Site) (h : j ≠ i) : (s.setSite i v).site j = s.site j := tabGet_set_other _ _ _ h
@[simp] theorem launch_setLaunch (s : State) (k : Nat) (v : Launch) : (s.setLaunch k v).launch k = v := tabGet_set_same _ _ _ _
theorem launch_setLaunch_other (s : State) {k j : Nat} (v : Launch) (h : j ≠ k) : (s.setLaunch k v).launch j = s.launch j :=
  tabGet_set_other _ _ _ h
@[simp] theorem oxl_setOxl (s : State) (x : Nat) (v : Oxlux) : (s.setOxl x v).oxl x = v := tabGet_set_same _ _ _ _
theorem oxl_setOxl_other (s : State) {x y : Nat} (v : Oxlux) (h : y ≠ x) : (s.setOxl x v).oxl y = s.oxl y := tabGet_set_other _ _ _ h
@[simp] theorem clock_setClock (s : State) (d v : Nat) : (s.setClock d v).clock d = v := tabGet_set_same _ _ _ _
theorem clock_setClock_other (s : State) {d e : Nat} (v : Nat) (h : e ≠ d) : (s.setClock d v).clock e = s.clock e := tabGet_set_other _ _ _ h
@[simp] theorem porter_setPorter (s : State) (n : Nat) (p : Porter) : (s.setPorter n p).porter n = p := tabGet_set_same _ _ _ _
theorem porter_setPorter_other (s : State) {n m : Nat} (p : Porter) (h : m ≠ n) : (s.setPorter n p).porter m = s.porter m :=
  tabGet_set_other _ _ _ h
@[simp] theorem score_setScore (s : State) (k : Nat) (v : SCore) : (s.setScore k v).score k = v := tabGet_set_same _ _ _ _
@[simp] theorem stop_setStop (s : State) (k : Nat) (v : Stop) : (s.setStop k v).stop k = v := tabGet_set_same _ _ _ _
theorem stop_setStop_other (s : State) {k j : Nat} (v : Stop) (h : j ≠ k) : (s.setStop k v).stop j = s.stop j := tabGet_set_other _ _ _ h
@[simp] theorem hashCtx_setHashCtx (s : State) (k h : Nat) (v : HashCtx) : (s.setHashCtx k h v).hashCtx k h = v := tabGet_set_same _ _ _ _
@[simp] theorem half_setHalf (s : State) (e : Nat) (v : HalfX) : (s.setHalf e v).half e = v := tabGet_set_same _ _ _ _
theorem half_setHalf_other (s : State) {e e' : Nat} (v : HalfX) (h : e' ≠ e) : (s.setHalf e v).half e' = s.half e' := tabGet_set_other _ _ _ h
@[simp] theorem upper_setUpper (s : State) (u : Nat) (v : Upper) : (s.setUpper u v).upper u = v := tabGet_set_same _ _ _ _
theorem upper_setUpper_other (s : State) {u w : Nat} (v : Upper) (h : w ≠ u) : (s.setUpper u v).upper w = s.upper w := tabGet_set_other _ _ _ h
@[simp] theorem chan_setChan (s : State) (c ch : Nat) (v : Chan) : (s.setChan c ch v).chan c ch = v := tabGet_set_same _ _ _ _
@[simp] theorem inbox_setInbox (s : State) (e : MeshEnd) (l : List (Nat × MeshBody)) : (s.setInbox e l).inbox e = l := tabGet_set_same _ _ _ _
@[simp] theorem queue_setQueue (s : State) (r i vc : Nat) (l : List Flit) : (s.setQueue r i vc l).queue r i vc = l := tabGet_set_same _ _ _ _
@[simp] theorem blockAt_setBlock (s : State) (h b : Nat) (v : Block) : (s.setBlock h b v).blockAt h b = v := tabGet_set_same _ _ _ _
@[simp] theorem ctr_setCtr (s : State) (h c : Nat) (v : W32) : (s.setCtr h c v).ctr h c = v := tabGet_set_same _ _ _ _

end Sys2Proof.Machine
end

