-- ==== Sys2Proof/Tests/Slice0.lean ====
section
/-!
SUPPORT. Sys2Proof/Tests/Slice0.lean: the tests of the model. The expected results of the first parts are the manual's worked examples
and tables; the last part shows, for the statements, states and operands that meet their hypotheses.
-/

namespace Sys2Proof.Tests

set_option Elab.async false

open Sys2Proof Sys2Proof.Machine Sys2Proof.Safety

/-! ### WellFormed: a term for each check, which the check refuses -/

theorem test_wf_hostel_word : wellFormed (.sub 0 0 0x0) = false ∧ wellFormed (.add 0 0 0x0) = true := by decide +kernel
theorem test_wf_porter_word : wellFormed (.porSub (.porter 0) 0x1) = false ∧ wellFormed (.porAdd (.porter 0) 0x1) = true := by
  decide +kernel
theorem test_wf_porter_far : wellFormed (.porFget (.porter 0) 0x05184442) = true ∧ wellFormed (.porFput (.porter 0) 0x05184442) = false := by
  decide +kernel
theorem test_wf_units : wellFormed (.logicSelfTestDone [⟨6, 0⟩] true true) = false ∧ wellFormed (.logicSelfTestDone [⟨4, 8⟩] true true) = false ∧
    wellFormed (.logicSelfTestDone [⟨4, 7⟩] true true) = true ∧ wellFormed (.sramSelfTestDone [.row 96 0 0]) = false ∧
    wellFormed (.sramSelfTestDone [.row 95 0 0]) = true := by decide +kernel
theorem test_wf_places : wellFormed (.blockPlace 0 0 0 [⟨0, [], 0⟩]) = false ∧ wellFormed (.blockPlace 0 0 0 [⟨0, [5], 0⟩, ⟨0, [6], 1⟩]) = false ∧
    wellFormed (.blockPlace 0 0 0 [⟨0, [5, 5], 0⟩]) = false ∧ wellFormed (.blockPlace 0 0 0 [⟨0, [5], 0⟩, ⟨1, [5], 0⟩]) = true := by decide +kernel
theorem test_wf_sample : wellFormed (.thermalSample [⟨24, [], []⟩]) = false := by decide +kernel
/-- A message of type 1 (IDENT) with its CRC, written out: it is a command of IDENT alone (R382). -/
def sideMsg : BitVec 256 := 1 ||| BitVec.ofNat 256 (crc16 240 1 0xFFFF * 2 ^ 240)
theorem test_wf_sideband : wellFormed (.ident 0 sideMsg) = true ∧ wellFormed (.vset 0 sideMsg) = false ∧
    wellFormed (.trainResult 0 sideMsg []) = false ∧ wellFormed (.thermal 0 sideMsg) = false ∧ wellFormed (.error 0 sideMsg) = false ∧
    wellFormed (.unlistedSidebandMessage 0 sideMsg) = false := by decide +kernel
theorem test_wf_slices : wellFormed (.scrubPassStart 96) = false ∧ wellFormed (.scrubPassStart 95) = true ∧
    wellFormed (.reduceCombine 96) = false ∧ wellFormed (.reduceClose 96 0) = false ∧ wellFormed (.tileAudit 96) = false := by decide +kernel
theorem test_wf_ports : wellFormed (.ctuLookup 112) = false ∧ wellFormed (.ctuLookup 111) = true ∧ wellFormed (.upRead 0 20 0) = false := by
  decide +kernel
theorem test_wf_register : wellFormed (.registerWrite .host 2 false 0) = false ∧ wellFormed (.registerWrite .host 4 true 0) = false ∧
    wellFormed (.registerWrite .host 4 false 0) = true := by decide +kernel
theorem test_wf_bar : wellFormed (.bar2Write 0 []) = false ∧ wellFormed (.bar0MisalignedAccess 4 4 true) = false ∧
    wellFormed (.bar0MisalignedAccess 2 4 true) = true := by decide +kernel
theorem test_wf_zone_rail : wellFormed (.deferTimeout 24) = false ∧ wellFormed (.avsStep 26 true) = false := by decide +kernel

/-! ### The words of a block's commands: the table gives no row any bits -/

theorem test_decode_none : decodeTableWord 8 0 = none ∧ decodeTableWord 64 0x218284_14B033 = none := ⟨rfl, rfl⟩
theorem test_fetch_none : State.reset.withFetchWord 8 0 = State.reset := rfl

/-! ### The maps of addresses (examples of 02, 09, 10 and 17) -/

theorem test_tile_map : sliceOf 74565 = (85, 776) ∧ tileAt 85 776 = 74565 := by decide +kernel
theorem test_register_offsets : POR.KILL_LOG (64 * 19 + 18) = 0x304D208 ∧ HOS.KILL_LOG 5 = 0x2500008 ∧ OX.FEC_CORRECTED 12 = 0x1980030 ∧
    MEM.RETIRE_LIST 11 3 = 0x1161018 ∧ CH.RESUME 20 7 = 0xC142D0 ∧ UP.APERTURE 2 1 = 0x1C80048 ∧ SLICE.ERR_LOG 85 = 0x855018 := by
  decide +kernel

/-! ### Codes (example of 02): the CRC of a tile and its update by a difference -/

theorem test_tile_code : crcBytes 0 [0x80] = 0x82F63B78 ∧ codeDiff 4094 [0x01, 0x01] = 0xE1C91B74 ∧
    Nat.xor 0x82F63B78 0xE1C91B74 = 0x633F200C ∧ crcBytes 0 [0x01, 0x81] = 0x633F200C := by decide +kernel

/-! ### Numbers (examples of 03, 04 and 05) -/

/-- Shards of 16,777,216.0 and 1.0 under b = 24, and the FP32 value of the sum of 48 of them. -/
theorem test_tally_shards : (toTally 24 (fdecode fp32 0x4B800000)).1 = 2 ^ 95 ∧ (toTally 24 (fdecode fp32 0x3F800000)).1 = 2 ^ 71 ∧
    (List.range 47).foldl (fun t _ => tallyAdd t (2 ^ 71)) (2 ^ 95) = 0x00000000800017800000000000000000 ∧
    fromTally fp32 24 0x00000000800017800000000000000000 = (0x4B800018, 0) := by decide +kernel
/-- Ordered FP32: 2^24 + 1.0 ties to 2^24; 2^24 + 2.0 is exact. -/
theorem test_fadd_ties : (fadd fp32 0x4B800000 0x3F800000).1 = 0x4B800000 ∧
    (List.range 23).foldl (fun t _ => (fadd fp32 t 0x40000000).1) 0x4B800000 = 0x4B800017 := by decide +kernel
/-- The reduction unit adds in the declared order: (16,777,216.0 + 1.0) + 1.0. -/
theorem test_reduce_order : redCombine 0 (redCombine 0 (leBytes 4 0x4B800000) (leBytes 4 0x3F800000)) (leBytes 4 0x3F800000) =
    leBytes 4 0x4B800000 := by decide +kernel
/-- MXFP4: elements 15.0, 2.5 and −0.7 under the scale 0x80, and their values read back. -/
theorem test_mxfp4 : mxScale e2m1 [fdecode fp32 0x41700000, fdecode fp32 0x40200000, fdecode fp32 0xBF333333] = some 0x80 ∧
    mxElem e2m1 0x80 .rne (fdecode fp32 0x41700000) = (0x7, flSaturate) ∧ (mxElem e2m1 0x80 .rne (fdecode fp32 0x40200000)).1 = 0x2 ∧
    (mxElem e2m1 0x80 .rne (fdecode fp32 0xBF333333)).1 = 0x9 ∧ mxElem e2m1 0x80 .rne (fdecode fp32 0x41500000) = (0x7, 0) ∧
    mxValue e2m1 0x80 0x7 = (0x41400000, 0) ∧ mxValue e2m1 0x80 0x2 = (0x40000000, 0) ∧ mxValue e2m1 0x80 0x9 = (0xBF800000, 0) := by
  decide +kernel
/-- Tally corners of R121 and R123: INVALID absorbs, and a sum beyond the range is INVALID. -/
theorem test_tally_invalid : tallyAdd tallyInvalid 1 = tallyInvalid ∧ tallyAdd (2 ^ 127 - 1) 1 = tallyInvalid ∧
    tallyAdd (2 ^ 127 - 2) 1 = 2 ^ 127 - 1 := by decide +kernel
theorem test_tally_window : windowOk (-160) = true ∧ windowOk (-161) = false ∧ windowOk 127 = true ∧ windowOk 128 = false := by
  decide +kernel

/-! ### The words of the encoding examples (06, 07) -/

theorem test_word_ffma :
    let w : W64 := 0x000021828414B033
    hwClass w = 3 ∧ hwFunc w = 3 ∧ hwGE w = true ∧ hwGN w = true ∧ hwGP w = 2 ∧ hwD w = 10 ∧ hwA w = 4 ∧ hwB w = 5 ∧ hwC w = 6 ∧ hwMod w = 1 ∧
      hostelLegal w = true ∧ wellFormed (.ffma 0 0 w) = true ∧ wellFormed (.fadd 0 0 w) = false := by decide +kernel
theorem test_word_fget :
    let w : W32 := 0x05184442
    pwOp w = 0x42 ∧ pwD w = 8 ∧ pwA w = 4 ∧ pwB w = 12 ∧ pwC w = 20 ∧ pwTY w = 0 ∧ porterLegal w = true := by decide +kernel

/-! ### Page tables, sources and semaphores (examples of 09, 16) -/

theorem test_level_indices : levelIndex 4 0x00007F1234567000 = 0 ∧ levelIndex 3 0x00007F1234567000 = 254 ∧
    levelIndex 2 0x00007F1234567000 = 72 ∧ levelIndex 1 0x00007F1234567000 = 418 ∧ levelIndex 0 0x00007F1234567000 = 359 := by decide +kernel
theorem test_sources : srcOf 1 40 = 0x1028 ∧ srcOf 3 1234 = 0x34D2 ∧ srcOf 4 2 = 0x4002 ∧ srcOf 11 0 = 0xB000 := by decide +kernel
/-- Site H3 with 64 units: the row that 0x0130_1234_5678 lies in, and its unit (10, the example after R298). -/
theorem test_site_row :
    let s := State.reset.setFld (MEM.STATUS 3) MEM.STATUS_GEN 1
    siteBase 3 = 0x013000000000 ∧ s.siteRow 3 0x12345678 = 64 * 4660 + 25 := by decide +kernel
/-- The semaphore word of a killed launch after 17 steps: 0x0540_0000_0000_0011. -/
theorem test_semaphore_word :
    let s := (((State.reset.setFld (LNCH.STATUS 3) LNCH.STATUS_STATE 5).setFld (LNCH.STATUS 3) LNCH.STATUS_CAUSE 0x40).setLaunch 3
      { stepsDone := 17 })
    s.semWord 3 = 0x0540000000000011 := by decide +kernel
/-- The licence example of 00: 15 HBM sites present without H2, 12 enabled; 8 ports and 8 hostels. -/
theorem test_licence_shares : halfShare (fun i => i != 2) 8 6 = 0x3F7B ∧ halfShare (fun _ => true) 8 4 = 0x0F0F ∧
    halfShare (fun _ => true) 4 4 = 0xFF := by decide +kernel
/-- The licence example of 15: H11 and hostel 6 are absent. -/
theorem test_licence_absent : halfShare (fun i => i != 11) 8 6 = 0x773F ∧ halfShare (fun i => i != 6) 4 4 = 0xBF := by decide +kernel

/-! ### Hostel instructions -/

/-- A word of a class and function, with further fields as (value, lowest bit). -/
def hosWord (cls fn : Nat) (fs : List (Nat × Nat)) : W64 :=
  BitVec.ofNat 64 (cls + 16 * fn + (fs.map fun f => f.1 * 2 ^ f.2).sum)

/-- A launch's group in slot `g` of hostel `h`, with its active lanes and registers (register, lane, value), and its block of 64 KiB. -/
def hosState (h g : Nat) (active : W32) (rs : List (Nat × Nat × W32)) : State :=
  let gr : Group := { used := true, launch := 7, active := active, live := active }
  let gr := rs.foldl (fun (gr : Group) r => gr.wv r.1 r.2.1 r.2.2) gr
  let s := (State.reset.setFlag BRG.ENABLED BRG.ENABLED_MX true).setFlag BRG.ENABLED BRG.ENABLED_TALLY true
  (s.setBlock h 0 { used := true, launch := 7, size := 65536 }).setGroup h g gr

/-- What a command makes of a state, by a question asked of the next state. -/
def after {α : Type} (r : Res) (f : State → α) : Option α := match r with
  | .next t => some (f t)
  | _ => none

/-- The atomic example of 06: 5, 7 and −2 on a word of 10 by lanes 0, 1 and 4 of group 3 of hostel 6. -/
theorem test_atom_add : after (exec (.atomAdd 6 3 (hosWord 8 0 [(10, 17), (4, 31), (5, 34)]))
      ((hosState 6 3 0x13 [(5, 0, 5), (5, 1, 7), (5, 4, 0xFFFFFFFE)]).putBytes (storeBase 6) [10]))
    (fun t => ((t.group 6 3).rv 10 0, (t.group 6 3).rv 10 1, (t.group 6 3).rv 10 4, (t.group 6 3).rv 10 2, t.word (storeBase 6) 4)) =
    some (10, 15, 22, 0, 20) := by decide +kernel
/-- The try-acquire example of 05: locks L1 to L4 at offsets 0, 4, 8 and 12. -/
theorem test_acq : after (exec (.acq 2 5 (hosWord 8 0x10 [(10, 17), (1, 24), (4, 31)]))
      ((hosState 2 5 0xAA4 [(1, 2, 0), (1, 5, 0), (1, 7, 4), (1, 9, 8), (1, 11, 12)]).putBytes (storeBase 2)
        (leBytes 4 0 ++ leBytes 4 (ownerWord 2 9 0) ++ leBytes 4 0 ++ leBytes 4 (ownerWord 2 5 11))))
    (fun t => ([2, 5, 7, 9, 11].map (fun l => ((t.group 2 5).rv 10 l).toNat),
      [0, 4, 8, 12].map fun o => t.word (storeBase 2 + o) 4)) =
    some ([0, 2, 1, 0, 3], [ownerWord 2 5 2, ownerWord 2 9 0, ownerWord 2 5 9, ownerWord 2 5 11]) := by decide +kernel
/-- FFMA.BF16 of the encoding example: bits 31:16 become 0 in the lanes where p2 is 0, and the other lanes keep v10. 2.0 × 3.0 + 1.0 = 7.0. -/
theorem test_ffma_guarded :
    let s := hosState 0 0 0x3 [(4, 0, 0x4000), (5, 0, 0x4040), (6, 0, 0x3F80), (10, 0, 0xFFFFFFFF), (10, 1, 0xFFFFFFFF)]
    let s := s.setGroup 0 0 { s.group 0 0 with p := [(2, 0x2)] }
    after (exec (.ffma 0 0 0x000021828414B033) s) (fun t => ((t.group 0 0).rv 10 0, (t.group 0 0).rv 10 1, (t.group 0 0).pc)) =
      some (0x40E0, 0xFFFFFFFF, 8) := by decide +kernel
theorem test_adds_clamps : after (exec (.adds 0 0 (hosWord 0 2 [(3, 17), (1, 24), (2, 31)]))
      (hosState 0 0 1 [(1, 0, 0x7FFFFFFF), (2, 0, 1)])) (fun t => ((t.group 0 0).rv 3 0, (t.group 0 0).flags)) =
    some (0x7FFFFFFF, 8) := by decide +kernel
theorem test_divs_by_zero : after (exec (.divs 0 0 (hosWord 4 0x11 [(3, 17), (1, 24), (2, 31)]))
      (hosState 0 0 1 [(1, 0, 5)])) (fun t => ((t.group 0 0).rv 3 0, (t.group 0 0).stopped)) = some (0xFFFFFFFF, false) := by decide +kernel
theorem test_shr_modulo : after (exec (.shr 0 0 (hosWord 0 0xC [(3, 17), (1, 24), (2, 31)]))
      (hosState 0 0 1 [(1, 0, 8), (2, 0, 33)])) (fun t => (t.group 0 0).rv 3 0) = some 4 := by decide +kernel
/-- A store to a lane's own offset, little-endian (R12). -/
theorem test_st32 : after (exec (.st32 0 0 (hosWord 7 0x12 [(3, 17), (1, 24), (4, 31)]))
      (hosState 0 0 2 [(1, 1, 16), (3, 1, 0x11223344)])) (fun t => (t.bytes (storeBase 0 + 15) 6, (t.group 0 0).pc)) =
    some ([0, 0x44, 0x33, 0x22, 0x11, 0], 8) := by decide +kernel
/-- A divergent branch runs the fall-through first and keeps the taken lanes on the stack (R141). -/
theorem test_brc_diverges :
    let s := hosState 0 0 0xF []
    let s := s.setGroup 0 0 { s.group 0 0 with p := [(1, 0x3)] }
    after (exec (.brc 0 0 (hosWord 0xC 1 [(1, 24), (4, 28), (9, 43)])) s)
      (fun t => ((t.group 0 0).active, (t.group 0 0).pc, (t.group 0 0).stack)) =
      some (0xC, 8, [{ rejoin := 72, saved := 0xF, pendPc := 32, pendMask := 3 }]) := by decide +kernel
theorem test_misaligned_kills :
    let s := (hosState 0 0 3 [(1, 0, 4), (1, 1, 6)])
    let s := (s.setFld (LNCH.STATUS 3) LNCH.STATUS_STATE 2).setFld (LNCH.STATUS 3) LNCH.STATUS_LAUNCH 7
    after (exec (.ld32 0 0 (hosWord 7 4 [(3, 17), (1, 24), (4, 31)])) s)
      (fun t => (t.fld (HOS.KILL_LOG 0) HOS.KILL_LOG_LANE, t.fld (HOS.KILL_LOG 0) HOS.KILL_LOG_CAUSE, (t.group 0 0).stopped,
        t.fld (LNCH.STATUS 3) LNCH.STATUS_CAUSE)) = some (1, cMISALIGNED, true, cMISALIGNED) := by decide +kernel
/-- Matrix rows: 1.0 at (0, 0) of both operands gives 1.0 at (0, 0) alone. -/
theorem test_dot_element : dotElem (hosWord 0xA 0 [(1, 38)]) 0x3F80 0x3F80 0 = (0x3F800000, 0) := by decide +kernel

/-! ### Porters and steward cores -/

/-- A running porter with its registers. -/
def porState (n : Nat) (g : List (Nat × W32)) (pc : W32) : State :=
  let r := POR.STATUS n
  let s := (((State.reset.setFlag r POR.STATUS_PRESENT true).setFlag r POR.STATUS_POWERED true).setFlag r POR.STATUS_RUNNING true)
  let s := (s.setFlag BRG.ENABLED BRG.ENABLED_MX true).setFlag BRG.ENABLED BRG.ENABLED_TALLY true
  s.setPorter n { core := { g := g, pc := pc } }

/-- A word of the R format of an opcode: D, A, B and the function. -/
def porWord (op fn d a b : Nat) : W32 := BitVec.ofNat 32 (op + d * 2 ^ 7 + a * 2 ^ 12 + b * 2 ^ 17 + fn * 2 ^ 27)

theorem test_por_sub : after (exec (.porSub (.porter 9) (porWord 1 1 3 1 2)) (porState 9 [(1, 5), (2, 7)] 0))
    (fun t => (((t.porter 9).core.rg 3), (t.porter 9).core.pc)) = some (0xFFFFFFFE, 4) := by decide +kernel
/-- g0 reads 0 and discards what is written (R213). -/
theorem test_por_g0 : after (exec (.porAdd (.porter 9) (porWord 1 0 0 1 2)) (porState 9 [(1, 5), (2, 7)] 0))
    (fun t => (((t.porter 9).core.rg 0), (t.porter 9).core.pc)) = some (0, 4) := by decide +kernel
theorem test_por_fget_slot : after (exec (.porFget (.porter 9) 0x05184442)
      (porState 9 [(4, 0x2000), (8, 0x100), (12, 64), (20, 0x40)] 0))
    (fun t => ((t.porter 9).slots.length, (t.porter 9).core.pc, (t.porter 9).stopped)) = some (1, 4, false) := by decide +kernel
theorem test_por_pc_beyond :
    let s := (porState 9 [] 65536)
    let s := s.setPorter 9 { s.porter 9 with msg := { s.porter 9 |>.msg with launch := 7 } }
    after (exec (.porAdd (.porter 9) (porWord 1 0 3 1 2)) ((s.setFld (LNCH.STATUS 3) LNCH.STATUS_STATE 2).setFld (LNCH.STATUS 3) LNCH.STATUS_LAUNCH 7))
      (fun t => (t.fld (POR.KILL_LOG 9) POR.KILL_LOG_CAUSE, t.fld (LNCH.STATUS 3) LNCH.STATUS_CAUSE)) = some (cSEGMENT, cSEGMENT) := by
  decide +kernel
/-- A steward core that is up runs the integer rows too (R423). -/
theorem test_steward_add :
    let s := (State.reset.setFld STW.STATUS STW.STATUS_CORES_UP 1).setScore 0 { core := { g := [(1, 5), (2, 7)] } }
    after (exec (.porAdd (.steward 0) (porWord 1 0 3 1 2)) s) (fun t => ((t.score 0).core.rg 3, (t.score 0).core.pc)) = some (12, 4) := by
  decide +kernel

/-! ### Legs and power (examples of 13) -/

theorem test_charges : LegEntry.charge ⟨[], 0, 36000, 300, 0, 0, 0, 0, 0, 0, 0, 0, 0, 0, 0⟩ = 12000 ∧
    LegEntry.charge ⟨[], 0, 20000, 40, 0, 0, 0, 0, 0, 0, 0, 0, 0, 0, 0⟩ = 20000 ∧
    LegEntry.charge ⟨[], 0, 150000, 250, 0, 0, 0, 0, 0, 0, 0, 0, 0, 0, 0⟩ = 60000 := by decide +kernel
theorem test_limiter : limiterNext 3 1300 1200 = 4 ∧ limiterNext 7 1300 1200 = 7 ∧ limiterNext 3 1080 1200 = 2 ∧ limiterNext 3 1081 1200 = 3 ∧
    limiterNext 0 0 1200 = 0 := by decide +kernel

/-! ### The block's own commands -/

theorem test_etc_tick : after (exec .etcTick State.reset) (fun t => t.etc) = some 80 := by decide +kernel
/-- Fuses 0 to 36 are blown: the next block is 37 (example of 15). -/
theorem test_hss_block : Fuses.block { hssBlocks := BitVec.ofNat 1024 (2 ^ 37 - 1) } = some 37 := by decide +kernel
theorem test_write_ignored : after (exec (.registerWrite .steward 0x3800004 false 0) State.reset) (fun t => t.reg 0x3800004) =
    some (State.reset.reg 0x3800004) := by decide +kernel
/-- Writes: before ready only the steward's reach a register (R503); a reserved offset takes none (R498). -/
theorem test_register_write :
    after (exec (.registerWrite .steward (BitVec.ofNat 26 (GB.UE_LIMIT)) false 5) State.reset) (fun t => t.fld GB.UE_LIMIT GB.UE_LIMIT_COUNT) = some 5 ∧
    after (exec (.registerWrite .host (BitVec.ofNat 26 (GB.UE_LIMIT)) false 5) State.reset) (fun t => t.fld GB.UE_LIMIT GB.UE_LIMIT_COUNT) = some 16 := by
  decide +kernel
theorem test_reserved_offset : after (exec (.registerWrite .steward 0x2FFFFFC false 5) State.reset) (fun t => decide (t = State.reset)) = some true ∧
    State.reset.csrHalf 0x2FFFFFC = 0 := by decide +kernel
/-- The block idles on an empty queue (the model's own choice). -/
theorem test_idle : step State.reset = .next State.reset := rfl
theorem test_front : after (step { State.reset with pending := [.etcTick, .etcTick] }) (fun t => (t.pending, t.etc)) = some ([.etcTick], 80) := by
  decide +kernel

/-! ### SHA-384 and AES-256 (FIPS 180-4 and FIPS 197, their own examples) -/

theorem test_sha384_empty : beVal (sha384 []) =
    0x38b060a751ac96384cd9327eb1b1e36a21fdb71114be07434c0cc7bf63f6e1da274edebfe76f65fbd51ad2f14898b95b := by decide +kernel
theorem test_aes256 : aesEnc (aesKeys ((List.range 32).map (BitVec.ofNat 8))) ((List.range 16).map fun i => BitVec.ofNat 8 (17 * i)) =
    (beBytes 16 0x8ea2b7ca516745bfeafc49904b496089) := by decide +kernel

/-! ### States that meet the statements' hypotheses: hostels -/

/-- The check at issue, as a computation. -/
def readyB (s : State) (x : HosCmd) : Bool :=
  s.canIssue x.h.toNat x.g.toNat && hostelLegal x.w && decide (hwOp x.w = x.op) && !hostelBadWindow x.w &&
    (s.flag BRG.ENABLED BRG.ENABLED_MX && s.flag BRG.ENABLED BRG.ENABLED_TALLY) && !s.interlocked x.h.toNat x.g.toNat x.w

theorem ready_of {s : State} {x : HosCmd} (h : readyB s x = true) : HosReady s x := by
  unfold readyB at h
  simp only [Bool.and_eq_true, Bool.not_eq_true', decide_eq_true_eq] at h
  obtain ⟨⟨⟨⟨⟨h1, h2⟩, h3⟩, h4⟩, h5⟩, h6⟩ := h
  exact ⟨h1, h2, h3, h4, ⟨fun _ => h5.1, fun _ => h5.2⟩, h6⟩

/-- A legal word of each row: v8, v4 and v12 (tile registers 8, 4 and 12), the issuing block, target 16. -/
def rowWord (op : HOp) : W64 :=
  let d : List (Nat × Nat) := [(8, 17), (4, 24)]
  match op.cls with
  | 2 => hosWord 2 op.func [(1, 17), (2, 24), (3, 31)]
  | 6 => hosWord 6 op.func [(if op.func = 4 then 1 else 8, 17), (4, 24), (12, 31)]
  | 7 => hosWord 7 op.func (d ++ [(4, 31)])
  | 8 => hosWord 8 op.func ((if op.func = 0x11 then [(4, 24)] else d) ++ [(4, 31), (12, 34), (16, 41)])
  | 9 => hosWord 9 op.func (if op.func ≤ 1 then d ++ [(4, 31)] else d)
  | 0xA => hosWord 0xA op.func [(8, 17), (4, 24), (5, 28)]
  | 0xB => hosWord 0xB op.func (d ++ [(12, 31), (13, 38), (14, 45)])
  | 0xC => hosWord 0xC op.func ((if op.func = 3 ∨ op.func = 4 then [(8, 17)] else []) ++ (if op.func = 1 then [(1, 24), (20, 43)] else []) ++
      [(16, 28)])
  | 0xD => hosWord 0xD op.func (if op.func = 6 then [(1, 31), (4, 34), (3, 40)] else [(3, 40)])
  | 0xE => hosWord 0xE op.func (if op.func = 0 then [(8, 17), (1, 24)] else [(0x0A, 17), (4, 24)])
  | _ => hosWord op.cls op.func (d ++ [(12, 31)])

/-- Whether the row of a constructor passes the check at issue in a state, in slot 0 of hostel 0. -/
def rowOk (s : State) (c : HosCtor) : Bool :=
  match (c 0 0 0).hostel with
  | some x => readyB s ⟨0, 0, rowWord x.op, x.op⟩ && decide ((c 0 0 (rowWord x.op)).hostel = some ⟨0, 0, rowWord x.op, x.op⟩)
  | none => false

theorem issues_of {s : State} {c : HosCtor} (h : rowOk s c = true) : ∃ w, HosIssues s (c 0 0 w) := by
  unfold rowOk at h
  split at h
  · next x _ =>
    rw [Bool.and_eq_true, decide_eq_true_eq] at h
    exact ⟨rowWord x.op, _, h.2, ready_of h.1⟩
  · exact absurd h (by decide)

/-- A group of lanes 0 and 31. -/
def two : State := hosState 0 0 0x80000001 [(4, 0, 0), (4, 31, 64)]

theorem test_wit_HostelIntegerResults : (∀ row ∈ intRows, ∃ w, HosIssues two (row.1 0 0 w)) ∧
    ∀ row ∈ predRows, ∃ w, HosIssues two (row.1 0 0 w) := by
  have h1 : intRows.all (fun row => rowOk two row.1) = true := by decide +kernel
  have h2 : predRows.all (fun row => rowOk two row.1) = true := by decide +kernel
  exact ⟨fun row h => issues_of (List.all_eq_true.1 h1 row h), fun row h => issues_of (List.all_eq_true.1 h2 row h)⟩

theorem test_wit_HostelFloatResults : (∀ row ∈ floatRows (two.ditherCtx 0 0), ∃ w, HosIssues two (row.1 0 0 w)) ∧
    ∀ row ∈ tallyRows, ∃ w, HosIssues two (row.1 0 0 w) := by
  have h1 : (floatRows (two.ditherCtx 0 0)).all (fun row => rowOk two row.1) = true := by decide +kernel
  have h2 : tallyRows.all (fun row => rowOk two row.1) = true := by decide +kernel
  exact ⟨fun row h => issues_of (List.all_eq_true.1 h1 row h), fun row h => issues_of (List.all_eq_true.1 h2 row h)⟩

/-- `s` with launch 7 in RUNNING in slot 3. -/
def runs7 (s : State) : State := (s.setFld (LNCH.STATUS 3) LNCH.STATUS_STATE 2).setFld (LNCH.STATUS 3) LNCH.STATUS_LAUNCH 7

/-- `s` with one field of group 0 of hostel 0 changed. -/
def onGroup (s : State) (f : Group → Group) : State := s.setGroup 0 0 (f (s.group 0 0))

/-- The instruction of a row in slot 0 of hostel 0. -/
def cmdOf (op : HOp) : HosCmd := ⟨0, 0, rowWord op, op⟩

/-- Where an issued word stops: a slot without a group, an illegal word, a window of 128, a licence of neither feature, and a register that
a peer's answer will write. -/
theorem test_wit_HostelIssueStops :
    let w : W64 := hosWord 6 0 [(8, 17), (4, 24), (128, 45)]
    let off := (two.setFlag BRG.ENABLED BRG.ENABLED_MX false).setFlag BRG.ENABLED BRG.ENABLED_TALLY false
    let busy := onGroup two fun g => { g with peer := [.mem (rowWord ⟨7, 4⟩) 1 []] }
    State.reset.canIssue 0 0 = false ∧ two.canIssue 0 0 = true ∧ hostelLegal 0xF = false ∧
      (hostelLegal w = true ∧ hwOp w = ⟨6, 0⟩ ∧ hostelBadWindow w = true) ∧
      (hostelLegal (rowWord ⟨6, 0⟩) = true ∧ hostelBadWindow (rowWord ⟨6, 0⟩) = false ∧ hostelFeature (rowWord ⟨6, 0⟩) = 2 ∧
        off.flag BRG.ENABLED BRG.ENABLED_TALLY = false) ∧
      (hostelFeature (rowWord ⟨5, 0x10⟩) = 1 ∧ off.flag BRG.ENABLED BRG.ENABLED_MX = false) ∧
      (hostelFeature (rowWord ⟨0, 0⟩) = 0 ∧ busy.canIssue 0 0 = true ∧ busy.interlocked 0 0 (rowWord ⟨0, 0⟩) = true) ∧
      ((runs7 two).slotOf ((runs7 two).group 0 0).launch = some 3 ∧ ((runs7 two).launch 3).killing = false ∧
        (runs7 two).flag (HOS.KILL_LOG 0) HOS.KILL_LOG_VALID = false) := by decide +kernel

/-- Every lane of the group reaches a byte in block slot `k.2` of hostel `k.1`, as a computation. -/
def memReadyB (s : State) (x : HosCmd) (k : Nat × Nat) : Bool :=
  readyB s x && decide (s.rankBlock x.h.toNat (s.group x.h.toNat x.g.toNat).block (hwRank x.w) = some k) &&
    (List.range 32).all fun l => !(execMask (s.group x.h.toNat x.g.toNat) x.w).getLsbD l ||
      decide (offCause (memOffset x.w (s.group x.h.toNat x.g.toNat) l) (memSize x.w) (memSize x.w) (some (s.blockAt k.1 k.2).size) = none)

theorem memReady_of {s : State} {x : HosCmd} {k : Nat × Nat} (h : memReadyB s x k = true) : MemReady s x k := by
  unfold memReadyB at h
  simp only [Bool.and_eq_true, decide_eq_true_eq, List.all_eq_true, List.mem_range, Bool.or_eq_true, Bool.not_eq_true'] at h
  refine ⟨ready_of h.1.1, h.1.2, fun l hl he => ?_⟩
  rcases h.2 l hl with h' | h'
  · rw [Executes, h'] at he; exact absurd he (by decide)
  · exact h'

/-- A row of the memory classes in `s`, whose lanes reach block slot 0 of hostel 0. -/
def memRowB (s : State) (c : HosCtor) : Bool :=
  match (c 0 0 0).hostel with
  | some x => decide ((c 0 0 (rowWord x.op)).hostel = some (cmdOf x.op)) && memReadyB s (cmdOf x.op) (0, 0)
  | none => false

theorem memRow_of {s : State} {c : HosCtor} (h : memRowB s c = true) :
    ∃ x : HosCmd, (c x.h x.g x.w).hostel = some x ∧ MemReady s x (0, 0) ∧ (0, 0).1 = x.h.toNat := by
  unfold memRowB at h
  split at h
  · next x _ =>
    rw [Bool.and_eq_true, decide_eq_true_eq] at h
    exact ⟨cmdOf x.op, h.1, memReady_of h.2, rfl⟩
  · exact absurd h (by decide)

theorem test_wit_HostelLoads : ∀ row ∈ loadRows, ∃ x : HosCmd, (row.1 x.h x.g x.w).hostel = some x ∧ MemReady two x (0, 0) ∧ (0, 0).1 = x.h.toNat := by
  have h : loadRows.all (fun row => memRowB two row.1) = true := by decide +kernel
  exact fun row m => memRow_of (List.all_eq_true.1 h row m)

theorem test_wit_HostelStores : ∀ c ∈ storeRows, ∃ x : HosCmd, (c x.h x.g x.w).hostel = some x ∧ MemReady two x (0, 0) ∧ (0, 0).1 = x.h.toNat := by
  have h : storeRows.all (fun c => memRowB two c) = true := by decide +kernel
  exact fun c m => memRow_of (List.all_eq_true.1 h c m)

theorem test_wit_HostelAtomics : ∀ row ∈ atomRows, ∃ x : HosCmd, (row.1 x.h x.g x.w).hostel = some x ∧ MemReady two x (0, 0) ∧
    (0, 0).1 = x.h.toNat := by
  have h : atomRows.all (fun row => memRowB two row.1) = true := by decide +kernel
  exact fun row m => memRow_of (List.all_eq_true.1 h row m)

/-- Try-acquire and release: free locks, the group's own locks, and a lock of another group, under which lane 0 does not own its lock. -/
theorem test_wit_HostelLocks :
    let own := (two.putBytes (storeBase 0) (leBytes 4 (ownerWord 0 0 0))).putBytes (storeBase 0 + 64) (leBytes 4 (ownerWord 0 0 31))
    let other := two.putBytes (storeBase 0) (leBytes 4 (ownerWord 0 9 0))
    (∃ x : HosCmd, (Instr.acq x.h x.g x.w).hostel = some x ∧ MemReady two x (0, 0) ∧ (0, 0).1 = x.h.toNat ∧ Executes two 0 0 x.w 0 ∧
      before two x (0, 0) 0 = [] ∧ two.word (laneDpa two x (0, 0) 0) 4 = 0 ∧ own.word (laneDpa own x (0, 0) 0) 4 = ownerWord 0 0 0 ∧
      other.word (laneDpa other x (0, 0) 0) 4 = ownerWord 0 9 0) ∧
    ∃ x : HosCmd, (Instr.rel x.h x.g x.w).hostel = some x ∧ MemReady own x (0, 0) ∧ MemReady other x (0, 0) ∧ (0, 0).1 = x.h.toNat ∧
      (∀ l < 32, Executes own 0 0 x.w l → own.word (laneDpa own x (0, 0) l) 4 = ownerWord 0 0 l) ∧ Executes other 0 0 x.w 0 ∧
      other.word (laneDpa other x (0, 0) 0) 4 ≠ ownerWord 0 0 0 := by
  refine ⟨⟨cmdOf ⟨8, 0x10⟩, by decide +kernel, memReady_of (by decide +kernel), rfl, ?_⟩,
    ⟨cmdOf ⟨8, 0x11⟩, by decide +kernel, memReady_of (by decide +kernel), memReady_of (by decide +kernel), rfl, ?_⟩⟩ <;>
  unfold Executes <;> decide +kernel

/-- Offsets that break a check: 65 for a word (alignment), and 65,536 (the block's end). -/
theorem test_wit_HostelMemoryFaults :
    let x := cmdOf ⟨7, 4⟩
    let a := onGroup two fun g => g.wv 4 0 65
    let b := onGroup two fun g => g.wv 4 0 65536
    HosReady a x ∧ HosReady b x ∧ x.op.cls = 7 ∧ Executes a 0 0 x.w 0 ∧ Executes b 0 0 x.w 0 ∧
      offCause (memOffset x.w (a.group 0 0) 0) 4 4 ((a.rankBlock 0 0 (hwRank x.w)).map fun k => (a.blockAt k.1 k.2).size) = some cMISALIGNED ∧
      offCause (memOffset x.w (b.group 0 0) 0) 4 4 ((b.rankBlock 0 0 (hwRank x.w)).map fun k => (b.blockAt k.1 k.2).size) = some cSEGMENT ∧
      offCause (65536 - 4) 4 4 (some 65536) = none := by
  refine ⟨ready_of (by decide +kernel), ready_of (by decide +kernel), ?_⟩
  unfold Executes; decide +kernel

/-- A cluster of two blocks: rank 1 lies in hostel 1. -/
def pairState : State :=
  let s := two.setBlock 0 0 { two.blockAt 0 0 with cluster := 0, nblocks := 2, slot := 3 }
  runs7 (s.setBlock 1 0 { used := true, launch := 7, rank := 1, size := 65536, nblocks := 2, slot := 3 })

/-- RANK 1 in place of 4. -/
def farWord : W64 := hosWord 7 4 [(8, 17), (4, 24), (1, 31)]

theorem test_wit_HostelPeerAccesses :
    let op : PeerOp := .sig 1 5 3
    let waits := onGroup pairState fun g => { g with peer := [op] }
    let up := ((waits.setFlag (HOS.STATUS 1) HOS.STATUS_PRESENT true).setFlag (HOS.STATUS 1) HOS.STATUS_POWERED true).setFld BRG.ENABLED
      BRG.ENABLED_HOSTELS 0xFF
    (MemReady pairState ⟨0, 0, farWord, ⟨7, 4⟩⟩ (1, 0) ∧ (1, 0).1 ≠ 0 ∧ Executes pairState 0 0 farWord 31) ∧
      ((waits.group 0 0).peer = [] ++ op :: [] ∧ op.target = 1) ∧ (up.hostelUp 1 = true ∧ up.flag (HOS.STATUS 1) HOS.STATUS_FENCED = false) ∧
      waits.hostelUp 1 = false ∧ (waits.slotOf (waits.group 0 0).launch).isSome = true := by
  refine ⟨⟨memReady_of (by decide +kernel), by decide, ?_⟩, ?_⟩
  · unfold Executes; decide +kernel
  · decide +kernel

/-- Tile instructions of a whole group, with m8 at offset 0 and at the last tile of the block. -/
theorem test_wit_HostelTiles :
    let s := onGroup two fun g => (g.wv 4 0 61440)
    (∀ f < 6, HosReady s (cmdOf ⟨9, f⟩) ∧ Whole s (cmdOf ⟨9, f⟩)) ∧
      offCause 61440 4096 128 (some (s.blockAt 0 0).size) = none ∧ s.rankBlock 0 0 (hwRank (rowWord ⟨9, 0⟩)) = some (0, 0) ∧
      (Instr.tld 0 0 (rowWord ⟨9, 0⟩)).hostel = some (cmdOf ⟨9, 0⟩) ∧ (Instr.tst 0 0 (rowWord ⟨9, 1⟩)).hostel = some (cmdOf ⟨9, 1⟩) ∧
      (Instr.tmov 0 0 (rowWord ⟨9, 2⟩)).hostel = some (cmdOf ⟨9, 2⟩) ∧ (Instr.tzero 0 0 (rowWord ⟨9, 3⟩)).hostel = some (cmdOf ⟨9, 3⟩) ∧
      (Instr.trd 0 0 (rowWord ⟨9, 4⟩)).hostel = some (cmdOf ⟨9, 4⟩) ∧ (Instr.twr 0 0 (rowWord ⟨9, 5⟩)).hostel = some (cmdOf ⟨9, 5⟩) := by
  have h : (List.range 6).all (fun f => readyB (onGroup two fun g => (g.wv 4 0 61440)) (cmdOf ⟨9, f⟩)) = true := by decide +kernel
  refine ⟨fun f hf => ⟨ready_of (List.all_eq_true.1 h f (List.mem_range.2 hf)), ?_⟩, ?_⟩
  · exact (by decide +kernel : ((onGroup two fun g => g.wv 4 0 61440).group 0 0).active = ((onGroup two fun g => g.wv 4 0 61440).group 0 0).live)
  · decide +kernel

/-- Divergence: a group not whole before a dot, a lane and a barrier instruction; EXIT with lanes left and as the last; a rejoin that
switches to the pending path, and one that restores the mask. -/
theorem test_wit_HostelDivergence :
    let part := onGroup two fun g => { g with active := 1 }
    let e : Rejoin := { rejoin := 16, saved := 0x80000001, pendPc := 262136, pendMask := 1 }
    let p := onGroup two fun g => { g with pc := 16, stack := [e] }
    let r := onGroup two fun g => { g with pc := 16, stack := [{ e with pendMask := 0 }] }
    (∀ op ∈ [⟨0xA, 0⟩, ⟨0xB, 0⟩, ⟨9, 3⟩, (⟨0xD, 0⟩ : HOp), ⟨0xD, 1⟩, ⟨0xC, 6⟩], HosReady part (cmdOf op)) ∧ ¬ Whole part (cmdOf ⟨0xA, 0⟩) ∧
      ((part.group 0 0).live &&& ~~~(part.group 0 0).active ≠ 0) ∧ HosReady two (cmdOf ⟨0xC, 6⟩) ∧
      ((two.group 0 0).live &&& ~~~(two.group 0 0).active = 0 ∧ (two.group 0 0).peer = [] ∧ (∀ o ∈ two.arrayQ 0, o.group ≠ 0)) ∧
      (Instr.exit 0 0 (rowWord ⟨0xC, 6⟩)).hostel = some (cmdOf ⟨0xC, 6⟩) ∧
      ((p.group 0 0).used = true ∧ (p.group 0 0).stopped = false ∧ (p.group 0 0).wait = .none ∧ (p.group 0 0).stack = e :: [] ∧
        (p.group 0 0).pc.toNat = e.rejoin ∧ e.pendMask ≠ 0 ∧ e.pendPc < 262144 ∧ e.pendPc ≠ e.rejoin) ∧
      ((r.group 0 0).stack = { e with pendMask := 0 } :: [] ∧ (r.group 0 0).pc.toNat = e.rejoin) := by
  have h : [⟨0xA, 0⟩, ⟨0xB, 0⟩, ⟨9, 3⟩, (⟨0xD, 0⟩ : HOp), ⟨0xD, 1⟩, ⟨0xC, 6⟩].all
      (fun op => readyB (onGroup two fun g => { g with active := 1 }) (cmdOf op)) = true := by decide +kernel
  refine ⟨fun op m => ready_of (List.all_eq_true.1 h op m), ?_, by decide +kernel, ready_of (by decide +kernel), by decide +kernel⟩
  unfold Whole; decide +kernel

/-- Dot and lane instructions join a queue of 7, find one of 8 full, break each check, and have N = 0; ARRAY_START on each and on none. -/
theorem test_wit_HostelArray :
    let lane (d a b n : W32) := onGroup two fun g => ((((g.wv 8 0 d).wv 4 0 a).wv 12 0 b).wv 14 0 n)
    let o : ArrayOp := { group := 0, launch := 7, word := rowWord ⟨0xA, 0⟩, d0 := 0, a0 := 0, b0 := 0, n := 0, s := 0, dva := 0 }
    let l : ArrayOp := { group := 0, launch := 7, word := rowWord ⟨0xB, 0⟩, d0 := 0, a0 := 64, b0 := 128, n := 4, s := 0, dva := 0 }
    let w := rowWord ⟨0xB, 0⟩
    HosReady two (cmdOf ⟨0xA, 0⟩) ∧ Whole two (cmdOf ⟨0xA, 0⟩) ∧ dotBusy (two.group 0 0) (rowWord ⟨0xA, 0⟩) = false ∧
      ((two.setArrayQ 0 (List.replicate 7 o)).arrayQ 0).length < 8 ∧ 8 ≤ ((two.setArrayQ 0 (List.replicate 8 o)).arrayQ 0).length ∧
      (∀ c ∈ laneRows, ∃ x : HosCmd, (c x.h x.g x.w).hostel = some x) ∧ HosReady (lane 0 4096 8192 4) (cmdOf ⟨0xB, 0⟩) ∧
      laneCause w 65536 0 4096 8192 4 = none ∧ laneCause w 65536 0 4096 8192 (2 ^ 24 + 1) = some cLANE_COUNT ∧
      laneCause w 65536 0 65532 8192 2 = none ∧
      laneCause w 65536 0 65532 8192 3 = some cSEGMENT ∧ laneCause w 65536 1 4096 8192 4 = some cMISALIGNED ∧
      laneCause w 65536 0 4 8192 4 = some cSTREAM_OVERLAP ∧ (((lane 0 4096 8192 0).group 0 0).rv 14 0).toNat = 0 ∧
      two.arrayQ 0 = [] ∧ (two.setArrayQ 0 [o]).arrayQ 0 = o :: [] ∧ hwClass o.word = 0xA ∧ (two.setArrayQ 0 [l]).arrayQ 0 = l :: [] ∧
      hwClass l.word ≠ 0xA := by
  refine ⟨ready_of (by decide +kernel), by unfold Whole; decide +kernel, by decide +kernel, by decide +kernel, by decide +kernel, ?_,
    ready_of (by decide +kernel), ?_⟩
  · intro c hc
    simp only [laneRows, List.mem_cons, List.not_mem_nil, or_false] at hc
    rcases hc with rfl | rfl | rfl | rfl | rfl | rfl | rfl <;> exact ⟨⟨0, 0, 0, _⟩, rfl⟩
  · decide +kernel

/-- Branches: one target, none and some of the lanes taken, a full stack of 16, an indirect target equal and unequal. -/
theorem test_wit_HostelControl :
    let some_ := onGroup two fun g => { g with p := [(1, 1)] }
    let all_ := onGroup two fun g => { g with p := [(1, 0x80000001)] }
    let e : Rejoin := { rejoin := 160, saved := 1, pendPc := 0, pendMask := 0 }
    let full := onGroup two fun g => { g with p := [(1, 1)], stack := List.replicate 16 e }
    let taken (s : State) := (s.group 0 0).active &&& (s.group 0 0).rp 1
    let go := onGroup two fun g => (g.wv 16 0 262136).wv 16 31 262136
    let odd := onGroup two fun g => (g.wv 16 0 4).wv 16 31 4
    (∀ f < 8, HosReady two (cmdOf ⟨0xC, f⟩)) ∧ HosReady full (cmdOf ⟨0xC, 1⟩) ∧ hwBP (rowWord ⟨0xC, 1⟩) = 1 ∧
      taken two = 0 ∧ (taken some_ ≠ 0 ∧ taken some_ ≠ (some_.group 0 0).active ∧ (some_.group 0 0).stack.length < 16) ∧
      (taken all_ ≠ 0 ∧ taken all_ = (all_.group 0 0).active) ∧ (taken full ≠ 0 ∧ 16 ≤ (full.group 0 0).stack.length) ∧
      hwTarget (rowWord ⟨0xC, 2⟩) % 128 = 16 ∧
      ((∀ l < 32, (go.group 0 0).active.getLsbD l = true → ((go.group 0 0).rv 16 l).toNat = 262136) ∧ (go.group 0 0).active ≠ 0 ∧
        262136 % 8 = 0 ∧ 262136 < 262144) ∧
      ((∀ l < 32, (odd.group 0 0).active.getLsbD l = true → ((odd.group 0 0).rv 16 l).toNat = 4) ∧ (odd.group 0 0).active ≠ 0 ∧
        ¬ (4 % 8 = 0 ∧ 4 < 262144)) ∧
      (∃ l < 32, ∃ m < 32, ((onGroup go fun g => g.wv 16 0 8).group 0 0).active.getLsbD l = true ∧
        ((onGroup go fun g => g.wv 16 0 8).group 0 0).active.getLsbD m = true ∧
        ((onGroup go fun g => g.wv 16 0 8).group 0 0).rv 16 l ≠ ((onGroup go fun g => g.wv 16 0 8).group 0 0).rv 16 m) := by
  have h : (List.range 8).all (fun f => readyB two (cmdOf ⟨0xC, f⟩)) = true := by decide +kernel
  exact ⟨fun f hf => ready_of (List.all_eq_true.1 h f (List.mem_range.2 hf)), ready_of (by decide +kernel), by decide +kernel⟩

/-- Waits: an arrival counter at and below its value, a fence with and without accesses in flight, a barrier of the block complete and not,
and of the cluster. -/
theorem test_wit_HostelWaits :
    let waits (w : GWait) := onGroup two fun g => { g with wait := w }
    let busy := onGroup two fun g => { g with peer := [.sig 1 0 1] }
    (∀ f < 6, HosReady two (cmdOf ⟨0xD, f⟩) ∧ Whole two (cmdOf ⟨0xD, f⟩)) ∧ (two.group 0 0).peer = [] ∧ (busy.group 0 0).peer ≠ [] ∧
      ((waits (.waita 3 0)).group 0 0).stopped = false ∧ 0 ≤ (two.ctr 0 3 - 0).toInt ∧ (two.ctr 0 3 - 1).toInt < 0 ∧
      ((waits (.fenceThen .barb)).group 0 0).wait = .fenceThen .barb ∧
      (∀ g < 64, ((waits .barb).group 0 g).used = true → ((waits .barb).group 0 g).wait = .barb) ∧
      (two.group 0 0).wait ≠ .barb ∧ (two.blockAt 0 0).used = true ∧
      (∀ k ∈ (waits .barc).clusterBlocks ((waits .barc).blockAt 0 0), ∀ g ∈ (waits .barc).liveGroups k.1 k.2, ((waits .barc).group k.1 g).wait = .barc) := by
  have h : (List.range 6).all (fun f => readyB two (cmdOf ⟨0xD, f⟩)) = true := by decide +kernel
  refine ⟨fun f hf => ⟨ready_of (List.all_eq_true.1 h f (List.mem_range.2 hf)), ?_⟩, by decide +kernel⟩
  exact (by decide +kernel : (two.group 0 0).active = (two.group 0 0).live)

/-- Signals: to the group's own block, to rank 1 in another hostel, to a rank that no block has; milestones with room and as the last of the
block's groups. -/
theorem test_wit_HostelSignals :
    let two_ := two.setGroup 0 1 { used := true, launch := 7, gidx := 1, active := 1, live := 1 }
    HosReady two (cmdOf ⟨0xD, 6⟩) ∧ HosReady two (cmdOf ⟨0xD, 7⟩) ∧ (Instr.siga 0 0 (rowWord ⟨0xD, 6⟩)).hostel = some (cmdOf ⟨0xD, 6⟩) ∧
      (Instr.mile 0 0 (rowWord ⟨0xD, 7⟩)).hostel = some (cmdOf ⟨0xD, 7⟩) ∧ hwSRank (rowWord ⟨0xD, 6⟩) = 4 ∧
      two.rankBlock 0 0 4 = some (0, 0) ∧ pairState.rankBlock 0 0 1 = some (1, 0) ∧ two.rankBlock 0 0 3 = none ∧ (two.group 0 0).peer = [] ∧
      ((two_.blockAt 0 0).miles.length < 4 ∧ (two_.group 0 0).gidx < 64 ∧ (two_.group 0 1).used = true ∧ (two_.group 0 1).block = 0 ∧
        (two_.group 0 1).gidx ≠ (two_.group 0 0).gidx ∧ (two_.group 0 1).gidx < 64) ∧
      ((two.blockAt 0 0).miles = [] ∧ two.liveMask 0 0 = 2 ^ (two.group 0 0).gidx) := by
  exact ⟨ready_of (by decide +kernel), ready_of (by decide +kernel), by decide +kernel⟩

/-- MOVS of every special register, and WSR with and without a lane that passes the guard. -/
theorem test_wit_HostelSpecialRegisters :
    let movs (r : Nat) : HosCmd := ⟨0, 0, hosWord 0xE 0 [(8, 17), (r, 24)], ⟨0xE, 0⟩⟩
    let off : HosCmd := ⟨0, 0, hosWord 0xE 1 [(1, 12), (0x0A, 17), (4, 24)], ⟨0xE, 1⟩⟩
    (∀ r ∈ List.range 17 ++ [0x12, 0x14, 0x16], HosReady two (movs r) ∧ hwA (movs r).w = r) ∧ HosReady two (cmdOf ⟨0xE, 1⟩) ∧ HosReady two off ∧
      (Instr.movs 0 0 (movs 0).w).hostel = some (movs 0) ∧ (Instr.wsr 0 0 off.w).hostel = some off ∧
      Executes two 0 0 (rowWord ⟨0xE, 1⟩) 0 ∧ ∀ l < 32, ¬ Executes two 0 0 off.w l := by
  have h : (List.range 17 ++ [0x12, 0x14, 0x16]).all (fun r => readyB two ⟨0, 0, hosWord 0xE 0 [(8, 17), (r, 24)], ⟨0xE, 0⟩⟩ &&
      hwA (hosWord 0xE 0 [(8, 17), (r, 24)]) == r) = true := by decide +kernel
  refine ⟨fun r m => ?_, ready_of (by decide +kernel), ready_of (by decide +kernel), by decide +kernel, by decide +kernel, ?_⟩
  · have := List.all_eq_true.1 h r m
    rw [Bool.and_eq_true, beq_iff_eq] at this
    exact ⟨ready_of this.1, this.2⟩
  · unfold Executes; decide +kernel

/-! ### States that meet the statements' hypotheses: the porter set -/

/-- The check at issue, as a computation. -/
def porReadyB (s : State) (x : PorCmd) : Bool :=
  s.porCanIssue x.c && (match x.c with | .porter _ => decide ((s.core x.c).pc.toNat < 65536) | .steward _ => true) && coreLegal x.c x.w &&
    decide (pwRow x.w = x.op) && !porterBadWindow x.w && (s.flag BRG.ENABLED BRG.ENABLED_MX && s.flag BRG.ENABLED BRG.ENABLED_TALLY) &&
    !s.porPending x.c x.w

theorem porReady_of {s : State} {x : PorCmd} (h : porReadyB s x = true) : PorReady s x := by
  unfold porReadyB at h
  simp only [Bool.and_eq_true, Bool.not_eq_true', decide_eq_true_eq] at h
  obtain ⟨⟨⟨⟨⟨⟨h1, h2⟩, h3⟩, h4⟩, h5⟩, h6⟩, h7⟩ := h
  refine ⟨h1, fun n hn => ?_, h3, h4, h5, ⟨fun _ => h6.1, fun _ => h6.2⟩, h7⟩
  rw [hn] at h2 ⊢
  exact of_decide_eq_true h2

/-- A legal word of each row: registers 2, 4, 6 and 8. -/
def porRowWord (op : POp) : W32 :=
  let d := if op.op = 0x41 ∨ op.op = 0x47 ∨ op.op = 0x50 ∨ op.op = 0x51 ∨ op.op = 0x52 ∨ op.op = 0x53 ∨ op.op = 0x55 ∨
    (0x61 ≤ op.op ∧ op.op ≠ 0x64) then 0 else if op.op = 0x64 then op.fn else 2
  let a := if op.op = 0x50 ∨ (0x53 ≤ op.op ∧ op.op ≠ 0x55 ∧ op.op ≠ 0x61 ∧ op.op ≠ 0x64) then 0 else 4
  let b := if (op.op = 0x01 ∧ (op.fn = 0x16 ∨ op.fn = 0x17)) ∨ (op.op = 0x30 ∧ (op.fn ∈ [7, 8, 9, 0xD, 0xE])) ∨ (op.op = 0x32 ∧ op.fn < 0xC) ∨
    op.op = 0x34 ∨ op.op = 0x35 ∨ op.op = 0x40 ∨ op.op = 0x45 ∨ op.op = 0x50 ∨ op.op = 0x52 ∨ op.op = 0x53 ∨ op.op = 0x54 ∨
    0x60 ≤ op.op then 0 else if op.op = 0x55 then 7 else 6
  let c := if op.op = 0x30 ∧ op.fn = 3 then 8 else 0
  porWord op.op (if op.op = 0x01 ∨ op.op = 0x30 ∨ op.op = 0x32 then op.fn else 0) d a b + BitVec.ofNat 32 (c * 2 ^ 22)

/-- Whether the row of a constructor passes the check at issue on a core. -/
def porRowB (s : State) (c : CoreRef) (k : PorCtor) : Bool :=
  match (k c 0).porter with
  | some x => porReadyB s ⟨c, porRowWord x.op, x.op⟩ && decide ((k c (porRowWord x.op)).porter = some ⟨c, porRowWord x.op, x.op⟩)
  | none => false

theorem porIssues_of {s : State} {c : CoreRef} {k : PorCtor} (h : porRowB s c k = true) : ∃ w, PorIssues s (k c w) := by
  unfold porRowB at h
  split at h
  · next x _ =>
    rw [Bool.and_eq_true, decide_eq_true_eq] at h
    exact ⟨porRowWord x.op, _, h.2, porReady_of h.1⟩
  · exact absurd h (by decide)

/-- Porter 9 at pc 0, and steward core 0. -/
def por9 : State := porState 9 [(4, 64), (6, 2)] 0
def core0 : State :=
  let s := (State.reset.setFlag BRG.ENABLED BRG.ENABLED_MX true).setFlag BRG.ENABLED BRG.ENABLED_TALLY true
  (s.setFld STW.STATUS STW.STATUS_CORES_UP 1).setScore 0 { core := { g := [(4, 64), (6, 2)] } }

/-- A row of a list of them on both kinds of core. -/
def bothB (k : PorCtor) : Bool := porRowB por9 (.porter 9) k && porRowB core0 (.steward 0) k

theorem both_of {k : PorCtor} (h : bothB k = true) : (∃ w, PorIssues por9 (k (.porter 9) w)) ∧ ∃ w, PorIssues core0 (k (.steward 0) w) := by
  unfold bothB at h
  rw [Bool.and_eq_true] at h
  exact ⟨porIssues_of h.1, porIssues_of h.2⟩

theorem test_wit_PorterArithmetic : (∀ row, PorIntRow row → (∃ w, PorIssues por9 (row.1 (.porter 9) w)) ∧ ∃ w, PorIssues core0 (row.1 (.steward 0) w)) ∧
    ∀ row, PorFloatRow (0, 0) row → (∃ w, PorIssues por9 (row.1 (.porter 9) w)) ∧ ∃ w, PorIssues core0 (row.1 (.steward 0) w) := by
  constructor
  · intro row m
    unfold PorIntRow at m
    exact both_of (List.all_eq_true.1 (by decide +kernel : List.all (_ ++ _ ++ _) (fun (row : PorCtor × _) => bothB row.1) = true) row m)
  · intro row m
    unfold PorFloatRow at m
    exact both_of (List.all_eq_true.1 (by decide +kernel : List.all (_ ++ _ ++ _) (fun (row : PorCtor × _) => bothB row.1) = true) row m)

/-- A state in which one packet has come to an end. -/
theorem takes_one (s : State) (e : MeshEnd) (p : MeshBody → Bool) (b : MeshBody) (vc : Nat) (h : p b = true) :
    Takes e p b (s.setInbox e [(vc, b)]) ((s.setInbox e [(vc, b)]).setInbox e []) :=
  ⟨[], vc, [], by simp [State.inbox, State.setInbox], by simp, h, rfl⟩

/-- Por9 with its launch 7 running in slot 3. -/
def leg9 : State := runs7 (por9.setPorter 9 { por9.porter 9 with msg := { launch := 7, pidx := 2, nporters := 4 } })

/-- Where a porter's word stops: not running, a pc of 65,536, an illegal word, a window of 128, no licence, and a pending register. -/
theorem test_wit_PorterIssueStops :
    let c := CoreRef.porter 9
    let w : W32 := 0x34 + BitVec.ofNat 32 (128 * 2 ^ 22)
    let far := leg9.setPorter 9 { leg9.porter 9 with core := { pc := 65536 } }
    let off := leg9.setFlag BRG.ENABLED BRG.ENABLED_TALLY false
    let busy := leg9.setPorter 9 { leg9.porter 9 with slots := [(0, { op := 0x40, dst := 2, n := 4, compl := none })] }
    State.reset.porCanIssue c = false ∧ leg9.porCanIssue c = true ∧ ((far.core c).pc.toNat = 65536) ∧ (leg9.core c).pc.toNat < 65536 ∧
      coreLegal c 0x7F = false ∧ (coreLegal c w = true ∧ pwRow w = ⟨0x34, 0⟩ ∧ porterBadWindow w = true) ∧
      (porterBadWindow (porRowWord ⟨0x34, 0⟩) = false ∧ porterFeature (porRowWord ⟨0x34, 0⟩) = 2 ∧ off.flag BRG.ENABLED BRG.ENABLED_TALLY = false) ∧
      (porterFeature (porRowWord ⟨1, 0⟩) = 0 ∧ busy.porPending c (porRowWord ⟨1, 0⟩) = true) ∧
      (leg9.slotOf (leg9.porter 9).msg.launch = some 3 ∧ (leg9.launch 3).killing = false ∧
        leg9.flag (POR.KILL_LOG 9) POR.KILL_LOG_VALID = false) := by decide +kernel

/-- A steward core with a line of its L2, dirty, at DPA 64. -/
def lineState (evict : List EvEntry) : State :=
  let s := core0.setL2 1 0 (some { line := 1, dirty := true, data := List.replicate 64 5 })
  s.updSteward fun x => { x with evict := evict }

theorem test_wit_StewardSupervisor :
    let c := CoreRef.steward 0
    let e : EvEntry := { line := 9, data := [], en := [] }
    (∀ op ∈ [(⟨0x60, 0⟩ : POp), ⟨0x61, 0⟩, ⟨0x62, 0⟩, ⟨0x63, 0⟩, ⟨0x64, 0⟩, ⟨0x64, 1⟩, ⟨0x64, 2⟩, ⟨0x64, 3⟩, ⟨0x65, 0⟩, ⟨0x66, 0⟩, ⟨0x50, 0⟩, ⟨0x54, 0⟩],
        PorReady core0 ⟨c, porRowWord op, op⟩) ∧ PorReady core0 ⟨c, porWord 0x60 0 2 0 0x10, ⟨0x60, 0⟩⟩ ∧ pwI (porWord 0x60 0 2 0 0x10) = 0x10 ∧
      PorReady core0 ⟨c, porWord 0x61 0 0 4 0x10, ⟨0x61, 0⟩⟩ ∧ PorReady core0 ⟨c, porWord 0x54 0 2 0 7, ⟨0x54, 0⟩⟩ ∧ pwI (porWord 0x54 0 2 0 7) = 7 ∧
      core0.steward.evict = [] ∧ (core0.score 0).stream = none ∧ (lineState [e]).steward.evict ≠ [] ∧
      (let s := lineState []
       segDpa s 0 ((s.score 0).core.rg (pwA (porRowWord ⟨0x64, 0⟩)) + imm32 (porRowWord ⟨0x64, 0⟩)).toNat = 64 ∧ stwCached 64 = true ∧
         s.fillOf 1 = none ∧ L2Holds s 1 (List.replicate 64 5) ∧ (∀ j < 4, (s.score j).stream = none) ∧ s.evictHeld 1 = false ∧
         s.steward.evict.length < 16) := by
  have h : [(⟨0x60, 0⟩ : POp), ⟨0x61, 0⟩, ⟨0x62, 0⟩, ⟨0x63, 0⟩, ⟨0x64, 0⟩, ⟨0x64, 1⟩, ⟨0x64, 2⟩, ⟨0x64, 3⟩, ⟨0x65, 0⟩, ⟨0x66, 0⟩, ⟨0x50, 0⟩, ⟨0x54, 0⟩].all
      (fun op => porReadyB core0 ⟨.steward 0, porRowWord op, op⟩) = true := by decide +kernel
  refine ⟨fun op m => porReady_of (List.all_eq_true.1 h op m), porReady_of (by decide +kernel), by decide +kernel, porReady_of (by decide +kernel),
    porReady_of (by decide +kernel), by decide +kernel, by decide +kernel, by decide +kernel, by decide +kernel, by decide +kernel, by decide +kernel,
    by decide +kernel, ⟨0, { line := 1, dirty := true, data := List.replicate 64 5 }, by decide +kernel, by decide +kernel, rfl, rfl⟩, by decide +kernel⟩

/-- Branches taken and not, and targets in, beyond and off the words of local memory. -/
theorem test_wit_PorterBranches :
    (∀ row, PorBranchRow row → (∃ w, PorIssues por9 (row.1 (.porter 9) w)) ∧ ∃ w, PorIssues core0 (row.1 (.steward 0) w)) ∧
      ((∃ w, PorIssues por9 (.porJal (.porter 9) w)) ∧ ∃ w, PorIssues core0 (.porJal (.steward 0) w)) ∧
      ((∃ w, PorIssues por9 (.porJalr (.porter 9) w)) ∧ ∃ w, PorIssues core0 (.porJalr (.steward 0) w)) ∧
      (por9.core (.porter 9)).rg 4 ≠ (por9.core (.porter 9)).rg 6 ∧
      (imm32 (porWord 0x27 0 2 0 0) = 0 ∧ imm32 (porWord 0x27 0 2 0 2) = 2 ∧ (imm32 (porWord 0x27 0 2 0 0x4000) = 0xFFFFC000)) := by
  refine ⟨?_, both_of (by decide +kernel), both_of (by decide +kernel), by decide +kernel⟩
  intro row m
  unfold PorBranchRow at m
  exact both_of (List.all_eq_true.1 (by decide +kernel : List.all _ (fun (row : PorCtor × (W32 → W32 → Bool)) => bothB row.1) = true) row m)

/-- Local memory: every size at the last place that fits, beyond it and off its alignment. -/
theorem test_wit_PorterLocalMemory :
    (∀ row, PorLoadRow row → ∃ w, PorIssues por9 (row.1 (.porter 9) w)) ∧ (∀ row, PorStoreRow row → ∃ w, PorIssues por9 (row.1 (.porter 9) w)) ∧
      (∃ w, PorIssues por9 (.porTcvi (.porter 9) w)) ∧ (∃ w, PorIssues por9 (.porTcvo (.porter 9) w)) ∧
      (∃ w, PorIssues por9 (.porTaddm (.porter 9) w)) ∧ LocalOk 65520 16 ∧ LocalOk 65532 4 ∧ ¬ LocalOk 65536 1 ∧ ¬ LocalOk 65521 8 ∧
      loadAddr (porWord 0x14 0 2 4 0x7FC0) (por9.core (.porter 9)) = 0 := by
  refine ⟨?_, ?_, porIssues_of (by decide +kernel), porIssues_of (by decide +kernel), porIssues_of (by decide +kernel), ?_⟩
  · intro row m
    unfold PorLoadRow at m
    exact porIssues_of (List.all_eq_true.1 (by decide +kernel : List.all _ (fun (row : PorCtor × Nat × (W32 → Nat → List (Nat × W32) × List (Nat × W32))) =>
      porRowB por9 (.porter 9) row.1) = true) row m)
  · intro row m
    unfold PorStoreRow at m
    exact porIssues_of (List.all_eq_true.1 (by decide +kernel : List.all _ (fun (row : PorCtor × Nat × (W32 → Core → Nat)) =>
      porRowB por9 (.porter 9) row.1) = true) row m)
  · unfold LocalOk; decide +kernel

/-- Far requests that pass, that find no slot, and that break each check at its boundary. -/
theorem test_wit_PorterFarRequests :
    let full := por9.setPorter 9 { por9.porter 9 with
      slots := (List.range 8).map fun i => (i, { op := 0x43, dst := 0, n := 4, compl := none }) }
    (∀ op ∈ [(⟨0x40, 0⟩ : POp), ⟨0x41, 0⟩, ⟨0x42, 0⟩, ⟨0x43, 0⟩, ⟨0x44, 0⟩, ⟨0x45, 0⟩], PorReady por9 ⟨.porter 9, porRowWord op, op⟩) ∧
      ((por9.porter 9).freeSlot = some 0 ∧ (por9.porter 9).slots.length < 8) ∧ (full.porter 9).freeSlot = none ∧
      (∀ r : FarRow, r.moves = true → r.n = 4096 → r.lenOk 0) ∧ (∀ r : FarRow, r.n = 4 → ¬ r.lenOk 4093) ∧
      (∀ r : FarRow, r.al = 4 → ∀ k w, ¬ r.alignOk 2 k w) ∧ (∀ r : FarRow, r.moves = true → r.dst = 65533 → r.n = 4 → ∀ k w, ¬ r.placeOk k w) ∧
      (∀ r : FarRow, r.moves = true → r.dst = 61440 → r.n = 4096 → ∀ k w, pwC w = 0 → r.placeOk k w) := by
  have h : [(⟨0x40, 0⟩ : POp), ⟨0x41, 0⟩, ⟨0x42, 0⟩, ⟨0x43, 0⟩, ⟨0x44, 0⟩, ⟨0x45, 0⟩].all
      (fun op => porReadyB por9 ⟨.porter 9, porRowWord op, op⟩) = true := by decide +kernel
  refine ⟨fun op m => porReady_of (List.all_eq_true.1 h op m), by decide +kernel, by decide +kernel, ?_, ?_, ?_, ?_, ?_⟩
  · intro r h1 h2; unfold FarRow.lenOk; rw [h2]; simp
  · intro r h1; unfold FarRow.lenOk; rw [h1]; simp
  · intro r h1 k w; unfold FarRow.alignOk; rw [h1]; simp
  · intro r h1 h2 h3 k w; unfold FarRow.placeOk; rw [h1, h2, h3]; simp
  · intro r h1 h2 h3 k w h4; unfold FarRow.placeOk; rw [h1, h2, h3, h4]; simp

/-- Grid requests of 4,096 B at the end of both memories; a target beyond; and requests of the target's own launch and of another. -/
theorem test_wit_PorterGridRequests :
    let s := por9.setPorter 9 { por9.porter 9 with core := { g := [(2, 61440), (4, 61440), (6, 4096)] } }
    let k := (s.porter 9).core
    let w := porRowWord ⟨0x46, 0⟩
    PorReady s ⟨.porter 9, w, ⟨0x46, 0⟩⟩ ∧ PorReady s ⟨.porter 9, porRowWord ⟨0x47, 0⟩, ⟨0x47, 0⟩⟩ ∧ ComplOk k w ∧
      ((k.rg (pwA w)).toNat = 61440 ∧ (k.rg (pwB w)).toNat = 4096 ∧ (k.rg (pwD w)).toNat = 61440 ∧ (s.porter 9).freeSlot = some 0) ∧
      (2 ^ 28 ≤ (0x10000000 : W32).toNat) ∧ leg9.porRuns 9 7 = true ∧ leg9.porRuns 9 6 = false ∧
      (∀ o data, ∃ s u, Takes (coreEnd 9) (fun b => match b with | .gput _ _ _ _ _ => true | _ => false) (.gput 7 o data .nobody (coreEnd 0)) s u) ∧
      ∀ o v, ∃ s u, Takes (coreEnd 9) (fun b => match b with | .gadd _ _ _ _ _ => true | .req { op := .add _, .. } => true | _ => false)
        (.gadd 7 o v .nobody (coreEnd 0)) s u := by
  refine ⟨porReady_of (by decide +kernel), porReady_of (by decide +kernel), by unfold ComplOk; decide +kernel, by decide +kernel, by decide +kernel,
    by decide +kernel, by decide +kernel, fun o data => ⟨_, _, takes_one leg9 _ _ _ 2 rfl⟩, fun o v => ⟨_, _, takes_one leg9 _ _ _ 2 rfl⟩⟩

/-- Responses to a taken slot and to none, of a request and of an audit, without and with a cause. -/
theorem test_wit_PorterResponses :
    let s (op : Nat) := leg9.setPorter 9 { leg9.porter 9 with slots := [(0, { op := op, dst := 2, n := 4, compl := some 8 })] }
    (∀ op, ∃ v u, Takes (coreEnd 9) (fun b => match b with | .resp (.porter _ _) _ _ => true | _ => false) (.resp (.porter 9 0) 4 [1]) v u ∧
        v.porters = (s op).porters) ∧
      tabFind ((s 0x40).porter 9).slots 0 = some { op := 0x40, dst := 2, n := 4, compl := some 8 } ∧ tabFind ((s 0x40).porter 9).slots 1 = none ∧
      ((s 0x40).porter 9).stopped = false := by
  refine ⟨fun op => ⟨_, _, takes_one (leg9.setPorter 9 { leg9.porter 9 with slots := [(0, { op := op, dst := 2, n := 4, compl := some 8 })] })
    _ _ _ 1 rfl, rfl⟩, ?_⟩
  decide +kernel

/-- Waits that end at once and that hold, and special registers. -/
theorem test_wit_PorterWaits :
    let busy := leg9.setPorter 9 { leg9.porter 9 with slots := [(0, { op := 0x43, dst := 0, n := 4, compl := none })] }
    let held (x : PorWait) := leg9.setPorter 9 { leg9.porter 9 with wait := x }
    (∀ op ∈ [(⟨0x50, 0⟩ : POp), ⟨0x51, 0⟩, ⟨0x52, 0⟩, ⟨0x53, 0⟩, ⟨0x55, 0⟩], PorReady leg9 ⟨.porter 9, porRowWord op, op⟩) ∧
      (∀ r ∈ List.range 10 ++ [0x10, 0x12, 0x14], PorReady leg9 ⟨.porter 9, porWord 0x54 0 2 0 r, ⟨0x54, 0⟩⟩ ∧ pwI (porWord 0x54 0 2 0 r) = r) ∧
      (leg9.porter 9).slots = [] ∧ busy.porReady 9 (.waitq 0) = false ∧ busy.porReady 9 (.waitq 1) = true ∧ busy.porReady 9 .exit = false ∧
      (0 ≤ (BitVec.ofNat 32 (leg9.word (porterBase 9 + 64) 4) - 0#32).toInt) ∧ ¬ (0 ≤ (BitVec.ofNat 32 (leg9.word (porterBase 9 + 64) 4) - 2#32).toInt) ∧
      ((held .exit).porter 9).wait = .exit ∧ ((held (.waitw 64 2)).porter 9).wait = .waitw 64 2 ∧ LocalOk 64 4 := by
  have h : [(⟨0x50, 0⟩ : POp), ⟨0x51, 0⟩, ⟨0x52, 0⟩, ⟨0x53, 0⟩, ⟨0x55, 0⟩].all (fun op => porReadyB leg9 ⟨.porter 9, porRowWord op, op⟩) = true := by
    decide +kernel
  have h2 : (List.range 10 ++ [0x10, 0x12, 0x14]).all (fun r => porReadyB leg9 ⟨.porter 9, porWord 0x54 0 2 0 r, ⟨0x54, 0⟩⟩ &&
      pwI (porWord 0x54 0 2 0 r) == r) = true := by decide +kernel
  refine ⟨fun op m => porReady_of (List.all_eq_true.1 h op m), fun r m => ?_, ?_⟩
  · have := List.all_eq_true.1 h2 r m
    rw [Bool.and_eq_true, beq_iff_eq] at this
    exact ⟨porReady_of this.1, this.2⟩
  · unfold LocalOk; decide +kernel

/-- The steward's packets at a porter that runs and at one that does not, and accesses at its interface port. -/
theorem test_wit_PorterPackets :
    let idle := (leg9.setFlag (POR.STATUS 9) POR.STATUS_RUNNING false).setFlag (POR.STATUS 9) POR.STATUS_IMAGE_OK true
    (∀ b ∈ [MeshBody.start {}, .kill 7, .loadBegin, .load 0 [1], .loadCheck 0 0], ∀ s : State, ∃ p v u, p b = true ∧ Takes (coreEnd 9) p b v u ∧ v.regs = s.regs) ∧
      idle.flag (POR.STATUS 9) POR.STATUS_RUNNING = false ∧ idle.flag (POR.STATUS 9) POR.STATUS_IMAGE_OK = true ∧
      leg9.flag (POR.STATUS 9) POR.STATUS_RUNNING = true ∧ leg9.porRuns 9 7 = true ∧ leg9.porRuns 9 8 = false ∧
      ((idle.porter 9).loadDropped = false ∧ (idle.porter 9).loadCount = 0 ∧ idle.fld (POR.IMAGE_CRC 9) POR.IMAGE_CRC_VALUE = (0#32).toNat) ∧
      ∀ r : MemReq, r.op = .read ∨ r.op = .write → ∃ v u, Takes (coreEnd 9)
        (fun b => match b with | .req { op := .read, .. } => true | .req { op := .write, .. } => true | _ => false) (.req r) v u := by
  refine ⟨fun b _ s => ⟨fun x => decide (x = b), _, _, by simp, takes_one s _ _ _ 2 (by simp), rfl⟩, ?_⟩
  refine ⟨by decide +kernel, by decide +kernel, by decide +kernel, by decide +kernel, by decide +kernel, by decide +kernel, ?_⟩
  intro r h
  obtain ⟨op, _, _, _, _, _, _, _⟩ := r
  rcases h with h | h <;> (simp only at h; subst h; exact ⟨_, _, takes_one leg9 _ _ _ 0 rfl⟩)

/-- A porter that may be fenced, one fenced and drained, one off, and one whose island comes up. -/
theorem test_wit_PorterPower :
    let st := POR.STATUS 9
    let fenced := ((leg9.setFlag st POR.STATUS_RUNNING false).setFlag st POR.STATUS_FENCED true).setFlag st POR.STATUS_DRAINED true
    let off := fenced.setFlag st POR.STATUS_POWERED false
    (leg9.flag st POR.STATUS_PRESENT = true ∧ leg9.flag BRG.STATUS BRG.STATUS_PART_RESET_BUSY = false ∧ leg9.flag st POR.STATUS_FENCED = false) ∧
      (fenced.flag st POR.STATUS_PRESENT = true ∧ fenced.flag st POR.STATUS_FENCED = true ∧ fenced.flag st POR.STATUS_DRAINED = true) ∧
      off.flag st POR.STATUS_POWERED = false ∧ ((off.setPorter 9 { powering := true }).porter 9).powering = true := by decide +kernel

/-- Loads and stores of a steward core at a line that its L1 or the L2 holds and at one that none holds; an answered fill with no wait and
with a load; entries of the eviction buffer; and an L2 in order. -/
theorem test_wit_StewardMemory :
    let s := lineState []
    let f (ws : List L2Wait) : Fill := { line := 2, way := 3, prefetch := false, waits := ws, cmos := [], back := some (0, List.replicate 64 7) }
    let fills (ws : List L2Wait) := core0.updSteward fun x => { x with fills := [f ws] }
    let e (b : Bool) (n : Nat) : EvEntry := { line := 9, data := List.replicate 64 1, en := List.replicate 64 true, sent := b, left := n }
    ((∀ row, PorLoadRow row → ∃ w, PorIssues core0 (row.1 (.steward 0) w)) ∧ ∀ row, PorStoreRow row → ∃ w, PorIssues core0 (row.1 (.steward 0) w)) ∧
      (loadAddr (porWord 0x14 0 2 4 0) (s.score 0).core = 64 ∧ segDpa s 0 64 = 64 ∧ stwCached 64 = true ∧ (s.score 0).stream = none ∧
        L2Holds s 1 (List.replicate 64 5) ∧ (s.score 0).l1 = []) ∧
      (core0.l2Way 1 = none ∧ core0.evictOf 1 = none ∧ core0.fillOf 1 = none ∧ (core0.l2Alloc 1).isSome = true) ∧
      ((fills []).fillOf 2 = some (f []) ∧ (∀ g ∈ (fills []).steward.fills, g.line = 2 → g = f []) ∧ (fills []).evictHeld 2 = false) ∧
      (fills [.load 0 4 ⟨2, false, 4, false⟩]).fillOf 2 = some (f [.load 0 4 ⟨2, false, 4, false⟩]) ∧
      ((lineState [e false 0]).steward.evict = e false 0 :: [] ∧ 64 * 9 < 0x30000000) ∧
      ((lineState [e true 0]).steward.evict = e true 0 :: []) ∧ ((lineState [e true 1]).steward.evict = e true 1 :: []) ∧
      L2Ok core0 ∧ core0.steward.fills = [] := by
  refine ⟨⟨?_, ?_⟩, ⟨by decide +kernel, by decide +kernel, by decide +kernel, by decide +kernel,
    ⟨0, { line := 1, dirty := true, data := List.replicate 64 5 }, by decide +kernel, by decide +kernel, rfl, rfl⟩, by decide +kernel⟩,
    by decide +kernel, by decide +kernel, by decide +kernel, by decide +kernel, by decide +kernel, by decide +kernel,
    ⟨by decide +kernel, fun e h => absurd h (by rw [(by decide +kernel : core0.steward.lines = [])]; exact List.not_mem_nil)⟩, by decide +kernel⟩
  · intro row m
    unfold PorLoadRow at m
    exact porIssues_of (List.all_eq_true.1 (by decide +kernel : List.all _ (fun (row : PorCtor × Nat × (W32 → Nat → List (Nat × W32) × List (Nat × W32))) =>
      porRowB core0 (.steward 0) row.1) = true) row m)
  · intro row m
    unfold PorStoreRow at m
    exact porIssues_of (List.all_eq_true.1 (by decide +kernel : List.all _ (fun (row : PorCtor × Nat × (W32 → Core → Nat)) =>
      porRowB core0 (.steward 0) row.1) = true) row m)

/-! ### States that meet the statements' hypotheses: registers, the guestbook, the crossroads and couriers -/

/-- A device in service: ready, with every slice there. -/
def served (s : State) : State := { s with boot := { s.boot with ready := true } }

theorem test_wit_RegisterWrites :
    (∀ r ∈ [GLB.SCRATCH, GB.IRQ_ENABLE, GB.IRQ_STATUS, PT.POWER_LIMIT, GLB.COUNTS, 0x940000 + 2 * 655358, 0x940000 + 0x140000],
      (served State.reset).mayWrite .host r = true ∧ State.reset.mayWrite .steward r = true) ∧
      State.reset.boot.ready = false ∧ (State.reset.flag (XR.TT_CTRL 0) XR.TT_CTRL_ARM = false) ∧
      ((State.reset.setFlag (XR.TT_CTRL 0) XR.TT_CTRL_ARM true).flag (XR.TT_CTRL 0) XR.TT_CTRL_ARM = true) := by decide +kernel

/-- A commit with room and with a full ring, before and at 100 µs; a search whose answer is there, lies ahead, and has been overwritten. -/
theorem test_wit_Guestbook :
    let e (t : Nat) : GbEntry := { stamp := t, kind := kKILL, cause := 1, source := 1 }
    let s (t : Nat) := served { (State.reset.setReg ETC.VALUE 100080) with guestbook := { waiting := [e t, e (t + 80)] } }
    let full := (s 0).setFld GB.HEAD_SEQ GB.HEAD_SEQ_SEQ 16384
    let find (x : Nat) := { s 0 with finding := some x, guestbook := { ring := [(0, e 5)], lost := some 3 } }
    ((s 80).guestbook.waiting = [] ++ e 80 :: [e 160] ∧ (e 80).seq = 0 ∧ (∀ o ∈ [e 160], gbBefore o (e 80) = false)) ∧
      ((s 80).boot.ready = true ∧ (e 80).stamp + 100000 ≤ (s 80).etc) ∧ (s 160).etc < (e 160).stamp + 100000 ∧
      (full.fld GB.HEAD_SEQ GB.HEAD_SEQ_SEQ + 2 ^ 32 - full.fld GB.OLDEST_SEQ GB.OLDEST_SEQ_SEQ) % 2 ^ 32 = 16384 ∧
      (e 80).kind ∈ [kKILL, kLINK, kTHERMAL, kHEALTH, kSHUTDOWN, kUNIT, kBOOT] ∧ kLAUNCH ∉ [kKILL, kLINK, kTHERMAL, kHEALTH, kSHUTDOWN, kUNIT, kBOOT] ∧
      ((find 4).finding = some (4 : W64).toNat ∧ (find 4).guestbook.lost = some 3 ∧ 3 < (4 : W64).toNat ∧ (find 4).gbInOrder = [] ++ e 5 :: []) ∧
      ((find 3).finding = some (3 : W64).toNat ∧ (3 : W64).toNat ≤ 3) ∧ (find 6).gbInOrder = [e 5] := by decide +kernel

/-- Slice 5 is there; entries of the staging bank of West, by slot, column, direction and word. -/
def staged (l : List (Nat × Nat × Nat × Nat)) : State :=
  let s : State := { State.reset with boot := { record := [(0x10, 0x20)] } }
  s.setHalf 0 { bank := l.map fun x => (ttKey (State.reset.stagingBank 0) x.1 x.2.1 x.2.2.1, BitVec.ofNat 16 x.2.2.2) }

theorem test_wit_TimetableControl :
    let busy (s : State) := s.setFlag (XR.TT_STATUS 0) XR.TT_STATUS_CHECK_BUSY true
    let ok := busy (staged [(70, 5, 0, 0x158)])
    let bad := busy (staged [(5, 5, 0, 0x158)])
    let due := ((State.reset.setFlag (XR.TT_STATUS 0) XR.TT_STATUS_SWITCH_PENDING true).setFlag (XR.TT_STATUS 1) XR.TT_STATUS_SWITCH_PENDING true)
    let ahead := State.reset.setFld (XR.TT_SLOT 0) XR.TT_SLOT_SLOT 8
    State.reset.flag (XR.TT_CTRL 0) XR.TT_CTRL_ARM = false ∧ ok.flag (XR.TT_STATUS 0) XR.TT_STATUS_CHECK_BUSY = true ∧ ok.firstBreach 0 = none ∧
      (bad.firstBreach 0).isSome = true ∧ ((bad.firstBreach 0).map Breach.slot = some 5) ∧ 5 % 64 = 5 % 64 ∧
      (bad.bankEntry 0 (bad.stagingBank 0) 5 5 0).isSome = true ∧
      (due.switchReady = true ∧ due.switchable 0 = true ∧ due.switchable 1 = true) ∧ State.reset.switchable 0 = false ∧
      State.reset.running = false ∧ State.reset.startRun.running = true ∧ (State.reset.half 0).realign = false ∧
      State.reset.nowSlot 0 = State.reset.nowSlot 1 ∧ ahead.nowSlot 1 < ahead.nowSlot 0 := by decide +kernel

/-- Slice 5 is there, RUN is set, West stands at slot 60, and its timetable names one meeting at column 5 of slot 60 with edge port 88. -/
def slotState (d : Nat) (ops : List XOp) : State :=
  let s := ((State.reset.setFlag (SLICE.STATUS 5) SLICE.STATUS_PRESENT true).startRun.setFld (XR.TT_SLOT 0) XR.TT_SLOT_SLOT 60).setFld
    (XR.TT_SLOT 1) XR.TT_SLOT_SLOT 60
  s.setHalf 0 { bank := [(ttKey (s.activeBank 0) 60 5 d, 0x158)], ops := if ops = [] then [] else [(88, ops)] }

/-- A request of 128 B of the tile 5 of slice 5, at the edge port. -/
def slotOp (write : Bool) : XOp :=
  let r : MemReq := { op := if write then .write else .read, dpa := 4096 * 5, n := 64, who := .porter 9 0, back := coreEnd 9 }
  { port := 88, write := write, addr := 4096 * 5, n := 64, data := if write then List.replicate 64 1 else [], who := .porter 9 0, req := some r }

theorem slotRuns_of (d : Nat) (ops : List XOp) (h : (slotState d ops).realignWaits 0 = false ∧ (slotState d ops).mustHold 0 60 = false ∧
    (slotState d ops).running = true ∧ (slotState d ops).nowSlot 0 = 60) : SlotRuns (slotState d ops) 0 60 := by
  refine ⟨h.2.2.1, h.2.2.2, h.1, h.2.1, fun col hc hr => ?_⟩
  unfold reservedSlot at hr
  have : col = 60 := by
    have := beq_iff_eq.1 hr
    omega
  omega

theorem portsFree_of (d : Nat) (ops : List XOp) : PortsFree (slotState d ops) (if ops = [] then [] else [⟨0, 88⟩]) := by
  refine ⟨rfl, rfl, fun sl => ?_, ?_⟩
  · rw [show (slotState d ops).slice sl = {} from rfl]; rfl
  · intro h hh
    have h0 : ((slotState d ops).half 0).ops = if ops = [] then [] else [(88, ops)] := by
      unfold slotState; simp
    have h1 : ((slotState d ops).half 1).ops = [] := rfl
    obtain rfl | rfl : h = 0 ∨ h = 1 := by omega
    · refine ⟨fun k => ?_, ?_, fun x m => ?_⟩
      · rw [show ((slotState d ops).half 0).seam = [] by unfold slotState; simp]; rfl
      · rw [h0]; split <;> simp
      · rw [h0] at m
        by_cases he : ops = [] <;> simp [he] at m ⊢
        rw [m]
    · exact ⟨fun k => rfl, by rw [h1]; exact List.nodup_nil, fun x m => by rw [h1] at m; exact absurd m List.not_mem_nil⟩

theorem test_wit_TimetableSlots :
    let held := (slotState 0 []).setHalf 0 { (slotState 0 []).half 0 with realign := true }
    let held := (held.setFld (XR.TT_SLOT 0) XR.TT_SLOT_SLOT 0).setReg (XR.TT_PERIOD 0) 1
    let bg (b : BgReq) := (((slotState 0 []).putRun false).setHalf 0 {}).setSlice 5 (if b.data = [] then { bgR := [b] } else { bgW := [b] })
    let rd : BgReq := { cls := .steward, dpa := 4096 * 5, len := 64, who := .line 320 }
    let wr : BgReq := { cls := .steward, dpa := 4096 * 5, len := 64, data := List.replicate 64 1, en := List.replicate 64 true, who := .evict 320 }
    let old := slotState 0 [{ slotOp false with age := 4096 }]
    (held.running = true ∧ held.realignWaits 0 = true) ∧ (SlotRuns (slotState 0 []) 0 60 ∧ PortsFree (slotState 0 []) []) ∧
      (∀ b, SlotRuns (slotState (b2n b) [slotOp b]) 0 60 ∧ PortsFree (slotState (b2n b) [slotOp b]) [⟨0, 88⟩] ∧
        (5 < 48 ∧ reservedSlot 60 5 = false ∧
          (slotState (b2n b) [slotOp b]).bankEntry 0 ((slotState (b2n b) [slotOp b]).bankAt 0 60) 60 5 (b2n b) = ttEntryOf 0x158 ∧
          ((slotState (b2n b) [slotOp b]).slotEntries 0 ((slotState (b2n b) [slotOp b]).bankAt 0 60) (60 % 4096)).length = 1) ∧
        (slotState (b2n b) [slotOp b]).xops ⟨0, 88⟩ = [slotOp b] ∧ (slotOp b).next 5 false = some ((slotOp b).addr / 128) ∧
        TileGood (slotState (b2n b) [slotOp b]) (slotOp b).addr (slotOp b).n) ∧
      ((bg rd).running = false ∧ (bg rd).couriers.chans = [] ∧ (bg rd).sliceHere 5 = true ∧ rd.foreign = false ∧ wr.foreign = false ∧
        (bg rd).scrubActive 5 = false ∧ ((bg rd).slice 5).bgR = [rd] ∧ ((bg wr).slice 5).bgW = [wr] ∧ (sliceOf (wr.dpa / 4096)).1 = 5 ∧
        ∀ c < 48, c ≠ 5 → (bg rd).sliceHere c = false) ∧
      (old.xops ⟨0, 88⟩).find? (fun o => o.req.isSome && decide (4096 ≤ o.age)) = some { slotOp false with age := 4096 } := by
  refine ⟨by decide +kernel, ⟨slotRuns_of _ _ (by decide +kernel), portsFree_of 0 []⟩, fun b => ?_, by decide +kernel, by decide +kernel⟩
  cases b <;> exact ⟨slotRuns_of _ _ (by decide +kernel), portsFree_of _ [_], by decide +kernel, by decide +kernel, by decide +kernel,
    by unfold TileGood; decide +kernel⟩

/-- Slice 85 with two open beats of which one may combine; scrubs that start and are late; a closed launch and one that runs; an audit. -/
theorem test_wit_SliceEvents :
    let st := SLICE.STATUS 85
    let s := (State.reset.setFlag st SLICE.STATUS_PRESENT true).setFlag (SLICE.SCRUB 85) SLICE.SCRUB_ENABLE true
    let h : RedHeld := { idx := 1, data := List.replicate 256 0, bad := false, order := 4 }
    let d : W64 := BitVec.ofNat 64 (776 + 2 ^ 11 + 1 * 2 ^ 27 + 7 * 2 ^ 37 + 2 ^ 63)
    let z := List.replicate 256 (0 : Byte)
    let b (k n : Nat) : RedBeat := ⟨3, d, k, n, z, [h], 3, 2, false, false, false, 0⟩
    let red := s.setSlice 85 { red := [b 0 0, b 1 1] }
    let aud := s.setSlice 85 { audits := [{ tile := 74565, porter := 9, slot := 0 }] }
    (s.sliceHere 85 = true ∧ s.flag (SLICE.SCRUB 85) SLICE.SCRUB_ENABLE = true ∧ s.scrubActive 85 = false) ∧
      (s.setFlag st SLICE.STATUS_SCRUB_ACTIVE true).scrubActive 85 = true ∧
      ((red.slice 85).red = [b 0 0] ++ b 1 1 :: [] ∧ (b 1 1).ready = some h ∧ (b 0 0).ready = none) ∧
      (∀ x ∈ (s.slice 85).red, x.ready = none) ∧ (red.slotOf 7 = none ∧ redLaunch (b 0 0).desc = 7) ∧
      ((runs7 red).slotOf 7 = some 3 ∧ (runs7 red).slotState 3 = 2 ∧ ((runs7 red).launch 3).killing = false) ∧
      ((aud.slice 85).audits = { tile := 74565, porter := 9, slot := 0 } :: [] ∧ (sliceOf 74565).1 = 85 ∧ TileGood aud (4096 * 74565) 4096) := by
  refine ⟨by decide +kernel, by decide +kernel, by decide +kernel, by decide +kernel, by decide +kernel, by decide +kernel, by decide +kernel,
    by decide +kernel, by unfold TileGood; decide +kernel⟩

/-! ### States that meet the statements' hypotheses: couriers, translation, the mesh, memory sites -/

/-- A descriptor of one unit: operation, class, port, lead, destination, and the schedule word; 16-byte elements, `n` of them in dimension 0. -/
def descOf (op cls port lead dst sched n : Nat) (by_ : PushBy := .driver) : Desc :=
  { words := ([op + cls * 2 ^ 4 + 4 * 2 ^ 6 + port * 2 ^ 18, 0, dst, n - 1, lead * 2 ^ 16, 0, 0, 0, 0, 0, 0, 0, 0, sched, 0, 0] : List Nat).map
      fun (x : Nat) => BitVec.ofNat 64 x, by_ := by_ }

/-- Courier 31's channel 15 in a given condition, with a descriptor in its registers. -/
def chanState (d : Desc) (v : Chan) : State :=
  (List.range 16).foldl (fun s i => s.setReg (CH.DESC 31 15 i) (d.words.getD i 0)) (((State.reset.setFlag (SLICE.STATUS (sliceOf 0x2FDFF).1) SLICE.STATUS_PRESENT true).setChan 31 15 v))

/-- A page of 4 KiB at a DVA, readable and writable. -/
def pageAt (dva pa : Nat) : Nat × Answer := (aheadKey 0 dva false, .page ⟨dva, pa, 12, true, true, 0⟩)

theorem test_wit_CourierChannels :
    let w : PushBy := .driver
    let copy := descOf oCOPY 0 86 64 4096 (2 ^ 32 * 65 + 200) 256
    let slow := descOf oCOPY 1 86 0 4096 0 256
    let disc := descOf oDISCARD 0 0 0 8192 0 256
    let watch : Desc := { descOf oWATCH 0 0 0 0 0 1 with words := (descOf oWATCH 0 0 0 0 0 1).words.set 14 (95 * 2 ^ 40) }
    let bad := descOf 15 0 0 0 0 0 256
    let parked : Chan := { queue := [copy], moving := true, parkKind := 1, ahead := [pageAt 0 0x1000, pageAt 4096 0x2FDFF000] }
    let discV : Chan := { queue := [disc], ahead := [pageAt 8192 0x2FDFF000] }
    let job : TileJob := { k := 0, id := 0, src := [], dst := [], srcLeft := 1, dstLeft := 0 }
    let p : Piece := { off := 0, n := 4096, dva := 8192 }
    (slow.words = ((List.range 16).map fun i => (chanState slow {}).reg (CH.DESC 31 15 i)) ∧ slow.ok 31 = true ∧ slow.hash = false ∧
      slow.op ≠ oHASH ∧ slow.cls = 1 ∧ slow.launch = 0 ∧ (chanState slow {}).flag (CH.CTRL 31 15) CH.CTRL_PUSH = false ∧
      bad.ok 31 = false ∧ bad.launch = 0) ∧
    (((chanState slow {}).setFlag (CH.CTRL 31 15) CH.CTRL_PUSH true).flag (CH.CTRL 31 15) CH.CTRL_PUSH = true ∧
      4 ≤ ((chanState slow { queue := [slow, slow, slow, slow] }).chan 31 15).queue.length) ∧
    (let s := chanState copy { queue := [copy] }
      let v := s.chan 31 15
      v.queue = copy :: [] ∧ copy.ok 31 = true ∧ copy.op ≠ oDISCARD ∧ ChanIdle v ∧ s.chanReady 31 15 copy = some 0 ∧ 0 < copy.tiles ∧
        copy.cls = 0 ∧ s.nowSlot 1 + copy.lead < copy.firstSlot 0 0 0) ∧
    (let s := chanState watch { queue := [watch] };
      watch.ok 31 = true ∧ ChanIdle (s.chan 31 15) ∧ s.chanReady 31 15 watch = some 0 ∧ 0 < watch.tiles ∧ watch.op = oWATCH) ∧
    (let s := chanState disc discV
      let v := s.chan 31 15
      v.queue = [disc] ∧ disc.ok 31 = true ∧ disc.op = oDISCARD ∧ ChanIdle v ∧ v.waiting = [] ∧ Plain disc ∧ disc.units = 1 ∧ disc.arrMode = 0 ∧
        disc.dstPieces 0 = [p] ∧ v.page disc p.dva false = some (.page ⟨8192, 0x2FDFF000, 12, true, true, 0⟩) ∧
        s.tileGone 0x2FDFF = false ∧ s.reserveShut 0x2FDFF000 4096 = false) ∧
    (let v := (chanState copy { queue := [copy, slow], moving := true, jobs := [job] }).chan 31 15;
      v.moving = true ∧ v.jobs ≠ [] ∧ v.queue ≠ [] ∧ v.arrCause = 0) ∧
    (let s := chanState copy parked
      let v := s.chan 31 15
      v.queue = copy :: [] ∧ v.parkKind ≠ 0 ∧ v.moving = true ∧ v.jobs = [] ∧ v.stopping = false ∧ v.arrCause = 0 ∧ copy.cls = 0 ∧
        copy.op ≠ oDISCARD ∧ copy.op ≠ oWATCH ∧ copy.arrMode ≠ 2 ∧ v.next < copy.units ∧ v.landed ≠ copy.tiles ∧
        (match (s.chanLook 31 15).placeUnit 31 ((s.chanLook 31 15).chan 31 15) copy v.next with
          | .ok _ _ => true
          | _ => false) = true ∧
        s.nowSlot 1 + copy.lead < copy.firstSlot 0 0 0 + 4096 * ((64 - 65 + 4095) / 4096)) ∧ w = .driver := by
  refine ⟨by decide +kernel, by decide +kernel, by unfold ChanIdle; decide +kernel, by unfold ChanIdle; decide +kernel,
    by unfold ChanIdle Plain; decide +kernel, by decide +kernel, by decide +kernel, rfl⟩

/-- Launch 7 in slot 3 runs a leg with two descriptors left and a stream of 4096 bytes in context 2, and channel 15 of courier 31 has hashed it. -/
def provDesc : Desc :=
  { words := (descOf 0 0 0 0 0 0 256).words.set 0 (BitVec.ofNat 64 (oHASH + 4 * 2 ^ 6 + 2 * 2 ^ 38 + 2 ^ 43 + 7 * 2 ^ 48)), by_ := .leg 3 0 }
def provState : State :=
  let v : Chan := { queue := [provDesc], moving := true, next := 1, landed := 1, ahead := [pageAt 0 0x2FDFF000] }
  (runs7 (chanState provDesc v)).setLaunch 3 { streams := [⟨1, 2, 4096⟩], runs := [{ phase := .running, descsLeft := 2 }] }

theorem test_wit_CourierTiles :
    let copy := descOf oCOPY 0 86 64 4096 (2 ^ 32 * 65 + 200) 256
    let conv : Desc := { copy with words := copy.words.set 0 (BitVec.ofNat 64 (oCONVERT + 2 * 2 ^ 6)) }
    let conv : Desc := { conv with words := (conv.words.set 3 2047).set 13 (BitVec.ofNat 64 (200 + 65 * 2 ^ 32 + 16 * 2 ^ 48)) }
    let wide : Desc := { conv with words :=
      (conv.words.set 0 (BitVec.ofNat 64 (oCONVERT + 2 ^ 6 + 3 * 2 ^ 12))).set 13 (BitVec.ofNat 64 (200 + 65 * 2 ^ 32 + 16 * 2 ^ 16)) }
    let arr (m : Nat) : Desc := { copy with words := copy.words.set 4 (BitVec.ofNat 64 (64 * 2 ^ 16 + m * 2 ^ 28 + (64 * 7 + 63) * 2 ^ 32)) }
    let p : Piece := { off := 0, n := 4096, dva := 4096, dpa := 0x2FDFF000 }
    let job : TileJob := { k := 0, id := 0, src := [], dst := [p], got := [(0, [1, 2])], srcLeft := 0, dstLeft := 1 }
    let sent : TileJob := { job with wrote := true, dstLeft := 0 }
    let v (d : Desc) (l : List TileJob) := (chanState d { queue := [d], moving := true, next := d.units, jobs := l }).chan 31 15
    let more := { job with k := 1, srcLeft := 1 }
    let arrs (g : ArrTarget) : State := { State.reset with couriers := { State.reset.couriers with incs := tabSet [] [] (chanKey 31 15) [(7, g)] } }
    (∀ d ∈ [copy, conv], d.ok 31 = true ∧ (v d [job]).queue = [d] ∧ (v d [job]).jobs = [job] ∧ (v d [job]).next = d.units ∧
      (v d [job]).moving = true ∧ (v d [job]).stopping = false ∧ (v d [job]).arrCause = 0 ∧ job.wrote = false ∧ job.cause = 0 ∧ job.srcLeft = 0 ∧
      job.out = [] ∧ job.dst ≠ [] ∧ d.dstSlice = true ∧ d.cls = 0 ∧ d.dither = false ∧ job.k % max 1 (d.dstSize / d.srcSize) = 0) ∧
    (let q : TileJob := { job with k := 1, got := [] }
      let x := (chanState wide { queue := [wide], moving := true, next := 2, jobs := [q], kept := some (0, [3]) }).chan 31 15
      wide.ok 31 = true ∧ wide.units = 2 ∧ x.jobs = [q] ∧ 1 % max 1 (wide.dstSize / wide.srcSize) = 1 ∧
        x.kept = some (1 * (4096 / wide.dstSize * wide.srcSize) / 4096, [3])) ∧
    (∀ m < 4, (v (arr m) [sent, more]).jobs = sent :: [more] ∧ sent.wrote = true ∧ sent.cause = 0 ∧ Plain (arr m) ∧ (arr m).arrPerDesc = false ∧
      (∀ j ∈ [more], j.srcLeft ≠ 0 ∧ j.cause = 0)) ∧
    (let x := v copy [sent];
      x.jobs = [sent] ∧ Plain copy ∧ copy.arrMode = 0 ∧ x.reads = [] ∧ x.waiting = [] ∧ x.landed + 1 = copy.tiles) ∧
    (let q : TileJob := { job with cause := 255 };
      (v copy [q]).jobs = [q] ∧ q.cause ≠ 0 ∧ q.cause < 256 ∧ Plain copy ∧ (v copy [q]).waiting = [] ∧
        (chanState copy {}).flag (COUR.ERR_LOG 31) COUR.ERR_LOG_VALID = false) ∧
    (∀ g ∈ [ArrTarget.hostel 7 63, .courier 31 63], (arrs g).chan 31 15 = {} ∧
      tabGet [] (arrs g).couriers.incs (chanKey 31 15) = (7, g) :: []) ∧
    (let s := provState
      let d := provDesc
      let w := s.chan 31 15
      let e : StreamEntry := ⟨1, 2, 4096⟩;
      (w.queue = [d] ∧ d.by_ = .leg 3 0 ∧ s.slotOf d.launch = some 3 ∧
        (s.launch 3).streams.find? (fun e => e.kind == 1 && e.ctx == d.hctx) = some e ∧ d.op = oHASH ∧ d.prov = true ∧ w.moving = true ∧
        w.record = false ∧ w.stopping = false ∧ w.jobs = [] ∧ w.reads = [] ∧ w.waiting = [] ∧ w.arrCause = 0 ∧ w.landed = d.units) ∧
      (d.arrMode = 0 ∧ 1 < (s.run 3 0).descsLeft ∧
        s.recordPages 31 15 d e.len = ([some (.page ⟨0, 0x2FDFF000, 12, true, true, 0⟩), some (.page ⟨0, 0x2FDFF000, 12, true, true, 0⟩)], s) ∧
        48 ≤ e.len ∧ (∀ i < 48, d.srcByte (e.len - 48 + i) = d.srcByte (e.len - 48) + i) ∧ d.srcByte (e.len - 48) = 4048) ∧
      TileGood s (0x2FDFF000 + 4048) 48 ∧ (s.slice (sliceOf 0x2FDFF).1).rmw = []) := by
  refine ⟨by decide +kernel, by decide +kernel, by unfold Plain; decide +kernel, by unfold Plain; decide +kernel, by unfold Plain; decide +kernel, by decide +kernel,
    by decide +kernel, by decide +kernel, by unfold TileGood; decide +kernel, by decide +kernel⟩

/-- A read of 64 B of porter 9, slot 1, for launch 0, and its request at West stop 2 (number 4). -/
def farReq (write : Bool) (dpa : Nat) : MemReq :=
  { op := if write then .write else .read, dpa := dpa, n := 64, data := if write then List.replicate 64 1 else [], who := .porter 9 1, back := coreEnd 9 }
def lookAt (ast dva : Nat) : Lookup := { ast := ast, dva := dva, write := false, who := .stop 2 4, launch := 0 }

/-- A table at 0x1000 whose entry 0 points to itself and whose entry 1 is a leaf, the root of tag 4095, in a buffer whose slices are there. -/
def ctuState (root : Bool) (c : Ctu) : State :=
  let s := ({ State.reset with ctu := c, mem := [(0x1000, 1), (0x1001, 0x10), (0x1008, 0x1F)] }).setFlag (SLICE.STATUS (sliceOf 1).1) SLICE.STATUS_PRESENT true
  let s := s.setTile 1 { s.tile 1 with valid := BitVec.allOnes _ }
  let s := (s.setFlag (SLICE.STATUS (sliceOf 2).1) SLICE.STATUS_PRESENT true).setStop 2 { next := 5, reqs := [⟨4, 2 ^ 30, farReq false 0, none, false⟩] }
  ((s.setFlag (CTU.ROOT 4095) CTU.ROOT_VALID root).setFld (CTU.ROOT 4095) CTU.ROOT_ADDR 1)

theorem noWalk_of {s : State} {q : Lookup} (h : ∀ i < 16, ((s.walk i).map Walk.ast).getD 1 = 1) (hq : q.ast ≠ 1) : NoWalkOn s q := by
  intro i hi w hw he
  have := h i hi
  rw [hw] at this
  exact hq (he.1.symm.trans this)

theorem test_wit_CtuWalks :
    let q := lookAt 4095 (2 ^ 57 - 1)
    let x : Trans := ⟨2 ^ 57 - 4096, 0, 12, true, true, 0⟩
    let miss := ctuState true { queues := [(127, [q])] }
    let hit := ctuState true { queues := [(127, [q])], small := [(tlbSet 0 4095 (2 ^ 57 - 1), [⟨4095, x⟩])] }
    let start := ctuState true { missed := [q], walks := (List.range 15).map fun (i : Nat) => (i, some ⟨1, 4096 * i, 4, 0, none, [], false⟩) }
    let full := ctuState true { missed := [q], walks := (List.range 16).map fun (i : Nat) => (i, some ⟨1, 4096 * i, 4, 0, none, [], false⟩) }
    let beat := leBytes 8 0x1001 ++ leBytes 8 0x1F ++ leBytes 8 0
    let w (i level : Nat) (d : Bool) : Walk := ⟨4095, 2 ^ 30, level, 0x1000 + 8 * i, some (0, beat), [lookAt 4095 (2 ^ 30)], d⟩
    let walks (v : Walk) := ctuState true { walks := [(15, some v)] }
    let inval (out : List InvalWait) := ctuState true { inval := some (4095, out) }
    (miss.ctuQueue 127 = q :: [] ∧ q.who = .stop 2 4 ∧ q.dva < 2 ^ 57) ∧ CtuHolds hit.ctu 4095 (2 ^ 57 - 1) x ∧
      CtuMisses miss.ctu 4095 (2 ^ 57 - 1) ∧ NoWalkOn miss q ∧
      (start.ctu.missed = q :: [] ∧ NoWalkOn start q ∧ start.walk 15 = none ∧
        (∀ j < 15, start.walk j ≠ none) ∧ start.flag (CTU.ROOT q.ast) CTU.ROOT_VALID = true ∧
        tableOk (start.fld (CTU.ROOT q.ast) CTU.ROOT_ADDR * 4096) = true) ∧
      (full.ctu.missed = q :: [] ∧ NoWalkOn full q ∧ ∀ i < 16, full.walk i ≠ none) ∧
      (∀ l ∈ [1, 4], (walks (w 0 l false)).walk 15 = some (w 0 l false) ∧ leAt beat 0 8 = 0x1001 ∧ bitOf 0x1001 0 = true ∧
        pteBad l 0x1001 = false ∧ bitOf 0x1001 1 = false) ∧
      (∀ l < 3, (w 1 l false).back = some (0, beat) ∧ (w 1 l false).waiters = [lookAt 4095 (2 ^ 30)] ∧ leAt beat (0x1008 % 256 / 8 * 8) 8 = 0x1F ∧
        bitOf 0x1F 0 = true ∧ pteBad l 0x1F = false ∧ bitOf 0x1F 1 = true ∧ bitOf 0x1F 2 = true ∧ bitsOf 0x1F 50 48 = 0) ∧
      (leAt beat (0x1010 % 256 / 8 * 8) 8 = 0 ∧ bitOf 0 0 = false ∧
        ((walks (w 2 0 false)).setFlag CTU.CTRL CTU.CTRL_STALL_REPLAY false).flag CTU.CTRL CTU.CTRL_STALL_REPLAY = false) ∧
      ((walks (w 0 4 true)).walk 15 = some (w 0 4 true) ∧ (w 0 4 true).discard = true) ∧
      (miss.flag CTU.INVAL CTU.INVAL_DONE = true ∧ (miss.setFlag CTU.INVAL CTU.INVAL_DONE false).flag CTU.INVAL CTU.INVAL_DONE = false) ∧
      ((inval [.courier 511 0]).ctu.inval = some (4095, [.courier 511 0]) ∧ (inval []).ctu.walks = [] ∧
        (inval []).stillOut (.courier 511 0) = false ∧
        ((inval []).setChan 31 15 { jobs := [⟨0, 0, [], [], [], [], 1, 1, false, none, 0⟩] }).stillOut (.courier 511 0) = true) := by
  refine ⟨by decide +kernel, ?_, ?_, noWalk_of (by decide +kernel) (by decide), ⟨by decide +kernel, noWalk_of (by decide +kernel) (by decide),
    by decide +kernel⟩, ⟨by decide +kernel, noWalk_of (by decide +kernel) (by decide), by decide +kernel⟩, by decide +kernel, by decide +kernel,
    by decide +kernel, by decide +kernel, by decide +kernel, by decide +kernel⟩
  · unfold CtuHolds; decide +kernel
  · unfold CtuMisses; decide +kernel

def downOf : WalkRes → Option Nat
  | .down t => some t
  | _ => none
def pageOf : WalkRes → Option Trans
  | .page t => some t
  | _ => none
theorem down_of {r : WalkRes} {a : Nat} (h : downOf r = some a) : r = .down a := by
  cases r <;> simp [downOf] at h ⊢; exact h
theorem page_of {r : State × WalkRes} {s : State} {x : Trans} (h : r.1 = s) (g : pageOf r.2 = some x) : r = (s, .page x) := by
  obtain ⟨u, r⟩ := r
  cases r <;> simp [pageOf] at g
  exact Prod.ext h (congrArg WalkRes.page g)
theorem noRecord_of {s : State} {k : Nat} {p : PendFault} (h : s.ctu.pending = [(k, some p)]) (hp : p.record ≠ 1) : NoRecordWaits s := by
  intro e he q hq
  rw [h] at he
  rw [List.mem_singleton.1 he] at hq
  exact Option.some.inj hq ▸ hp

/-- Fault 63 is pending for a read at a stop; the queue is off, or on with room; stops with an answer, a fault, nothing, and a packet that waits. -/
theorem test_wit_CtuFaults :
    let p (r : Nat) (ast : Nat) : PendFault := { ast := ast, dva := 2 ^ 30, kind := 0, level := 2, write := false, waiters := [lookAt ast (2 ^ 30)], record := r }
    let s (r : Nat) (root : Bool) := ctuState root { pending := [(63, some (p r 4095))] }
    let on := ((s 0 true).setFlag CTU.FQ_CTRL CTU.FQ_CTRL_ENABLE true).setFld CTU.FQ_BASE CTU.FQ_BASE_BASE 0x2000
    let stop (write : Bool) (x : Option Answer) : State := State.reset.setStop 34 { reqs := [⟨4, 2 ^ 30 + 5, farReq write 0, x, false⟩] }
    let at_ (pa : Nat) (r w : Bool) : Trans := ⟨2 ^ 30, pa, 30, r, w, 3⟩
    let isReq : MeshBody → Bool := fun b => match b with
      | .far _ _ => true
      | .req _ => true
      | _ => false
    ((s 1 true).pend 63 = some (p 1 4095) ∧ (p 1 4095).record ≠ 0) ∧
      ((s 0 true).pend 63 = some (p 0 4095) ∧ NoRecordWaits (s 0 true) ∧ (s 0 true).flag CTU.STATUS CTU.STATUS_FQ_WRITE_ERROR = false ∧
        (s 0 true).flag CTU.FQ_CTRL CTU.FQ_CTRL_ENABLE = false) ∧
      (on.pend 63 = some (p 0 4095) ∧ NoRecordWaits on ∧ on.flag CTU.STATUS CTU.STATUS_FQ_WRITE_ERROR = false ∧
        on.flag CTU.FQ_CTRL CTU.FQ_CTRL_ENABLE = true ∧ on.fqFull = false ∧
        on.fld CTU.FQ_BASE CTU.FQ_BASE_BASE / 4096 * 4096 + 32 * (on.fld CTU.FQ_PROD CTU.FQ_PROD_INDEX % 2 ^ on.fqLog2) = 0x2000 ∧
        targetOf 0x2000 = .buffer ∧ TileGood on 0x2000 32 ∧ (on.slice (sliceOf 2).1).rmw = []) ∧
      ((p 0 4095).waiters = [lookAt 4095 (2 ^ 30)] ∧ (s 0 true).ctu.waiting = [] ∧ (s 0 true).walkRoot 4095 (2 ^ 30) = .down 0x1000 ∧
        (s 0 true).walkFrom (2 ^ 30) 5 0x1000 = (s 0 true, .page ⟨2 ^ 30, 0, 30, true, true, 0⟩) ∧
        ((s 0 true).stop 2).reqs.find? (fun r => r.id == 4) = some ⟨4, 2 ^ 30, farReq false 0, none, false⟩) ∧
      ((s 0 false).flag (CTU.ROOT 4095) CTU.ROOT_VALID = false ∧ (s 0 false).flag CTU.FQ_CTRL CTU.FQ_CTRL_ENABLE = false) ∧
      (State.reset.pend 63 = none ∧ NoRecordWaits State.reset) ∧
      ((runs7 State.reset).slotState 3 = 2 ∧ ∀ k < 16, State.reset.slotState k ≠ 2) ∧
      (∀ write, ((stop write (some (.page (at_ 0x80000000 true true)))).stop 34).reqs =
          [⟨4, 2 ^ 30 + 5, farReq write 0, some (.page (at_ 0x80000000 true true)), false⟩] ∧
        (if (farReq write 0).op = .read then (at_ 0x80000000 true true).r else (at_ 0x80000000 true true).w) = true ∧
        (if (farReq write 0).op = .read then (at_ 0x80000000 write (!write)).r else (at_ 0x80000000 write (!write)).w) = false ∧
        (farReq write 0).op ≠ .audit) ∧
      (targetOf (0x90000000 + 5) = .porterMem 0 ∧ (farReq false 0).who = .porter 9 1 ∧ State.reset.flag CTU.CTRL CTU.CTRL_STALL_REPLAY = true ∧
        (State.reset.stop 34).reqs = []) ∧
      (∀ dva r, ∃ v u, Takes (edgeEnd 34) isReq (.far dva r) v u ∧ (v.stop 34).reqs = []) ∧
      ∃ v u, Takes (edgeEnd 34) isReq (.req (farReq true 0x90000000)) v u ∧ (v.stop 34).reqs = [] := by
  refine ⟨by decide +kernel, ⟨by decide +kernel, noRecord_of rfl (by decide), by decide +kernel⟩, ⟨by decide +kernel, noRecord_of rfl (by decide), by decide +kernel, by decide +kernel, by decide +kernel,
    by decide +kernel, by decide +kernel, by unfold TileGood; decide +kernel, by decide +kernel⟩,
    ⟨by decide +kernel, by decide +kernel, down_of (by decide +kernel), page_of (by decide +kernel) (by decide +kernel), by decide +kernel⟩,
    by decide +kernel, ⟨by decide +kernel, fun e he => absurd he List.not_mem_nil⟩, by decide +kernel, by decide +kernel, by decide +kernel,
    fun dva r => ⟨_, _, takes_one State.reset _ _ _ 0 rfl, rfl⟩, ⟨_, _, takes_one State.reset _ _ _ 0 rfl, rfl⟩⟩

/-- One flit stands at an input of a router of a mesh whose porter 4095 is there. -/
def meshState (r inp vc : Nat) (f : Flit) (fenced : Bool) : State :=
  (({ State.reset with mesh := { queues := [(queueKey r inp vc, [f])] } } : State).setFlag (POR.STATUS 4095) POR.STATUS_PRESENT true).setFlag
    (POR.STATUS 4095) POR.STATUS_FENCED fenced

theorem oneHead {s : State} {r vc inp : Nat} {out : MeshPort} {f : Flit} (h : ∀ w < 4, ∀ j < 6, (w = vc ∧ j = inp) ∨ s.headFor r out w j = none) :
    ∀ w < 4, ∀ j < 6, ∀ g, s.headFor r out w j = some g → (w = vc ∧ j = inp) ∨
        (32 ≤ f.waited ∧ g.waited < 32) ∨ (f.waited < 32 ∧ g.waited < 32 ∧ vcRank vc < vcRank w) := by
  intro w hw j hj g hg
  rcases h w hw j hj with h | h
  · exact .inl h
  · rw [h] at hg
    exact absurd hg (by simp)

theorem test_wit_MeshHops :
    let req := farReq false 0x90000000
    let flit (out : MeshPort) (e : MeshEnd) (last : Bool) : Flit := ⟨coreEnd 9, .one e, 7, last, 0, [out], if last then some (.req req) else none⟩
    let at_ (r inp vc : Nat) (out : MeshPort) (e : MeshEnd) (last fenced : Bool) : Prop :=
      let s := meshState r inp vc (flit out e last) fenced
      s.queue r inp vc = flit out e last :: [] ∧ (flit out e last).outs = [out] ∧ s.roomFor r out vc = true ∧
        ∀ w < 4, ∀ j < 6, ∀ g, s.headFor r out w j = some g → (w = vc ∧ j = inp) ∨
          (32 ≤ (flit out e last).waited ∧ g.waited < 32) ∨ ((flit out e last).waited < 32 ∧ g.waited < 32 ∧ vcRank vc < vcRank w)
    (∀ vc < 4, ∀ inp < 6, State.reset.headFor 4095 .north vc inp = none) ∧ (∀ vc < 4, at_ 4095 5 vc .north (coreEnd 0) false false) ∧
      neighbour 4095 .north = some (4031, .south) ∧ 4031 ≠ 4095 ∧ (∀ fenced, at_ 4095 0 0 .local (coreEnd 4095) true fenced) ∧
      (∀ fenced, (meshState 4095 0 0 (flit .local (coreEnd 4095) true) fenced).flag (POR.STATUS 4095) POR.STATUS_PRESENT = true ∧
        (meshState 4095 0 0 (flit .local (coreEnd 4095) true) fenced).flag (POR.STATUS 4095) POR.STATUS_FENCED = fenced) ∧
      at_ 2079 0 0 .attachment stewardEnd true false ∧ neighbour 2079 .attachment = none ∧ at_ 2079 0 0 .attachment stewardEnd false false := by
  have all : (∀ vc < 4, ∀ w < 4, ∀ j < 6, (w = vc ∧ j = 5) ∨
      (meshState 4095 5 vc ⟨coreEnd 9, .one (coreEnd 0), 7, false, 0, [.north], none⟩ false).headFor 4095 .north w j = none) := by decide +kernel
  refine ⟨by decide +kernel, fun vc h => ?_, rfl, by decide, fun fenced => ?_, by decide +kernel, ?_, rfl, ?_⟩
  · have := h
    refine ⟨?_, rfl, ?_, oneHead (all vc h)⟩
    all_goals revert vc; decide +kernel
  · cases fenced <;> exact ⟨by decide +kernel, rfl, by decide +kernel, oneHead (by decide +kernel)⟩
  · exact ⟨by decide +kernel, rfl, by decide +kernel, oneHead (by decide +kernel)⟩
  · exact ⟨by decide +kernel, rfl, by decide +kernel, oneHead (by decide +kernel)⟩

/-- Site 31, generation 1, 32 GiB, licensed, keys 0 and 3 valid. -/
def siteState (v : Site) : State :=
  let s := (State.reset.setFlag (MEM.STATUS 31) MEM.STATUS_PRESENT true).setFld (MEM.STATUS 31) MEM.STATUS_GEN 1
  let s := (s.setFld (MEM.CAPACITY 31) MEM.CAPACITY_MIB 32768).setFld BRG.ENABLED BRG.ENABLED_LPDDR 0x8000
  (((s.setReg (MEM.KEY_VALID 31) 9).setFlag (MEM.CTRL 31) MEM.CTRL_SCRUB_ENABLE true).setFld (MEM.BUDGET 31) MEM.BUDGET_UNITS 4).setSite 31 v

theorem siteOk_of {s : State} {i a n key : Nat} (h : 0 < n ∧ s.flag (MEM.STATUS i) MEM.STATUS_PRESENT = true ∧ s.siteEnabled i = true ∧
    siteBase i ≤ a ∧ a + n ≤ siteBase i + s.siteBytes i ∧ bitOf (s.reg (MEM.KEY_VALID i)).toNat key = true) (hr : (s.site i).retired = [])
    (he : s.wordErr = []) : SiteOk s i a n key := by
  obtain ⟨h1, h2, h3, h4, h5, h6⟩ := h
  refine ⟨h1, h2, h3, h4, h5, h6, fun x _ _ => by unfold Site.retiredTile; rw [hr]; rfl, fun wd _ _ => by rw [he]; rfl⟩

/-- Requests at the site's last granule: reads, writes with and without a key, adds of each type, and commands of a courier. -/
theorem test_wit_SiteAccesses :
    let last := siteBase 31 + 0x800000000 - 64
    let d (op : AccOp) (n : Nat) : List Byte := if op = .read then [] else List.replicate n 1
    let r (op : AccOp) (key dpa n : Nat) : MemReq := { farReq false dpa with op := op, n := n, key := key, data := d op n }
    let isReq : MeshBody → Bool := fun b => match b with
      | .req _ => true
      | _ => false
    let cmd (op : AccOp) (lead cost : Nat) : SchedCmd := ⟨.courier 31 15 0 0 false, op, last, 64, 0, 9, lead, cost, 0, false⟩
    let fenced (s : State) := s.setFlag (MEM.STATUS 31) MEM.STATUS_FENCED true
    let none_ : Site := {}
    (∀ q ∈ [r .read 0 last 64, r .write 0 last 64, r .write 3 last 64, r (.add 4) 0 last 8, r .read 5 last 64],
      let v : Site := { mesh := [(1, q)] }
      ((siteState v).site 31).mesh = (1, q) :: [] ∧ v.planned = [] ∧ v.adds = [] ∧ q.who = .porter 9 1) ∧
      (∀ key ∈ [0, 3], ∀ op ∈ [AccOp.read, .write], ∀ v ∈ [{ mesh := [(1, r op key last 64)] }, none_], SiteOk (siteState v) 31 last 64 key) ∧
      bitOf ((siteState {}).reg (MEM.KEY_VALID 31)).toNat 5 = false ∧ (r .write 3 last 64).data.length = 64 ∧ last % 64 = 0 ∧
      (∀ ty < 5, let q : AddJob := { req := r (.add ty) 0 last 64 }
        q.done = 0 ∧ q.cause = 0 ∧ last / 64 = (last + 64 - 1) / 64 ∧ last % addSize ty = 0 ∧ q.req.data.length % addSize ty = 0 ∧
          SiteOk (siteState { adds := [q] }) 31 last 64 0) ∧
      (last + 1) % addSize 0 ≠ 0 ∧ SiteOk (siteState { adds := [{ req := r (.add 0) 3 (last + 1) 4 }] }) 31 (last + 1) 4 3 ∧
      (∀ f, ∃ v u, Takes (siteEnd 31) isReq (.req (r .read 0 last 64)) v u ∧ v.siteFenced 31 = f ∧ v.meshShare 31 < 1280) ∧
      (∃ v u, Takes (siteEnd 31) isReq (.req (r .read 0 last 64)) v u ∧ 1280 ≤ v.meshShare 31) ∧
      (∀ op ∈ [AccOp.read, .write], let v : Site := { cmds := [cmd op 200 4] }
        let s := (siteState v).setFld (MEM.READ_BOUND 31) MEM.READ_BOUND_SLOTS 200
        (s.site 31).cmds = cmd op 200 4 :: [] ∧ SiteQuiet (s.site 31) ∧ s.siteFenced 31 = false ∧ (fenced s).siteFenced 31 = true ∧ v.costs = [] ∧
          s.fld (MEM.READ_BOUND 31) MEM.READ_BOUND_SLOTS ≤ 200 ∧ 199 < s.fld (MEM.READ_BOUND 31) MEM.READ_BOUND_SLOTS ∧
          4 ≤ s.fld (MEM.BUDGET 31) MEM.BUDGET_UNITS ∧ SiteOk s 31 last 64 0) := by
  refine ⟨by decide +kernel, fun key hk op ho v hv => ?_, by decide +kernel, by decide +kernel, by decide +kernel, fun ty ht => ?_, by decide +kernel,
    siteOk_of (by decide +kernel) (by decide +kernel) rfl, fun f => ?_, ?_, fun op ho => ?_⟩
  · refine siteOk_of ?_ ?_ ?_
    all_goals revert v op key; decide +kernel
  · refine ⟨rfl, rfl, by decide +kernel, ?_, ?_, siteOk_of ?_ ?_ ?_⟩
    all_goals revert ty; decide +kernel
  · exact ⟨_, _, takes_one ((siteState {}).setFlag (MEM.STATUS 31) MEM.STATUS_FENCED f) _ _ _ 0 rfl, by cases f <;> decide +kernel, by
      cases f <;> decide +kernel⟩
  · exact ⟨_, _, takes_one (siteState { mesh := List.replicate 1280 (1, farReq false 0) }) _ _ _ 0 rfl,
      by decide +kernel⟩
  · refine ⟨?_, ?_, ?_, ?_, rfl, ?_, ?_, ?_, siteOk_of ?_ ?_ ?_⟩
    all_goals revert op; (try unfold SiteQuiet); decide +kernel

/-- Site 31 in each condition that its service needs: its last unit and row, one flipped word in the scrubber's last granule, a full queue but one. -/
theorem test_wit_SiteService :
    let fenced (s : State) := s.setFlag (MEM.STATUS 31) MEM.STATUS_FENCED true
    let s := siteState {}
    let n := 0x800000000
    let g := siteBase 31 / 64 + (n / 64 - 1)
    let worn (l : List (Nat × Nat)) : State := { siteState { scrubPos := n / 64 - 1 } with wordErr := l }
    let queued := siteState { queue := List.replicate 31 0 }
    let spare (k : Nat) := (siteState { queue := [7] }).setFld (MEM.REPAIR 31) MEM.REPAIR_SPARES_LEFT_MIN k
    (s.siteHere 31 = true ∧ (s.site 31).selfRefresh = false ∧ 5 < s.siteUnits 31) ∧ (s.siteFenced 31 = false ∧ s.couriers.chans = []) ∧
      ((fenced s).siteFenced 31 = true ∧ (fenced s).siteEnabled 31 = true ∧ ((fenced s).site 31).retraining = false ∧
        ((fenced s).site 31).margining = false) ∧
      ((siteState { retraining := true }).site 31).retraining = true ∧
      (((siteState { margining := true }).site 31).margining = true ∧ 65536 ≤ s.siteBytes 31) ∧ 31 = 16 + (15 : BitVec 4).toNat ∧
      ((worn []).siteFenced 31 = false ∧ (worn []).siteEcc 31 = true ∧ (worn []).flag (MEM.CTRL 31) MEM.CTRL_SCRUB_ENABLE = true ∧
        64 ≤ (worn []).siteBytes 31 ∧ ((worn []).site 31).adds = [] ∧ ∀ wd, wd / 8 = g → tabGet 0 (worn []).wordErr wd = 0) ∧
      (siteBase 31 / 64 + ((worn []).site 31).scrubPos = g ∧ (8 * g + 7) / 8 = g ∧ tabGet 0 (worn [(8 * g + 7, 1)]).wordErr (8 * g + 7) = 1 ∧
        ∀ x, x / 8 = g → x ≠ 8 * g + 7 → tabGet 0 (worn [(8 * g + 7, 1)]).wordErr x = 0) ∧
      (s.siteBytes 31 ≤ (BitVec.ofNat 37 n).toNat ∧ (BitVec.ofNat 37 (n - 1)).toNat < s.siteBytes 31 ∧
        queued.siteRow 31 (n - 1) ∉ (queued.site 31).queue ∧ (queued.site 31).retiredTile (queued.rowFirst 31 (queued.siteRow 31 (n - 1)) / 4096) = false ∧
        (queued.site 31).queue.length < 32) ∧
      (((siteState { queue := [7], cmds := [⟨.courier 31 15 0 0 false, .read, 0, 1, 0, 0, 0, 0, 0, false⟩] }).site 31).cmds ≠ []) ∧
      ∀ k < 2, ((spare k).site 31).queue = [7] ∧ ((spare k).site 31).repaired = [] ∧ ((spare k).site 31).cmds = [] ∧
        ((spare k).site 31).planned = [] ∧ (spare k).fld (MEM.REPAIR 31) MEM.REPAIR_SPARES_LEFT_MIN = k := by
  refine ⟨by decide +kernel, by decide +kernel, by decide +kernel, by decide +kernel, by decide +kernel, by decide +kernel,
    ⟨by decide +kernel, by decide +kernel, by decide +kernel, by decide +kernel, by decide +kernel, fun wd _ => rfl⟩,
    ⟨by decide +kernel, by decide +kernel, by decide +kernel, fun x _ h => ?_⟩, by decide +kernel, by decide +kernel, by decide +kernel⟩
  exact tabGet_set_other 0 [] 1 h

/-! ### States that meet the statements' hypotheses: Oxlux ports, upper sites, power -/

/-- Port 15 is there and licensed, in a training state. -/
def portState (st : Nat) (o : Oxlux) : State :=
  let s := (State.reset.setFlag (OX.STATUS 15) OX.STATUS_PRESENT true).setFld BRG.ENABLED BRG.ENABLED_OXLUX 0x8000
  (s.setFld (OX.TRAIN 15) OX.TRAIN_STATE st).setOxl 15 o

/-- Whether an aligned group of lanes has locked. -/
def lockedB (k : BitVec 8) (w a : Nat) : Bool :=
  a % 2 ^ w == 0 && decide (a + 2 ^ w ≤ 8) && (List.range 8).all fun l => !(decide (a ≤ l) && decide (l < a + 2 ^ w)) || k.getLsbD l

theorem lockedB_iff {k : BitVec 8} {w a : Nat} : lockedB k w a = true ↔ GroupLocked k w a := by
  unfold lockedB GroupLocked
  simp only [Bool.and_eq_true, beq_iff_eq, decide_eq_true_eq, List.all_eq_true, List.mem_range, Bool.or_eq_true, Bool.not_eq_true',
    Bool.and_eq_false_iff, decide_eq_false_iff_not]
  refine ⟨fun h => ⟨h.1.1, h.1.2, fun l h1 h2 => ?_⟩, fun h => ⟨⟨h.1, h.2.1⟩, fun l _ => ?_⟩⟩
  · rcases h.2 l (by omega) with (h | h) | h
    · exact absurd h1 h
    · exact absurd h2 h
    · exact h
  · by_cases h1 : a ≤ l
    · by_cases h2 : l < a + 2 ^ w
      · exact .inr (h.2.2 l h1 h2)
      · exact .inl (.inr h2)
    · exact .inl (.inl h1)

/-- Every state of training, lanes that lock from one to all, a port that is fenced and idle, that is fenced, and that tests. -/
theorem test_wit_OxluxTraining :
    let fenced (s : State) := s.setFlag (OX.CTRL 15) OX.CTRL_FENCE true
    let busy (s : State) := s.setFlag (OX.STATUS 15) OX.STATUS_DRAINED false
    let test := (fenced (portState 0 {})).setFlag (OX.TEST 15) OX.TEST_RUNNING true
    (∀ st < 8, ∀ r < 4, (portState st { rate := r }).oxState 15 = st ∧ ((portState st { rate := r }).oxl 15).rate = r ∧
      ((portState st {}).oxl 15).peerMin ≤ 0 ∧ ((portState st {}).oxl 15).reqs = []) ∧
      (∀ l ∈ [((0x80 : BitVec 8), 0, 7), (0x30, 1, 4), (0x3E, 1, 2), (0xF0, 2, 4), (0xFF, 3, 0)], l.2.1 < 4 ∧ GroupLocked l.1 l.2.1 l.2.2 ∧
        (∀ w' a', l.2.1 < w' → w' < 4 → ¬ GroupLocked l.1 w' a') ∧ ∀ a' < l.2.2, ¬ GroupLocked l.1 l.2.1 a') ∧
      (65530 : BitVec 16).toNat ≤ 65530 ∧
      (((portState 7 {}).setFlag (OX.CTRL 15) OX.CTRL_AUTO_RETRAIN true).flag (OX.CTRL 15) OX.CTRL_AUTO_RETRAIN = true ∧
        (portState 7 {}).flag (OX.CTRL 15) OX.CTRL_ENABLE = true) ∧
      ((portState 6 {}).oxHere 15 = true ∧ (fenced (portState 6 {})).oxIdle 15 = true ∧ (busy (fenced (portState 6 {}))).oxIdle 15 = false ∧
        (portState 6 {}).flag (OX.CTRL 15) OX.CTRL_FENCE = false ∧ (portState 6 {}).couriers.chans = [] ∧
        (fenced (portState 6 {})).flag (OX.CTRL 15) OX.CTRL_FENCE = true ∧ (portState 6 {}).oxEnabled 15 = true) ∧
      ((fenced (portState 6 {})).flag (OX.TEST 15) OX.TEST_RUNNING = false ∧ (3 : BitVec 32).toNat % 4 ≠ 0 ∧ test.flag (OX.TEST 15) OX.TEST_RUNNING = true) ∧
      ((portState 6 {}).oxActive 15 = true ∧ (portState 5 {}).oxActive 15 = false) := by
  refine ⟨by decide +kernel, ?_, by decide +kernel, by decide +kernel, by decide +kernel, by decide +kernel, by decide +kernel⟩
  have small : ∀ k : BitVec 8, ∀ w a, GroupLocked k w a → a < 8 := fun k w a h => by
    have := Nat.two_pow_pos w
    have := h.2.1
    omega
  have key : ∀ l ∈ [((0x80 : BitVec 8), 0, 7), (0x30, 1, 4), (0x3E, 1, 2), (0xF0, 2, 4), (0xFF, 3, 0)],
      l.2.1 < 4 ∧ lockedB l.1 l.2.1 l.2.2 = true ∧
        ∀ w < 4, ∀ a < 8, l.2.1 < w ∨ (w = l.2.1 ∧ a < l.2.2) → lockedB l.1 w a = false := by decide +kernel
  intro l hl
  obtain ⟨h1, h2, h5⟩ := key l hl
  have no : ∀ w < 4, ∀ a, l.2.1 < w ∨ (w = l.2.1 ∧ a < l.2.2) → ¬ GroupLocked l.1 w a := fun w hw a ha hg => by
    have := h5 w hw a (small l.1 w a hg) ha
    rw [lockedB_iff.2 hg] at this
    exact absurd this (by decide)
  exact ⟨h1, lockedB_iff.1 h2, fun w' a' h hw => no w' hw a' (.inl h), fun a' h => no _ h1 a' (.inr ⟨rfl, h⟩)⟩

/-- A request packet, a response, and a packet of an opcode that no table lists. -/
def oxRx (opc off : Nat) : OxRx := { payload := [({ opc := opc, tag := 65535, len := 64, inwin := 63, off := off } : OxHdr).bytes []], err := 0 }

/-- Flits of each kind at both ends of the sequence space, partial packets, the inbound requests with their windows, and an aged transfer. -/
theorem test_wit_OxluxLink :
    let p := List.replicate 256 (7 : Byte)
    let six (o : Oxlux) := (portState 6 o).oxl 15
    let flit (q : Nat) : OxFlit := ⟨q, 3, 4, 0, p⟩
    let out (rd : Bool) : OxOut := ⟨.porter 9 1, coreEnd 9, rd, 64, 1, true⟩
    let rx (opc vc off : Nat) : Oxlux := { rx := [(vc, [oxRx opc off])] }
    let win (s : State) := ((s.setReg (CTU.INWIN_CTRL 63) (BitVec.allOnes 64)).setFld (CTU.INWIN_LIMIT 63) CTU.INWIN_LIMIT_LIMIT 127)
    let c : OxCtl := { seq := 8191, kind := 4, vc := 3 }
    let in_ : OxIn := { k := 4, hdr := (oxRx 2 0).head, data := p, left := 1 }
    let a : XOp := { port := 183, write := true, addr := 4096, n := 64, age := 4096, who := .oxlux 15 4 }
    let aged := (portState 6 { ins := [in_] }).setXops (oxX 15) [a]
    (∀ st ∈ [5, 6], (portState st {}).oxState 15 = st ∧ ((portState st {}).oxl 15).owe = [] ∧ ((portState st {}).oxl 15).parts = [] ∧
      ((portState st {}).oxl 15).expect < 8192 ∧ ((portState st {}).oxl 15).held = false ∧ (portState st {}).inbox (oxEnd 15) = [] ∧
      tabGet [] (portState st {}).stewardTx 15 = []) ∧
      ((six { nak := some 8191 }).nak = some 8191 ∧ (six { ctrl := [p] }).ctrl = p :: [] ∧ (six { ctrl := [p] }).retry.length < 4096) ∧
      (∀ vc < 4, let o : Oxlux := { pkts := [(vc, [{ payload := [p] }])], credits := [(vc, 1)] }
        tabGet [] (six o).pkts vc = [{ payload := [p] }] ∧ (∀ v, v ≠ vc → tabGet [] (six o).pkts v = []) ∧ 1 ≤ tabGet 0 (six o).credits vc) ∧
      (p.length = 256 ∧ c.seq = (six { expect := 8191 }).expect ∧ c.seq < 8192 ∧ c.kind = 4 ∧ c.vc < 4 ∧ c.credits = 0 ∧
        (six { expect := 8191 }).retry = [] ∧ (six { expect := 8191 }).skip = []) ∧
      ((∃ f ∈ (six { retry := [flit 8190, flit 8191] }).retry, f.seq = (8191 : BitVec 13).toNat) ∧
        ∀ f ∈ (six { retry := [flit 8190] }).retry, f.seq ≠ (8191 : BitVec 13).toNat) ∧
      (tabFind (six { parts := [(3, ⟨8191, [p], 0, [8191]⟩)] }).parts 3 = some ⟨8191, [p], 0, [8191]⟩ ∧ tabFind (six {}).parts 3 = none) ∧
      ((six { tags := [(65535, out true)] }).tags = [(65535, out true)] ∧ (out true).mesh = true) ∧
      (∀ d ∈ [(1, 0, CTU.INWIN_CTRL_RD), (2, 0, CTU.INWIN_CTRL_WR), (3, 0, CTU.INWIN_CTRL_ADD), (4, 2, CTU.INWIN_CTRL_ADD)], ∀ off ∈ [63, 64],
        let s := portState 6 (rx d.1 d.2.1 off)
        let h := hdrOf (oxRx d.1 off).head
        RxFirst s 15 d.2.1 d.1 (oxRx d.1 off) [] ∧ (s.oxl 15).held = false ∧ (s.oxl 15).ins = [] ∧ (oxRx d.1 off).err = 0 ∧ h.inwin = 63 ∧
          h.off + h.len = off + 64 ∧ s.flag (OX.CTRL 15) OX.CTRL_FENCE = false ∧
          (s.setFlag (OX.CTRL 15) OX.CTRL_FENCE true).flag (OX.CTRL 15) OX.CTRL_FENCE = true ∧ s.flag (CTU.INWIN_CTRL 63) CTU.INWIN_CTRL_VALID = false ∧
          (win s).flag (CTU.INWIN_CTRL 63) CTU.INWIN_CTRL_VALID = true ∧ bitOf ((win s).fld (CTU.INWIN_CTRL 63) CTU.INWIN_CTRL_PORT_MASK) 15 = true ∧
          (win s).fld (CTU.INWIN_LIMIT 63) CTU.INWIN_LIMIT_LIMIT = 127 ∧ (win s).flag (CTU.INWIN_CTRL 63) d.2.2 = true) ∧
      (∀ d ∈ [0x81, 0x82], let o : Oxlux := { rx d 1 0 with tags := [(65535, out (d == 0x81))] }
        RxFirst (portState 6 o) 15 1 d (oxRx d 0) [] ∧ (hdrOf (oxRx d 0).head).tag = 65535 ∧ (hdrOf (oxRx d 0).head).status = 0 ∧
          tabFind (six o).tags 65535 = some (out (d == 0x81)) ∧ (six o).reqs = []) ∧
      ((aged.xops (oxX 15)).find? (fun o => o.due.isNone && decide (4096 ≤ o.age) && (match o.who with
          | .oxlux _ _ => true
          | _ => false)) = some a ∧ a.who = .oxlux 15 4 ∧ a.req = none ∧ (aged.oxl 15).ins = [in_] ∧ in_.cause = 0 ∧ in_.drop = false ∧
        (hdrOf in_.hdr).opc ≠ 1) ∧
      (tabGet [] (six (rx 6 0 0)).rx 0 = oxRx 6 0 :: [] ∧ (oxRx 6 0).bad = true ∧ (oxRx 6 0).drop = false) := by
  refine ⟨by decide +kernel, by decide +kernel, fun vc h => ⟨?_, fun v hv => ?_, ?_⟩, by decide +kernel, by decide +kernel, by decide +kernel, by decide +kernel,
    ?_, ?_, by decide +kernel, by decide +kernel⟩
  · revert vc; decide +kernel
  · exact tabGet_set_other (α := List OxPkt) [] [] [{ payload := [List.replicate 256 7] }] hv
  · revert vc; decide +kernel
  · unfold RxFirst; decide +kernel
  · unfold RxFirst; decide +kernel

/-- Site 3 in a phase of bring-up; in service its port 19 is active and its last aperture grants the last tile. -/
def upState (phase : Nat) (v : Upper) : State :=
  let s := (State.reset.setFlag (UP.STATUS 3) UP.STATUS_PRESENT true).setUpper 3 { v with phase := phase }
  let s := if phase = 4 then (s.setFld (UP.PORTS 3) UP.PORTS_ACTIVE 0x80000).setFlag (UP.STATUS 3) UP.STATUS_POWERED true else s
  let s := ((s.setFlag (UP.APERTURE 3 7) UP.APERTURE_VALID true).setFld (UP.APERTURE 3 7) UP.APERTURE_BASE_TILE 196607).setFld (UP.APERTURE 3 7)
    UP.APERTURE_LIMIT_TILE 0x3FFFF
  (s.setFlag (UP.APERTURE 3 7) UP.APERTURE_RD true).setFlag (UP.APERTURE 3 7) UP.APERTURE_WR true

def identMsg (version mask watts mv : Nat) : BitVec 256 :=
  sbMessage ([1] ++ leBytes 1 version ++ leBytes 5 0 ++ leBytes 3 mask ++ leBytes 2 watts ++ leBytes 2 mv ++ leBytes 9 77)

/-- Two flits that differ in their CRC alone are not both right. -/
theorem badFlit : ∃ bad : BitVec 2176, upCrcOk bad.toNat = false := by
  by_cases h : upCrcOk (BitVec.toNat (w := 2176) 0) = false
  · exact ⟨_, h⟩
  · refine ⟨BitVec.ofNat 2176 (2 ^ 112), ?_⟩
    rw [Bool.not_eq_false] at h
    unfold upCrcOk at h ⊢
    rw [show (BitVec.toNat (w := 2176) 0) / 2 ^ 128 = 0 by decide +kernel, show (BitVec.toNat (w := 2176) 0) % 2 ^ 112 = 0 by decide +kernel,
      show bitsOf (BitVec.toNat (w := 2176) 0) 127 112 = 0 by decide +kernel, beq_iff_eq] at h
    rw [show (BitVec.ofNat 2176 (2 ^ 112)).toNat / 2 ^ 128 = 0 by decide +kernel, show (BitVec.ofNat 2176 (2 ^ 112)).toNat % 2 ^ 112 = 0 by decide +kernel,
      show bitsOf (BitVec.ofNat 2176 (2 ^ 112)).toNat 127 112 = 1 by decide +kernel, ← h]
    rfl

theorem xops_set (s : State) (q : XPort) (l : List XOp) : (s.setXops q l).xops q = l := by
  simp [State.xops, State.setXops]

/-- Commands at the last tile and past it, the last beat of a write, a CRC that fails, aged transfers, and each message of the sideband. -/
theorem test_wit_UpperSites :
    let four := upState 4 {}
    let q := upX 3 19
    let cmd (wr : Bool) (tile : Nat) : UpHdr := { ckind := if wr then 2 else 1, ctag := 63, ctile := tile, codeValid := true, code := 2 ^ 32 - 1 }
    let o (ready : Bool) (age born : Nat) : XOp :=
      { port := q.port, write := true, addr := 4096, n := 4096, ready := ready, age := age, born := born, who := .upper 3 19 63 true }
    let at_ (o : XOp) := four.setXops q [o]
    let last : XOp := { o false 0 0 with data := List.replicate 3840 0 }
    let beat : UpHdr := { pkind := 1, ptag := 63, pbeat := 15 }
    let good := identMsg 1 0x80000 450 750
    let fenced := four.setFlag (UP.STATUS 3) UP.STATUS_FENCED true
    ((four.upper 3).phase = 4 ∧ (19 : BitVec 5).toNat < 20 ∧ four.xops q = [] ∧ four.upLive 3 19 = true) ∧
      (∀ wr, HdrFits (cmd wr 196607) ∧ (cmd wr 0).ckind = (if wr then 2 else 1) ∧ (cmd wr 0).pkind = 0 ∧ Granted four 3 196607 wr ∧
        ¬ Granted four 3 196606 wr ∧ ¬ Granted four 3 196608 wr) ∧ (List.replicate 256 (1 : Byte)).length = 256 ∧
      (HdrFits beat ∧ (at_ last).xops q = [last] ∧ last.who = .upper 3 19 beat.ptag true ∧ last.data.length = 256 * beat.pbeat) ∧
      ((∃ bad : BitVec 2176, upCrcOk bad.toNat = false) ∧ bitOf (four.fld (UP.PORTS 3) UP.PORTS_ACTIVE) 19 = true) ∧
      ((at_ (o true 4104 0)).xops q = [] ++ o true 4104 0 :: [] ∧ (o true 4104 0).due = none ∧ 4096 + 8 ≤ (o true 4104 0).age ∧
        (o true 4095 0).age < 4096 ∧ 4096 ≤ (o false 0 4096).born) ∧
      (∀ k < 5, ((upState k {}).upper 3).phase = k) ∧
      (SbIs good 1 ∧ (upState 2 {}).identOk 3 good = true ∧ SbIs (identMsg 2 0x80000 450 750) 1 ∧ sbField (identMsg 2 0x80000 450 750) 1 1 ≠ 1 ∧
        sbField (identMsg 1 0x100000 450 750) 7 3 % 2 ^ 20 = 0 ∧
        min 450 ((upState 2 {}).fld (UP.POWER 3) UP.POWER_LIMIT_W) < sbField (identMsg 1 1 451 750) 10 2 ∧ sbField (identMsg 1 1 450 751) 12 2 % 5 ≠ 0) ∧
      (SbIs (sbMessage [3, 0xFF, 0xFF, 0x0F]) 3 ∧ ((upState 3 { mask := 0x80000 }).upper 3).mask = 0x80000) ∧
      (∀ ty ∈ [5, 7, 8, 10, 255], SbIs (sbMessage [BitVec.ofNat 8 ty, 19]) ty ∧ sbField (sbMessage [BitVec.ofNat 8 ty, 19]) 1 1 = 19) ∧
      (255 ∉ [1, 2, 3, 4, 5, 6, 7, 8, 9] ∧ sbCrcOk 1 = false) ∧
      (four.upHere 3 = true ∧ four.couriers.chans = [] ∧ four.flag (UP.STATUS 3) UP.STATUS_FENCED = false ∧
        fenced.flag (UP.STATUS 3) UP.STATUS_RESET_BUSY = false ∧ (fenced.upper 3).presentN = false ∧ ∀ p < 20, fenced.xops (upX 3 p) = []) := by
  have one : ∀ i < 8, (upState 4 {}).flag (UP.APERTURE 3 i) UP.APERTURE_VALID = true → (upState 4 {}).fld (UP.APERTURE 3 i) UP.APERTURE_BASE_TILE = 196607 := by
    decide +kernel
  have no : ∀ t wr, t < 196607 ∨ 196607 < t → ¬ Granted (upState 4 {}) 3 t wr := fun t wr ht ⟨i, hi, hv, hb, _, hl, _⟩ => by
    have := one i hi hv
    omega
  refine ⟨by decide +kernel, fun wr => ⟨?_, ?_, rfl, ⟨7, ?_⟩, no _ wr (.inl (by decide)), no _ wr (.inr (by decide))⟩, List.length_replicate, ⟨by unfold HdrFits; decide +kernel,
    xops_set _ _ _, rfl, List.length_replicate⟩, ⟨badFlit, by decide +kernel⟩, by decide +kernel, by decide +kernel, by unfold SbIs; decide +kernel,
    by unfold SbIs; decide +kernel, by unfold SbIs; decide +kernel, by decide +kernel, by decide +kernel⟩
  all_goals cases wr <;> (try unfold HdrFits) <;> decide +kernel

/-- Zone 23 in a state at a level, at a millisecond. -/
def zoneState23 (st level : Nat) (alarm : Bool) : State :=
  let r := PT.ZONE_STATUS 23
  (((State.reset.setReg ETC.VALUE 5000040).setFld r PT.ZONE_STATUS_STATE st).setFld r PT.ZONE_STATUS_LEVEL level).setFlag r PT.ZONE_STATUS_ALARM alarm

/-- Readings just below and at each threshold, levels 0 and 7, an alarm, a shutdown; rails in each condition; the limiter at its bounds. -/
theorem test_wit_PowerAndThermal :
    let v (q : BitVec 12) : ZoneSample := ⟨23, [q, 0xF60, q, 0xF60], []⟩
    let z := zoneState23 0 0 false
    let at_ (f : Fld) : Int := 4 * (z.fld (PT.ZONE_THRESH 23) f : Int)
    let shut := 4 * (z.fld (PT.ZONE_LIMIT 23) PT.ZONE_LIMIT_SHUTDOWN : Int)
    let rail (k : Nat) (b : Bool) := (State.reset.setFlag (PT.RAIL k) PT.RAIL_ON b)
    let lim := rail 21 true |>.setFlag (PT.RAIL 21) PT.RAIL_LIMITING true
    let pend := State.reset.setFlag PT.STATUS PT.STATUS_SHUTDOWN_PENDING true
    let on (k : Nat) : State := { State.reset with power := { enabled := 2 ^ k } }
    let mv (k m : Nat) := (rail k true).setFld (PT.RAIL k) PT.RAIL_MV m
    let stale := zoneState23 2 7 false
    (∀ q ∈ [0xF60, 379, 380, 419, 420, 479, 600], (v q).zone.toNat < 24 ∧ (v q).zone.toNat % 12 ∈ [4, 5, 6, 7, 10, 11] ∧ (v q).die.length = 4 ∧
      (∀ b ∈ (v q).die, -160 ≤ b.toInt ∧ b.toInt ≤ q.toInt) ∧ (∃ b ∈ (v q).die, b.toInt = q.toInt) ∧ q.toInt ≤ 600) ∧
      ((∀ k < 4, z.dieBroken 23 k = false) ∧ z.etc % 1000000 < 80) ∧
      (∀ st < 3, ∀ l ∈ [0, 1, 2, 7], ∀ b, (zoneState23 st l b).zoneState 23 = st ∧ (zoneState23 st l b).fld (PT.ZONE_STATUS 23) PT.ZONE_STATUS_LEVEL = l ∧
        (zoneState23 st l b).flag (PT.ZONE_STATUS 23) PT.ZONE_STATUS_ALARM = b) ∧
      (at_ PT.ZONE_THRESH_WARN_TRIP = 380 ∧ at_ PT.ZONE_THRESH_THR_TRIP = 420 ∧ (479 : Int) < shut ∧ -160 < at_ PT.ZONE_THRESH_WARN_CLEAR ∧
        at_ PT.ZONE_THRESH_THR_CLEAR ≤ 419 ∧ -160 < at_ PT.ZONE_THRESH_THR_CLEAR ∧
        shut + 4 * (max 1 (z.fld (PT.ZONE_LIMIT 23) PT.ZONE_LIMIT_SHUT_MARGIN) : Nat) ≤ 600) ∧
      (z.zoneDeferred 23 = false ∧ (z.setFlag (PT.ZONE_STATUS 23) PT.ZONE_STATUS_DEFERRED true).zoneDeferred 23 = true) ∧
      (z.flag PT.STATUS PT.STATUS_SHUTDOWN_PENDING = false ∧ pend.flag PT.STATUS PT.STATUS_SHUTDOWN_PENDING = true) ∧
      (∀ b, (rail 21 b).flag (PT.RAIL 21) PT.RAIL_ON = b ∧ (rail 21 b).flag (PT.RAIL 21) PT.RAIL_LIMITING = false) ∧
      (lim.flag (PT.RAIL 21) PT.RAIL_LIMITING = true ∧ lim.couriers.chans = [] ∧ ∀ p < 20, lim.xops (upX 3 p) = []) ∧
      (z.runOrder = [] ∧ (runs7 z).runOrder ≠ [] ∧ z.flag PT.CTRL PT.CTRL_FIXED_DISPATCH ≠ true) ∧
      (∀ k ∈ [0, 1, 2, 3, 10, 11, 13, 14, 15, 16, 18, 21, 22, 25], (on k).railEnabled k = true ∧ (on k).railOn k = false ∧ (rail k true).railOn k = true) ∧
      (14 < 15 ∧ (mv 14 655).railOn 14 = true ∧ tabGet 650 (mv 14 655).fuses.railMin 14 ≤ (mv 14 655).fld (PT.RAIL 14) PT.RAIL_MV - 5 ∧
        (mv 14 895).fld (PT.RAIL 14) PT.RAIL_MV + 5 ≤ tabGet 900 (mv 14 895).fuses.railMax 14 ∧
        ¬ (mv 14 900).fld (PT.RAIL 14) PT.RAIL_MV + 5 ≤ tabGet 900 (mv 14 900).fuses.railMax 14 ∧ 26 ≤ (26 : BitVec 5).toNat ∧ (25 : BitVec 5).toNat < 26) ∧
      (z.levelsStale = false ∧ stale.levelsStale = true) := by
  refine ⟨fun q hq => ⟨(by decide : (23 : BitVec 5).toNat < 24), (by decide : (23 : BitVec 5).toNat % 12 ∈ [4, 5, 6, 7, 10, 11]), rfl, ?_, ⟨q, List.mem_cons_self, rfl⟩, ?_⟩, by decide +kernel, by decide +kernel, by decide +kernel, by decide +kernel,
    by decide +kernel, by decide +kernel, by decide +kernel, by decide +kernel, by decide +kernel, by decide +kernel, by decide +kernel⟩
  all_goals revert q; simp

/-! ### States that meet the statements' hypotheses: launches, the dispatcher, milestones -/

/-- The least itinerary image: one leg without blocks, porters or descriptors, and milestone 0, which expects one arrival. -/
def leastImage : List Host.Cell :=
  ([(0, 0x54), (1, 0x5A), (2, 0x49), (3, 0x54), (4, 1), (8, 0x60), (9, 1), (24, 1), (26, 1), (33, 1), (36, 0x40), (37, 1), (288, 0xFF), (290, 1), (291, 1),
    (292, 1), (324, 1)] : List (Nat × Byte)).map fun c => (0x1000 + c.1, c.2)

/-- Tile 1 is there and holds the image; slot 15 is in a state with launch 7 and its semaphore word at the tile's end. -/
def slotState15 (st : Nat) (la : Launch) (m : List Host.Cell) : State :=
  let s : State := { State.reset with mem := m }
  let s := (s.setFlag (SLICE.STATUS (sliceOf 1).1) SLICE.STATUS_PRESENT true).setTile 1 { s.tile 1 with valid := BitVec.allOnes _ }
  let s := (s.setFld (LNCH.SEM 15) LNCH.SEM_DPA 0x1FFF).setFld BRG.STATUS BRG.STATUS_STAGE 3
  ((s.setFld (LNCH.STATUS 15) LNCH.STATUS_STATE st).setFld (LNCH.STATUS 15) LNCH.STATUS_LAUNCH (if st = 0 then 0 else 7)).setLaunch 15 la

def imageBytes : List Byte := ((slotState15 1 {} leastImage).readImage 0x1000).2.getD []
def imageLaunch : Launch := (parseImage imageBytes).getD {}

theorem semGood_of {s : State} {k : Nat} (h : let a := s.fld (LNCH.SEM k) LNCH.SEM_DPA / 8 * 8
    a < 0x30000000 ∧ (0 < 8 ∧ a % 4096 + 8 ≤ 4096 ∧ s.tileGone (a / 4096) = false ∧ (s.tile (a / 4096)).poisoned = false ∧ s.reserveShut a 8 = false ∧
      ∀ wd ∈ wordsOf a 8, s.bufWordErr wd = 0) ∧ (s.slice (sliceOf (a / 4096)).1).rmw = []) : SemGood s k := h

theorem nothing_of {s : State} (h : s.couriers.chans = [] ∧ s.ctu.waiting = [] ∧ s.ctu.missed = [] ∧ s.ctu.pending = []) : NothingWaits s :=
  ⟨h.1, h.2.1, h.2.2.1, fun i _ => by unfold State.pend; rw [h.2.2.2]; rfl⟩

/-- Free, failed and unready slots; images that cannot be read, that break a table, that name an absent porter, and that pass; steps that go on, that
end, and that end the launch; kills at each point; porters' messages; gated clocks. -/
theorem test_wit_LaunchSlots :
    let s (st : Nat) (la : Launch) := slotState15 st la []
    let failed := (s 0 {}).setFld GB.HEALTH GB.HEALTH_STATE 2
    let im (n : Nat) (m : List Host.Cell) := slotState15 1 { image := n } m
    let absent := leastImage.take 16 ++ [(0x1126, 1), (0x112C, 64)] ++ leastImage.drop 16
    let run (ph : LegPhase) (n : Nat) : LegRun := { phase := ph, portersLeft := n }
    let ends (st : Nat) (ph : LegPhase) : State := s st { closing := true, runs := [run ph 0] }
    let leg : LegEntry := imageLaunch.legs.headD ⟨[], 0, 0, 0, 0, 0, 0, 0, 0, 0, 0, 0, 0, 0, 0⟩
    let msg : StartMsg := { launch := 7, slot := 15, leg := 0 }
    let isKilled : MeshBody → Bool := fun b => match b with | .killed _ _ => true | _ => false
    let isDone : MeshBody → Bool := fun b => match b with | .done _ _ => true | _ => false
    let isBad : MeshBody → Bool := fun b => match b with | .imageBad _ => true | _ => false
    let isRefused : MeshBody → Bool := fun b => match b with | .startRefused _ _ => true | _ => false
    let running (ph : LegPhase) (n : Nat) : State := s 2 { legs := [leg], runs := [run ph n] }
    let dying := (s 2 { killing := true, killSent := true }).setBlock 7 7 { used := true, launch := 7, size := 65536 }
    let peer := dying.setGroup 7 63 { used := true, launch := 7, peer := [.sig 1 0 0] }
    ((s 0 {}).slotState 15 = 0 ∧ failed.slotState 15 = 0 ∧ failed.fld GB.HEALTH GB.HEALTH_STATE = 2 ∧ 3 ≤ failed.fld BRG.STATUS BRG.STATUS_STAGE ∧ SemGood failed 15) ∧
      ((s 0 {}).fld GB.HEALTH GB.HEALTH_STATE ≠ 2 ∧ State.reset.fld BRG.STATUS BRG.STATUS_STAGE < 3 ∧ State.reset.slotState 15 = 0 ∧ (s 0 {}).fld BRG.STATUS BRG.STATUS_STAGE = 3) ∧
      ((im 0x1001 []).slotState 15 = 1 ∧ ((im 0x1001 []).launch 15).killing = false ∧ SemGood (im 0x1001 []) 15 ∧
        (im 0x1001 []).readImage 0x1001 = (im 0x1001 [], none)) ∧
      ((im 0x1000 [(0x1009, 1)]).readImage 0x1000 = (im 0x1000 [(0x1009, 1)], ((im 0x1000 [(0x1009, 1)]).readImage 0x1000).2) ∧
        ((im 0x1000 [(0x1009, 1)]).readImage 0x1000).2.map parseImage = some none ∧ SemGood (im 0x1000 [(0x1009, 1)]) 15) ∧
      ((im 0x1000 absent).readImage 0x1000 = (im 0x1000 absent, ((im 0x1000 absent).readImage 0x1000).2) ∧ SemGood (im 0x1000 absent) 15 ∧
        (((im 0x1000 absent).readImage 0x1000).2.bind fun b => (parseImage b).map fun p => (im 0x1000 absent).launchCause b p) = some cUNIT_ABSENT) ∧
      ((im 0x1000 leastImage).readImage 0x1000 = (im 0x1000 leastImage, some imageBytes) ∧ parseImage imageBytes = some imageLaunch ∧
        (im 0x1000 leastImage).launchCause imageBytes imageLaunch = 0 ∧ PlainStep (im 0x1000 leastImage) imageLaunch) ∧
      (∀ ph ∈ [LegPhase.ended, .unstarted], (ends 2 ph).slotState 15 = 2 ∧ ((ends 2 ph).launch 15).killing = false ∧
        ((ends 2 ph).launch 15).closing = true ∧ (ends 2 ph).arrivalsOut 15 = false ∧ (ends 2 ph).slotOf ((ends 2 ph).launchId 15) = some 15 ∧
        (∀ r ∈ ((ends 2 ph).launch 15).runs, r.phase = ph)) ∧
      (max 1 ((ends 2 .ended).fld (LNCH.STEPS 15) LNCH.STEPS_COUNT) = 1 ∧ SemGood (ends 2 .ended) 15 ∧ PlainStep (ends 2 .ended) ((ends 2 .ended).launch 15) ∧
        max 1 (((ends 2 .ended).setFld (LNCH.STEPS 15) LNCH.STEPS_COUNT 2).fld (LNCH.STEPS 15) LNCH.STEPS_COUNT) ≠ 1) ∧
      (∃ v u, Takes stewardEnd isKilled (.killed 9 7) v u ∧ NothingWaits v ∧ v.slotOf 7 = some 15 ∧ (v.launch 15).killing = true ∧
        (v.launch 15).killSent = false) ∧ (∃ v u, Takes stewardEnd isKilled (.killed 9 8) v u ∧ v.slotOf 8 = none) ∧
      (dying.peersOut (dying.launchId 15) = false ∧ peer.peersOut (peer.launchId 15) = true ∧ SemGood dying 15 ∧ (dying.blockAt 7 7).used = true) ∧
      ((running .running 0).slotOf ((running .running 0).launchId 15) = some 15 ∧ NothingWaits (running .running 0) ∧
        (∀ r ∈ ((running .running 0).launch 15).runs, r.portersLeft = 0) ∧ ((running .running 0).run 15 0).phase = .running) ∧
      (∀ st < 6, (s st {}).slotState 15 = st) ∧
      (∀ n ∈ [1, 2], ∃ v u, Takes stewardEnd isDone (.done msg 32) v u ∧ v.slotState 15 = 2 ∧ (v.launch 15).killing = false ∧ v.launchId 15 = msg.launch ∧
        (v.launch 15).runs[msg.leg]? = some (run .running n) ∧ (v.launch 15).legs[msg.leg]? = some leg) ∧
      (∃ v u, Takes stewardEnd isBad (.imageBad 9) v u ∧ v.slotState 15 = 2) ∧
      (∃ v u, Takes stewardEnd isRefused (.startRefused 9 msg) v u ∧ v.slotState 15 = 2 ∧ (v.launch 15).killing = false ∧ (v.launch 15).killSent = false ∧
        v.launchId 15 = msg.launch ∧ NothingWaits v ∧ SemGood v 15) ∧
      ((running .running 0).domainNeeded 0 = true ∧ (s 0 {}).domainNeeded (domainNum (.oxlux 15)) = false ∧ ((s 0 {}).setClock 63 1).clock 63 = 1) ∧
      ((((s 0 {}).setFld GB.HEALTH GB.HEALTH_STATE 1).setClock (2 + 7) 1).clock (2 + 7) = 1 ∧ ((s 0 {}).setClock (2 + 7) 1).runOrder = [] ∧
        ((s 0 {}).setFld GB.HEALTH GB.HEALTH_STATE 1).fld GB.HEALTH GB.HEALTH_STATE ≠ 0) := by
  refine ⟨⟨by decide +kernel, by decide +kernel, by decide +kernel, by decide +kernel, semGood_of (by decide +kernel)⟩, by decide +kernel, ⟨by decide +kernel, by decide +kernel,
    semGood_of (by decide +kernel), by decide +kernel⟩, ⟨by decide +kernel, by decide +kernel, semGood_of (by decide +kernel)⟩,
    ⟨by decide +kernel, semGood_of (by decide +kernel), by decide +kernel⟩, ⟨by decide +kernel, by decide +kernel, by decide +kernel, by
      unfold PlainStep; decide +kernel⟩, by decide +kernel, ⟨by decide +kernel, semGood_of (by decide +kernel), by unfold PlainStep; decide +kernel,
      by decide +kernel⟩, ⟨_, _, takes_one (slotState15 2 { killing := true } []) _ _ _ 3 rfl, nothing_of (by decide +kernel), by decide +kernel,
      by decide +kernel, by decide +kernel⟩, ⟨_, _, takes_one (slotState15 2 { killing := true } []) _ _ _ 3 rfl, by decide +kernel⟩, ⟨by decide +kernel, by decide +kernel, semGood_of (by decide +kernel), by decide +kernel⟩,
    ⟨by decide +kernel, nothing_of (by decide +kernel), by decide +kernel, by decide +kernel⟩, by decide +kernel, fun n hn => ?_,
    ⟨_, _, takes_one (slotState15 2 {} []) _ _ _ 3 rfl, by decide +kernel⟩, ⟨_, _, takes_one (slotState15 2 {} []) _ _ _ 3 rfl, by decide +kernel,
      by decide +kernel, by decide +kernel, by decide +kernel, nothing_of (by decide +kernel), semGood_of (by decide +kernel)⟩, by decide +kernel,
    by decide +kernel⟩
  refine ⟨_, _, takes_one (slotState15 2 { legs := imageLaunch.legs, runs := [{ phase := .running, portersLeft := n }] } []) _ _ _ 3 rfl, ?_⟩
  revert n
  decide +kernel

/-- Reads of a hostel's store, in one state of a hostel that is up, answer with no fault. -/
theorem readTiles_store (s : State) (h : s.hostelUp 0 = true) (f a n : Nat) (ha : 0x80000000 ≤ a) (hn : a + n ≤ 0x81000000) :
    ∃ l, s.readTiles f a n = (s, 0, l) := by
  induction f generalizing a n with
  | zero => exact ⟨[], rfl⟩
  | succ f ih =>
    unfold State.readTiles
    by_cases h0 : n = 0
    · rw [if_pos h0]
      exact ⟨[], rfl⟩
    · rw [if_neg h0]
      have ht : targetOf a = .hostelStore 0 := by
        have h1 : ¬ a < 0x30000000 := by omega
        have h2 : ¬ a < 0x40000000 := by omega
        have h3 : ¬ a < 0x44000000 := by omega
        have h4 : ¬ a < 0x80000000 := by omega
        have h5 : a < 0x88000000 := by omega
        have h6 : (a - 0x80000000) / 0x1000000 = 0 := by omega
        unfold targetOf
        rw [if_neg h1, if_neg h2, if_neg h3, if_neg h4, if_pos h5, h6]
      obtain ⟨l, hl⟩ := ih (a + min n (4096 - a % 4096)) (n - min n (4096 - a % 4096)) (by omega) (by omega)
      unfold State.readOne
      rw [ht]
      simp only [h, if_true, ne_eq, not_true_eq_false, if_false, hl]
      exact ⟨_, rfl⟩

/-- An image with one descriptor, of one leg that takes one block of a group of 64 KiB, one porter and one descriptor, in slot 15. -/
def legImage : List Host.Cell :=
  leastImage ++ ([(352, 31), (353, 15), (360, 0x10), (361, 1), (362, 0x58), (363, 1), (377, 0x10), (384, 0xFF)] : List (Nat × Byte)).map
    fun c => (0x1000 + c.1, c.2)
def oneLeg (tt : Nat) : LegEntry := ⟨[], 0, 0, 0, 0, tt, 1, 1, 1, 1, 1, 64, 64, 352, 1⟩
def legState (tt : Nat) (r : LegRun) : State :=
  let la : Launch := { image := 0x1000, len := 488, legs := [oneLeg tt], runs := [r], timetables := List.replicate 255 0x7FFFF000 }
  let s := ((slotState15 2 la legImage).setFlag (HOS.STATUS 0) HOS.STATUS_PRESENT true).setFlag (HOS.STATUS 0) HOS.STATUS_POWERED true
  let s := s.setFld BRG.ENABLED BRG.ENABLED_HOSTELS 1
  ((((s.setClock 0 2).setClock 1 2).setClock 2 2).setClock 10 2)

theorem test_wit_Dispatcher :
    let s (tt : Nat) (ph : LegPhase) := legState tt { phase := ph, blocksLeft := 1, blocksToPlace := 1, portersLeft := 1, descsLeft := 1 }
    let p : Placement := ⟨0, [63], 255⟩
    let full (n : Nat) := (s 0xFF .running).setChan 31 15 { queue := List.replicate n (descOf 0 1 86 0 4096 0 256) }
    let d := (oneLeg 0xFF).desc ((s 0xFF .running).imageOf 15) 0
    let D : Desc := { words := BitVec.ofNat 64 (putBits (d.2.2.headD 0).toNat 63 48 7) :: d.2.2.drop 1, by_ := .leg 15 0 }
    (∀ tt ∈ [0, 254, 255], ∀ ph ∈ [LegPhase.unstarted, .deferred, .admitted, .running], ((s tt ph).launch 15).legs[0]? = some (oneLeg tt) ∧
      (((s tt ph).launch 15).runs[0]?.map LegRun.phase) = some ph ∧ (s tt ph).slotState 15 = 2 ∧ ((s tt ph).launch 15).closing = false ∧
      ((s tt ph).launch 15).killing = false) ∧
      ((s 254 .unstarted).disp.active = none ∧ (s 254 .unstarted).disp.staged = none ∧ (s 254 .unstarted).disp.failed = [] ∧
        (∀ e < 2, (s 254 .unstarted).flag (XR.TT_CTRL e) XR.TT_CTRL_ARM = false) ∧
        ((s 254 .unstarted).launch 15).timetables[254]? = some 0x7FFFF000) ∧
      (∃ tt, (s 254 .unstarted).readNow (((s 254 .unstarted).launch 15).image + 0x7FFFF000) ttImageSize = (s 254 .unstarted, 0, tt)) ∧
      (∀ x ∈ (s 255 .admitted).legDomains ((s 255 .admitted).imageOf 15) (oneLeg 255), (s 255 .admitted).clock x = 2) ∧
      ((s 255 .running).placeOk (oneLeg 255) p = true ∧ (0 : BitVec 6).toNat + 1 = (oneLeg 255).blocks ∧ min (oneLeg 255).cluster 1 = 1 ∧
        ((s 255 .running).launch 15).image + ((s 255 .running).launch 15).len ≤ 0x30000000) ∧
      (d.1 = 31 ∧ d.2.1 = 15 ∧ 0 < (oneLeg 255).descs ∧ D.ok 31 = true ∧ D.hash = false ∧ D.op ≠ oHASH) ∧
      ∀ n ∈ [3, 4], ((full n).chan 31 15).waiting = [] ∧ ((full n).chan 31 15).queue.length = n := by
  refine ⟨by decide +kernel, by decide +kernel, ?_, by decide +kernel, by decide +kernel, by decide +kernel, by decide +kernel⟩
  exact readTiles_store _ (by decide +kernel) _ _ _ (by decide +kernel) (by decide +kernel)

/-- Launch 7 runs in slot 15 at step 5 with one milestone, job tag 9. -/
def mileState (m : MileEntry) (r : MileRun) : State :=
  (slotState15 2 { miles := [m], mileRuns := [r], step := 5 } []).setFld (LNCH.JOB 15) LNCH.JOB_TAG 9

/-- A steward message on VC3 of port 3: its type, its milestone and its step. -/
def msgRx (ty id step : Nat) : OxRx :=
  { payload := [(({ opc := 5 } : OxHdr).bytes []).take 64 ++
      padTo 64 ([BitVec.ofNat 8 ty, 0] ++ leBytes 2 id ++ leBytes 4 (if ty < 0x20 then 9 else 0) ++ leBytes 8 step) ++ List.replicate 128 0], err := 0 }
def msgState (ty step : Nat) (m : MileEntry) (r : MileRun) : State := (mileState m r).setOxl 3 { rx := [(3, [msgRx ty 65535 step])] }

/-- Milestone 65535 of each kind: arrivals short of, at and past what it expects, with and without the host's and its children's part, at the root and
below it; messages of an earlier, of this and of a later step; a full table of held messages; and the notices. -/
theorem test_wit_Milestones :
    let m (kind parent : Nat) (ab : Bool) : MileEntry := ⟨65535, kind, false, ab, 3, 0x8008, parent, 1⟩
    let r (n : Nat) (c rel host : Bool) (arr : Nat) : MileRun := { count := n, complete := c, released := rel, hostRel := host, arrived := arr }
    let gone (v : MileEntry) (x : MileRun) : State := { mileState v x with mileMsgs := [⟨15, 65535⟩] }
    let st : StartMsg := { launch := 7, slot := 15 }
    let isMile : MeshBody → Bool := fun b => match b with
      | .mile _ _ => true
      | _ => false
    let held (n : Nat) (s : State) : State := { s with disp := { s.disp with held := List.replicate n ⟨3, false, 65535, 9, 6⟩ } }
    (∀ kind < 3, ∀ par ∈ [3, 0xFF], ∀ ab, ∀ x ∈ [r 1 false false false 0, r 2 false false false 0, r 2 false false true 0, r 2 false false false 0x8008,
        r 3 true false false 8, r 3 true false false 0x8008, r 3 true true true 0x8008],
      MileOn (mileState (m kind par ab) x) 15 0 (m kind par ab) x ∧ MileOn (gone (m kind par ab) x) 15 0 (m kind par ab) x ∧
        (gone (m kind par ab) x).mileMsgs = ⟨15, 65535⟩ :: []) ∧
      (NoDefer (gone (m 1 0xFF false) {}) 15 65535 ∧ Nat.land 0x8008 0x8008 = 0x8008 ∧ Nat.land 0 0x8008 ≠ 0x8008) ∧
      ((mileState (m 0 0 false) {}).mileIdx 15 65534 = none ∧ State.reset.slotState 15 ≠ 2) ∧
      (∀ id, ∃ u, Takes stewardEnd isMile (.mile st id) ((mileState (m 0 0 false) {}).setInbox stewardEnd [(3, .mile st id)]) u ∧
        (mileState (m 0 0 false) {}).mileMsgs = [] ∧ (mileState (m 0 0 false) {}).launchId 15 = st.launch ∧ State.reset.launchId 15 ≠ st.launch) ∧
      (((0x000FFFFF : BitVec 32).extractLsb' 16 4).toNat = 15 ∧ ((0x000FFFFF : BitVec 32).extractLsb' 0 16).toNat = 65535) ∧
      (mileState (m 0 0 true) (r 3 true false false 0)).slotOf ((mileState (m 0 0 true) (r 3 true false false 0)).launchId 15) = some 15 ∧
      (∀ ty ∈ [0x10, 0x11], ∀ step ∈ [4, 5, 6], ∀ x ∈ [r 1 false false false 0, r 3 true false false 0x8000], let s := msgState ty step (m 1 3 false) x
        MsgFirst s 3 ty (msgRx ty 65535 step) [] ∧ leAt (((msgRx ty 65535 step).head.drop 64).take 64) 4 4 = 9 ∧
          leAt (((msgRx ty 65535 step).head.drop 64).take 64) 8 8 = step ∧ leAt (((msgRx ty 65535 step).head.drop 64).take 64) 2 2 = 65535 ∧
          s.jobSlot 9 = some 15 ∧ s.jobSlot 8 = none ∧ (s.launch 15).step.toNat = 5 ∧ MileOn s 15 0 (m 1 3 false) x ∧ NoDefer s 15 65535) ∧
      ((m 1 3 false).parent = 3 ∧ bitOf (m 1 3 false).children 3 = true ∧ bitOf (m 1 3 false).children 2 = false ∧
        Nat.land (Nat.lor 0x8000 (2 ^ 3)) 0x8008 = 0x8008) ∧
      (∀ n ∈ [255, 256], (held n (msgState 0x10 6 (m 1 3 false) {})).disp.held.length = n) ∧
      ∀ ty ∈ [0x20, 0x21], MsgFirst (msgState ty 0 (m 0 0 false) {}) 3 ty (msgRx ty 65535 0) [] := by
  refine ⟨by unfold MileOn; decide +kernel, by unfold NoDefer; decide +kernel, by decide +kernel, fun id => ⟨_, takes_one _ _ _ _ 3 rfl, by decide +kernel⟩,
    by decide +kernel, by decide +kernel, by unfold MsgFirst MileOn NoDefer; decide +kernel, by decide +kernel, by decide +kernel,
    by unfold MsgFirst; decide +kernel⟩

/-! ### States that meet the statements' hypotheses: the PCIe port, the strongbox, bring-up -/

/-- The window of BAR2 at a place of memory, with site 31 there. -/
def barState (w : Nat) : State := let s := siteState {}; { s with pcie := { s.pcie with window := w } }

/-- The last bytes of the buffer, of a site and of a porter in the window, and one past each; completions that are short, whole and refused; resets
with no launch, with one that is checked and with one that runs. -/
theorem test_wit_PciePort :
    let at_ (w off : Nat) : Nat := (barState w).pcie.window * 2 ^ 30 + (BitVec.ofNat 30 off).toNat
    let h : HostAcc := { tag := some 1023, addr := 0, n := 256, data := List.replicate 64 1, who := .line 5 }
    let host : State := { State.reset with pcie := { State.reset.pcie with host := [h] } }
    let one (st : Nat) := slotState15 st {} []
    ((State.reset.flag GLB.STATUS GLB.STATUS_READY = false) ∧ (State.reset.setFlag GLB.STATUS GLB.STATUS_READY true).flag GLB.STATUS GLB.STATUS_READY = true) ∧
      ((barState 0).bar2Path (at_ 0 0x2FFFFF01) 256 = .none ∧ (barState 0).bar2Path (at_ 0 0x2FFFFF00) 256 = .buffer ∧ at_ 0 0x2FFFFF00 % 256 + 256 ≤ 256) ∧
      (at_ 2 0x1FFFFFC0 = 0x9FFFFFC0 ∧ (barState 2).bar2Path 0x9FFFFFC0 64 = .porter 4095 ∧ (barState 2).bar2Path 0x9FFFFFC1 64 = .none ∧
        0x9FFFFFC0 % 64 + 64 ≤ 64) ∧
      ((barState 4000).bar2Path (at_ 4000 0) 64 = .none ∧ at_ 3999 0x3FFFFFC0 = siteBase 31 + 0x800000000 - 64 ∧
        (barState 3999).bar2Path (at_ 3999 0x3FFFFFC0) 64 = .site 31 ∧ (barState 3999).bar2Path (at_ 3999 0x3FFFFFC1) 64 = .none) ∧
      (host.pcie.host = [h] ∧ h.tag = some (1023 : BitVec 10).toNat ∧ h.who = .line 5 ∧ (h.data ++ List.replicate 191 1).length < h.n ∧
        h.n ≤ (h.data ++ List.replicate 192 1).length ∧ ∀ x ∈ State.reset.pcie.host, x.tag ≠ some 1023) ∧
      (∀ k < 16, State.reset.slotState k ≠ 1 ∧ State.reset.slotState k ≠ 2) ∧
      (∀ st ∈ [1, 2], ((one st).slotState 15 = 1 ∨ (one st).slotState 15 = 2) ∧ (∀ j < 16, j ≠ 15 → (one st).slotState j ≠ 1 ∧ (one st).slotState j ≠ 2) ∧
        ((one st).launch 15).killing = false ∧ ((one st).launch 15).killSent = false ∧ NothingWaits (one st) ∧ SemGood (one st) 15) ∧
      ((0x3FFFFF8 : BitVec 26).toNat % 8 = 0 ∧ (0x3FFFFFC : BitVec 26).toNat % 8 ≠ 0) := by
  refine ⟨by decide +kernel, by decide +kernel, by decide +kernel, by decide +kernel, by decide +kernel, by decide +kernel, fun st hs => ⟨?_, ?_, ?_, ?_,
    nothing_of ?_, semGood_of ?_⟩, by decide +kernel⟩
  all_goals revert st; decide +kernel

/-- A container of a type with its payload, signed by keys of zeros in slot 3, for die 1. -/
def boxOf (t : Nat) (p : List Byte) : List Byte :=
  magicBytes "TZSC" ++ leBytes 2 1 ++ leBytes 2 t ++ leBytes 4 32 ++ leBytes 4 7 ++ leBytes 8 1 ++ List.replicate 48 0 ++ [3] ++ List.replicate 55 0 ++
    padTo 32 p ++ List.replicate 249 0

/-- The strongbox checks a submission in BOOT, with the fuse supply. -/
def boxState (l : List Byte) : State :=
  let f : Fuses := { serial := 1, ecSigners := [0, 0, 0, digNum (sha384 (List.replicate 97 0))], hssSigners := [0, 0, 0, digNum (sha384 (List.replicate 52 0))],
                     floors := [(1, 7), (2, 7), (3, 7), (4, 7), (5, 7)] }
  let s : State := { State.reset with fuses := f, sbx := { copy := l }, boot := { ready := true } }
  ((s.setFlag SBX.STATUS SBX.STATUS_BUSY true).setFlag SBX.STATUS SBX.STATUS_FUSE_SUPPLY true).setFld BRG.STATUS BRG.STATUS_STAGE 1

def keyRecord : List Byte := magicBytes "TZKL" ++ [63] ++ List.replicate 179 0

/-- Containers of each type that pass, one that fails, a key-load record; the stages; leaves inside a block and at its start. -/
theorem test_wit_Strongbox :
    let idle (st : Nat) : State := (State.reset.setFld BRG.STATUS BRG.STATUS_STAGE st)
    let lic := boxState (boxOf 3 [8, 0, 8, 4, 3])
    let att (leaf : Nat) (f : Fuses) (sup : Bool) : State :=
      let s : State := { idle 3 with boot := { ready := true }, sbx := { layer1 := true }, fuses := f }
      let s := (s.setFlag (SLICE.STATUS (sliceOf 1).1) SLICE.STATUS_PRESENT true).setFlag (SLICE.STATUS (sliceOf 2).1) SLICE.STATUS_PRESENT true
      ((s.setFld SBX.LMS_INDEX SBX.LMS_INDEX_NEXT_LEAF leaf).setFlag SBX.STATUS SBX.STATUS_FUSE_SUPPLY sup).setFld SBX.RESULT_ADDR SBX.RESULT_ADDR_DPA 0x1FFF
    (State.reset.boot.ready = false ∧ lic.boot.ready = true ∧ lic.flag SBX.STATUS SBX.STATUS_BUSY = true) ∧
      ((lic.setFlag SBX.STATUS SBX.STATUS_BUSY false).flag SBX.STATUS SBX.STATUS_BUSY = false ∧
        1114112 < (lic.setFld SBX.SUBMIT_LEN SBX.SUBMIT_LEN_BYTES 1114113).fld SBX.SUBMIT_LEN SBX.SUBMIT_LEN_BYTES) ∧
      (let s := (State.reset.setFlag SBX.STATUS SBX.STATUS_BUSY true).setFlag SBX.CTRL SBX.CTRL_SUBMIT true;
        s.readNow (State.reset.fld SBX.SUBMIT SBX.SUBMIT_DPA / 8 * 8) 0 = (s, 0, [])) ∧
      (∀ t ∈ [1, 2], (boxState (boxOf t [])).passes t true true = true) ∧ lic.passes 3 true true = true ∧ lic.verdict false true none ≠ 0 ∧
      (boxState (boxOf 4 [3])).passes 4 true true = true ∧ NoLaunch (boxState (boxOf 4 [3])) ∧ (boxState (boxOf 5 [1, 5, 0, 0, 64])).passes 5 true true = true ∧
      (byteAt (boxPayload (boxOf 5 [1, 5, 0, 0, 64])) 0 = 1 ∧ byteAt (boxPayload (boxOf 5 [2, 3])) 0 = 2) ∧
      (boxState (boxOf 5 [2, 3])).passes 5 true true = true ∧
      (∀ st < 5, (idle st).fld BRG.STATUS BRG.STATUS_STAGE = st) ∧ lic.flag SBX.STATUS SBX.STATUS_FUSE_SUPPLY = true ∧
      (isKeyRecord keyRecord = true ∧ (boxState keyRecord).verdict true true (some 0) = 0) ∧
      ((att 0 { hssBlocks := BitVec.allOnes 1024 } true).fuses.block = none ∧ (att 1024 {} false).fuses.block ≠ none ∧
        (att 1024 {} false).flag SBX.STATUS SBX.STATUS_FUSE_SUPPLY = false ∧ (att 1024 {} false).fld SBX.LMS_INDEX SBX.LMS_INDEX_NEXT_LEAF % 1024 = 0 ∧
        (att 1024 {} false).sbx.layer1 = true ∧ (att 1024 {} false).fld BRG.STATUS BRG.STATUS_STAGE = 3) ∧
      (∀ leaf ∈ [1, 1022], (att leaf {} false).fld SBX.LMS_INDEX SBX.LMS_INDEX_NEXT_LEAF = leaf) ∧
      ((att 1 {} false).fld SBX.RESULT_ADDR SBX.RESULT_ADDR_DPA / 4096 * 4096 = 0x1000) ∧
      ∀ x, x = 0x1000 ∨ x = 0x1000 + 4096 → TileGood (att 1 {} false) x 4096 ∧ ((att 1 {} false).slice (sliceOf (x / 4096)).1).rmw = [] := by
  refine ⟨by decide +kernel, by decide +kernel, by decide +kernel, by decide +kernel, by decide +kernel, by decide +kernel, by decide +kernel, by
    unfold NoLaunch; decide +kernel, by decide +kernel, by decide +kernel, by decide +kernel, by decide +kernel, by decide +kernel, by decide +kernel,
    by decide +kernel, by decide +kernel, by decide +kernel, ?_⟩
  rintro x (rfl | rfl)
  all_goals unfold TileGood; decide +kernel

/-- Power is good, the fuses are read, and what has reported is as given. -/
def bootState (b : Boot) : State :=
  { State.reset with power := { good := true }, fuses := { serial := 1, gens := BitVec.ofNat 64 0x5555555555555555 }, boot := { b with training := true } }

/-- Before power and after it; each report of bring-up before and after it has come; sites whose devices are absent, of another generation, without a
rate, and good; ready with a map that cannot be read, and with everything reported. -/
theorem test_wit_BringUp :
    let cold : State := { State.reset with fuses := { serial := 1 } }
    let on : State := { cold with power := { good := true } }
    let hot : State := { on with power := { good := true, thermAlarm := true } }
    let there (s : State) : State := { s with uppers := (List.range 4).map fun (u : Nat) => (u, ({ presentN := true } : Upper)) }
    let tr (p ok : Bool) (g : BitVec 2) (r : Option (BitVec 2)) : SiteTraining := ⟨p, g, ok, r, 32768, 1, 200, 4, 1, 8⟩
    let done : Boot := { sram := true, logic := true, tests := some true, sites := BitVec.allOnes 32 }
    let worn : State := { bootState {} with fuses := { rows := [(64 * 95 + 31, 16)] } }
    (cold.power.good = false ∧ on.power.good = true ∧ on.power.thermAlarm = false ∧ hot.power.thermAlarm = true) ∧
      (on.boot.training = false ∧ on.boot.mapBad = false ∧ on.boot.ready = false ∧ ∀ u < 4, ((there on).upper u).presentN = true) ∧
      (let s := bootState {};
        s.power.good = true ∧ s.boot.training = true ∧ s.boot.ready = false ∧ s.boot.sram = false ∧ s.boot.logic = false ∧ s.boot.tests = none ∧
          s.unitBad 1 95 = false ∧ (∀ sl < 96, sparesUsed s.fuses.rows sl < 1024 ∧ sparesUsed s.fuses.columns sl < 128)) ∧
      (worn.unitBad 1 95 = false ∧ 16 ≤ tabGet 0 worn.fuses.rows (64 * (95 : BitVec 7).toNat + (31 : BitVec 5).toNat)) ∧
      ((bootState done).boot.sram = true ∧ (bootState done).boot.logic = true ∧ (bootState done).boot.tests ≠ none ∧
        (bootState done).boot.sites.getLsbD 31 = true) ∧
      (let s := bootState {};
        s.boot.sites.getLsbD 31 = false ∧ s.unitBad (7 + 31 / 16) (31 % 16) = false ∧ s.fuses.gen 31 = 1 ∧ (tr true true 1 none).gen.toNat = 1 ∧
          (tr true true 2 none).gen.toNat ≠ 1 ∧ (tr true false 1 none).identityOk = false ∧ (tr false true 1 none).populated = false ∧
          (tr true true 1 (some 3)).rate = some 3) ∧
      (let s : State := { on with boot := { mapBad := true } };
        s.power.good = true ∧ s.boot.ready = false ∧ s.boot.mapBad = true ∧ NoLaunch s ∧ ∀ x < 16, s.flag (OX.STATUS x) OX.STATUS_PRESENT = false) ∧
      (let s := bootState done;
        s.boot.mapBad = false ∧ s.boot.ctuOk = true ∧ s.boot.xrOk = true ∧ (∀ x < 16, s.oxState x = 0 ∨ 6 ≤ s.oxState x) ∧
          (∀ u < 4, (s.upper u).phase = 4 ∨ ((s.upper u).phase = 0 ∧ s.railEnabled (rIo u) = false)) ∧ s.guestbook.retained.length ≤ 64) := by
  unfold NoLaunch
  decide +kernel

/-- A list of one row, hard repair that runs, a hostel without blocks and with a launch, and a part reset before and while it runs. -/
theorem test_wit_ServiceAndPartReset :
    let at_ (st : Nat) : State := (bootState { ready := true }).setFld BRG.STATUS BRG.STATUS_STAGE st
    let listed := ((slotState15 0 {} [(0x1000, 31), (0x1001, 255)]).setFld BRG.STATUS BRG.STATUS_STAGE 1).setFld BRG.REPAIR_LIST BRG.REPAIR_LIST_COUNT 1
    let listed := listed.setFld BRG.REPAIR_LIST BRG.REPAIR_LIST_DPA 0x1007
    let busy : State := { (siteState {}).setFlag BRG.STATUS BRG.STATUS_HARD_REPAIR_BUSY true with service := { repair := [(31, 0x7FFFFFFFF)] } }
    let fenced (s : State) := s.setFlag (HOS.STATUS 7) HOS.STATUS_FENCED true
    let kept := (runs7 (at_ 3)).setBlock 7 7 { used := true, launch := 7 }
    let lit (s : State) := s.setFld BRG.ENABLED BRG.ENABLED_HOSTELS 0x80
    let resets := (at_ 3).setFlag BRG.STATUS BRG.STATUS_PART_RESET_BUSY true
    (∀ st < 5, (at_ st).fld BRG.STATUS BRG.STATUS_STAGE = st) ∧
      (listed.fld BRG.STATUS BRG.STATUS_STAGE = 1 ∧ listed.flag BRG.STATUS BRG.STATUS_HARD_REPAIR_BUSY = false ∧ listed.couriers.chans = [] ∧
        8 * listed.fld BRG.REPAIR_LIST BRG.REPAIR_LIST_COUNT = 8 ∧ listed.readNow (listed.fld BRG.REPAIR_LIST BRG.REPAIR_LIST_DPA / 8 * 8) 8 =
          (listed, 0, [31, 255, 0, 0, 0, 0, 0, 0])) ∧
      (busy.flag BRG.STATUS BRG.STATUS_HARD_REPAIR_BUSY = true ∧ busy.service.repair.length < 65536 ∧ busy.service.repair = [(31, 0x7FFFFFFFF)] ∧
        busy.siteHere 31 = true ∧ 0x7FFFFFFFF < busy.siteBytes 31 ∧ busy.siteEnabled 31 = true) ∧
      (State.reset.planned 4 7 = false ∧ (at_ 3).planned 4 7 = true ∧ (at_ 3).flag BRG.STATUS BRG.STATUS_PART_RESET_BUSY = false ∧
        (at_ 3).flag (HOS.STATUS 7) HOS.STATUS_FENCED = false ∧ (at_ 3).hostelLaunches 7 = []) ∧
      (kept.planned 4 7 = true ∧ kept.hostelLaunches 7 = [7] ∧ kept.slotOf 7 = some 3 ∧ (kept.launch 3).killing = false) ∧
      ((lit (fenced (at_ 3))).planned 4 7 = true ∧ (lit (fenced (at_ 3))).hostelEnabled 7 = true ∧
        (lit (fenced (at_ 3))).flag (HOS.STATUS 7) HOS.STATUS_FENCED = true) ∧
      (NoLaunch (at_ 3) ∧ NothingWaits (at_ 3) ∧ (∀ u < 4, (at_ 3).upHere u = false) ∧ (at_ 3).sbx.porterFw = none) ∧
      (resets.flag BRG.STATUS BRG.STATUS_PART_RESET_BUSY = true ∧ resets.flag PT.STATUS PT.STATUS_SHUTDOWN_PENDING = false ∧
        (∀ u < 4, resets.upHere u = false ∧ resets.flag (UP.STATUS u) UP.STATUS_RESET_BUSY = false) ∧ ∀ x < 16, (resets.oxl x).reqs = []) := by
  refine ⟨by decide +kernel, by decide +kernel, by decide +kernel, by decide +kernel, by decide +kernel, by decide +kernel, ⟨by unfold NoLaunch; decide +kernel,
    nothing_of (by decide +kernel), by decide +kernel, by decide +kernel⟩, by decide +kernel⟩

/-! ### States that meet the statements' hypotheses: the whole block -/

/-- A reserved offset inside a block, and one in a gap, at the end of BAR0. -/
theorem test_wit_ReservedOffsets : ((0x2FFFFF8 : BitVec 26).toNat % 4 = 0 ∧ ReservedOffset (0x2FFFFF8 : BitVec 26).toNat) ∧
    (0x2FFFFF8 : BitVec 26).toNat % 8 = 0 ∧ ReservedOffset ((0x2FFFFF8 : BitVec 26).toNat + 4) ∧ ReservedOffset 0x1001C := by
  unfold ReservedOffset
  decide +kernel

theorem test_wit_EnabledShares : (boxState (boxOf 1 [])).passes 1 true true = true := by decide +kernel

theorem test_wit_DiscardedTile : (slotState15 0 {} []).tileGone 1 = false := by decide +kernel

/-- A queue with a command, and an empty one; a step that answers a next state, with memory in its form. -/
theorem test_wit_StepTakesTheFront : ({ State.reset with pending := [.etcTick, .ready] } : State).pending = .etcTick :: [.ready] ∧ State.reset.pending = [] ∧
    Memory.wf State.reset.mem = true ∧ wellFormed .etcTick = true ∧
    step { State.reset with pending := [.etcTick, .ready] } = .next ({ State.reset with pending := [.ready] }.bump ETC.VALUE 80) :=
  ⟨rfl, rfl, rfl, rfl, rfl⟩

end Sys2Proof.Tests
end

namespace Sys2Proof.Machine

open Sys2Proof Sys2Proof.Safety

/-! ### Results that are a next state -/

/-- The result is a next state: no fault and no refusal. -/
def Completes (r : Res) : Prop := ∃ t, r = .next t

theorem completes_next (s : State) : Completes (.next s) := ⟨s, rfl⟩

theorem completes_ite {c : Prop} [Decidable c] {a b : Res} (ha : c → Completes a) (hb : ¬c → Completes b) :
    Completes (if c then a else b) := by
  split
  · exact ha ‹c›
  · exact hb ‹¬c›

/-- A choice between two next states. -/
theorem completes_choice (c : Prop) [Decidable c] (a b : State) : Completes (if c then .next a else .next b) :=
  completes_ite (fun _ => completes_next a) fun _ => completes_next b

/-! ### The check at issue of a hostel word (R8, R121, R139, R182) -/

/-- The result is that of the check at issue and then of an instruction that answers a next state. -/
def HosChecked (x : HosCmd) (s : State) (r : Res) : Prop :=
  ∃ body, r = s.issue x.h.toNat x.g.toNat x.w x.op body ∧ Completes (body s)

/-- Of a word that fits its row, the check at issue refuses nothing. -/
theorem HosChecked.completes {x : HosCmd} {s : State} {r : Res} (hr : HosChecked x s r) (fits : x.fits = true) : Completes r := by
  obtain ⟨body, rfl, hbody⟩ := hr
  unfold State.issue
  refine completes_ite (fun _ => completes_next _) fun _ => completes_ite (fun _ => completes_next _) fun hlegal => ?_
  have hrow : ¬ hwOp x.w ≠ x.op := by simpa [HosCmd.fits, hlegal] using fits
  rw [if_neg hrow]
  exact completes_ite (fun _ => completes_next _) fun _ => completes_ite (fun _ => completes_next _) fun _ =>
    completes_ite (fun _ => completes_next _) fun _ => completes_ite (fun _ => completes_next _) fun _ => hbody

theorem issue_checked {x : HosCmd} {s : State} {body : State → Res} (hbody : Completes (body s)) :
    HosChecked x s (s.issue x.h.toNat x.g.toNat x.w x.op body) := ⟨body, rfl, hbody⟩

theorem groupWide_completes {s : State} {h g cause : Nat} {body : State → Res} (hbody : Completes (body s)) :
    Completes (s.groupWide h g cause body) :=
  completes_ite (fun _ => completes_next _) fun _ => hbody

theorem enqueue_completes (s : State) (h g : Nat) (o : ArrayOp) : Completes (s.enqueue h g o) := completes_choice _ _ _

section

variable (x : HosCmd) (s : State)

theorem issueGroup_checked (f : Group → W32 → Group) : HosChecked x s (s.issueGroup x.h.toNat x.g.toNat x.w x.op f) :=
  ⟨_, rfl, completes_next _⟩

theorem issueJump_checked (f : Group → Group) : HosChecked x s (s.issueJump x.h.toNat x.g.toNat x.w x.op f) :=
  ⟨_, rfl, completes_next _⟩

theorem issueMem_checked : HosChecked x s (s.issueMem x.h.toNat x.g.toNat x.w x.op) := by
  refine ⟨_, rfl, ?_⟩
  dsimp only
  split
  · exact completes_next _
  · split
    · exact completes_next _
    · exact completes_ite (fun _ => completes_next _) fun _ => completes_choice _ _ _

theorem issueTileMem_checked : HosChecked x s (s.issueTileMem x.h.toNat x.g.toNat x.w x.op) := by
  refine ⟨_, rfl, groupWide_completes ?_⟩
  dsimp only
  split
  · exact completes_next _
  · split
    · exact completes_next _
    · exact completes_choice _ _ _

theorem issueTile_checked (f : Group → Group) : HosChecked x s (s.issueTile x.h.toNat x.g.toNat x.w x.op f) :=
  ⟨_, rfl, groupWide_completes (completes_next _)⟩

theorem issueLane_checked : HosChecked x s (s.issueLane x.h.toNat x.g.toNat x.w x.op) := by
  refine ⟨_, rfl, groupWide_completes (completes_ite (fun _ => completes_next _) fun _ => ?_)⟩
  split
  · exact completes_next _
  · exact enqueue_completes _ _ _ _

theorem issueIndirect_checked (link : Bool) : HosChecked x s (s.issueIndirect x.h.toNat x.g.toNat x.w x.op link) := by
  refine ⟨_, rfl, ?_⟩
  dsimp only
  split
  · exact completes_next _
  · exact completes_next _

end

/-- Every hostel row is the check at issue of its word and then an instruction that answers a next state. -/
theorem exec_hostel_checked {i : Instr} {x : HosCmd} (hx : i.hostel = some x) (s : State) : HosChecked x s (exec i s) := by
  cases i with
  | add | sub | adds | subs | mul | mulhu | mulhs | mad | and | or | xor | shl | shr | sra | min | max | minu | maxu | clz | popc | mov
  | sel | lread | icmp | icmpu | fcmp | pand | por | pxor | pnot | pany | pall | pmask | fadd | fsub | fmul | ffma | fmin | fmax | fabs
  | fneg | fcpys | fdiv | fsqrt | frcp | frsq | fex2 | flg2 | divu | divs | remu | rems | cvtF32Bf16 | cvtF32F16 | cvtF32E4m3
  | cvtF32E5m2 | cvtS32F32 | cvtU32F32 | cvtF32S32 | cvtF32U32 | dqmx | tcvi | tadd | tcvo | tneg | tinv | cvtBf16F32 | cvtF16F32
  | cvtE4m3F32 | cvtE5m2F32 | qmxE2m1 | qmxE2m3 | qmxE3m2 =>
    cases hx
    dsimp only [exec]
    exact issueGroup_checked _ _ _
  | bra | call | nop =>
    cases hx
    exact issueJump_checked _ _ _
  | fence | waitaI | waitaR | rda | mile | movs =>
    cases hx
    dsimp only [exec]
    refine issue_checked ?_
    exact completes_next _
  | ldU8 | ldS8 | ldU16 | ldS16 | ld32 | ld64 | ld128 | st8 | st16 | st32 | st64 | st128 | atomAdd | atomMin | atomMax | atomMinu
  | atomMaxu | atomAnd | atomOr | atomXor | atomExch | atomCas | atomFadd | atomTadd | acq | rel =>
    cases hx
    exact issueMem_checked _ _
  | tld | tst =>
    cases hx
    exact issueTileMem_checked _ _
  | tmov | tzero | trd | twr =>
    cases hx
    exact issueTile_checked _ _ _
  | lfma | lscale | lmul | ladd | lsub | lmax | lmin =>
    cases hx
    exact issueLane_checked _ _
  | brx | callx | ret =>
    cases hx
    exact issueIndirect_checked _ _ _
  | mdot =>
    cases hx
    dsimp only [exec]
    refine issue_checked ?_
    exact groupWide_completes (completes_ite (fun _ => completes_next _) fun _ => enqueue_completes _ _ _ _)
  | barb | barc =>
    cases hx
    dsimp only [exec]
    refine issue_checked ?_
    exact groupWide_completes (completes_next _)
  | brc =>
    cases hx
    dsimp only [exec]
    refine issue_checked ?_
    exact completes_ite (fun _ => completes_next _) fun _ => completes_ite (fun _ => completes_next _) fun _ =>
      completes_choice _ _ _
  | exit =>
    cases hx
    dsimp only [exec]
    refine issue_checked ?_
    exact completes_ite (fun _ => completes_choice _ _ _) fun _ => completes_next _
  | siga | wsr =>
    cases hx
    dsimp only [exec, execSiga, execWsr]
    refine issue_checked ?_
    split
    · exact completes_next _
    · exact completes_next _
  | _ => cases hx

/-! ### The check at issue of a word of the porter set (R8, R207, R215, R221) -/

/-- The result is that of the check at issue and then of an instruction that answers a next state. -/
def PorChecked (x : PorCmd) (s : State) (r : Res) : Prop := ∃ body, r = s.porIssue x.c x.w x.op body ∧ Completes (body s)

/-- Both statements of what is legal on a core say the same. -/
theorem coreRef_legal (c : CoreRef) (w : W32) : c.legal w = coreLegal c w := by cases c <;> rfl

/-- Of a word that fits its row, the check at issue refuses nothing. -/
theorem PorChecked.completes {x : PorCmd} {s : State} {r : Res} (hr : PorChecked x s r) (fits : x.fits = true) : Completes r := by
  obtain ⟨body, rfl, hbody⟩ := hr
  unfold State.porIssue
  refine completes_ite (fun _ => completes_next _) fun _ => completes_ite (fun _ => completes_next _) fun _ =>
    completes_ite (fun _ => completes_next _) fun hlegal => ?_
  have hrow : ¬ pwRow x.w ≠ x.op := by simpa [PorCmd.fits, coreRef_legal, hlegal] using fits
  rw [if_neg hrow]
  exact completes_ite (fun _ => completes_next _) fun _ => completes_ite (fun _ => completes_next _) fun _ =>
    completes_ite (fun _ => completes_next _) fun _ => completes_ite (fun _ => completes_next _) fun _ => hbody

theorem porIssue_checked {x : PorCmd} {s : State} {body : State → Res} (hbody : Completes (body s)) :
    PorChecked x s (s.porIssue x.c x.w x.op body) := ⟨body, rfl, hbody⟩

theorem porFarReq_completes (s : State) (c : CoreRef) (w : W32) (op n loc locN al flits : Nat) (moves : Bool) (acc : AccOp)
    (data : List Byte) : Completes (s.porFarReq c w op n loc locN al flits moves acc data) := by
  cases c with
  | steward k => exact completes_next _
  | porter m => exact completes_choice _ _ _

theorem porMove_completes (s : State) (c : CoreRef) (w : W32) (op al : Nat) (acc : AccOp) (out : Bool) :
    Completes (s.porMove c w op al acc out) := by
  cases c with
  | steward k => exact completes_next _
  | porter m =>
    refine completes_ite (fun _ => completes_next _) fun _ => ?_
    split
    · exact completes_next _
    · exact completes_next _

section

variable (c : CoreRef) (w : W32) (s : State)

theorem porReg_checked (op : POp) (f : Core → Core) : PorChecked ⟨c, w, op⟩ s (s.porReg c w op f) := ⟨_, rfl, completes_next _⟩

theorem porLoad_checked (op size : Nat) (signed fl : Bool) : PorChecked ⟨c, w, ⟨op, 0⟩⟩ s (s.porLoad c w op size signed fl) :=
  ⟨_, rfl, completes_next _⟩

theorem porStore_checked (op size : Nat) (val : Core → Nat) : PorChecked ⟨c, w, ⟨op, 0⟩⟩ s (s.porStore c w op size val) :=
  ⟨_, rfl, completes_next _⟩

theorem porBranch_checked (op : Nat) (cond : Nat → Nat → Bool) : PorChecked ⟨c, w, ⟨op, 0⟩⟩ s (s.porBranch c w op cond) :=
  ⟨_, rfl, completes_choice _ _ _⟩

theorem stwIssue_checked (op : Nat) (body : State → Nat → State) : PorChecked ⟨c, w, ⟨op, 0⟩⟩ s (s.stwIssue c w op body) := by
  refine ⟨_, rfl, ?_⟩
  cases c with
  | porter n => exact completes_next _
  | steward k => exact completes_next _

theorem cmo_checked (op : Nat) : PorChecked ⟨c, w, ⟨0x64, op⟩⟩ s (s.cmo c w op) := by
  refine ⟨_, rfl, ?_⟩
  cases c with
  | porter n => exact completes_next _
  | steward k => exact completes_next _

end

/-- Every row of the porter set is the check at issue of its word and then an instruction that answers a next state. -/
theorem exec_porter_checked {i : Instr} {x : PorCmd} (hx : i.porter = some x) (s : State) : PorChecked x s (exec i s) := by
  cases i with
  | porAdd | porSub | porAnd | porOr | porXor | porShl | porShr | porSra | porSlt | porSltu | porMul | porMulhu | porMulhs | porMulw
  | porMin | porMax | porMinu | porMaxu | porDivu | porDivs | porRemu | porRems | porClz | porPopc | porAddp | porSubp | porAddi
  | porAndi | porOri | porXori | porSlti | porSltiu | porShli | porShri | porSrai | porLui | porAddpi | porFadd | porFsub | porFmul
  | porFfma | porFmin | porFmax | porFdiv | porFsqrt | porFabs | porFneg | porFeq | porFlt | porFle | porFmvG | porFmvF | porCrcw
  | porWsr | porCvtBf16F32 | porCvtF32Bf16 | porCvtE4m3F32 | porCvtE5m2F32 | porCvtF32E4m3 | porCvtF32E5m2 | porCvtS32F32
  | porCvtS32F32Rz | porCvtF32S32 | porMxscE2m1 | porMxscE2m3 | porMxscE3m2 | porMxqE2m1 | porMxqE2m3 | porMxqE3m2 | porMxdE2m1
  | porMxdE2m3 | porMxdE3m2 =>
    cases hx
    dsimp only [exec]
    exact porReg_checked _ _ _ _ _
  | porLdB | porLdBu | porLdH | porLdHu | porLdW | porLdD | porLdf =>
    cases hx
    dsimp only [exec]
    exact porLoad_checked _ _ _ _ _ _ _
  | porStB | porStH | porStW | porStD | porStf =>
    cases hx
    dsimp only [exec]
    exact porStore_checked _ _ _ _ _ _
  | porBeq | porBne | porBlt | porBge | porBltu | porBgeu =>
    cases hx
    dsimp only [exec]
    exact porBranch_checked _ _ _ _ _
  | csrr | csrw | eret | wfi | sync | iinv =>
    cases hx
    dsimp only [exec]
    exact stwIssue_checked _ _ _ _ _
  | cmoClean | cmoInval | cmoFlush | cmoZl =>
    cases hx
    dsimp only [exec]
    exact cmo_checked _ _ _ _
  | porJal | porJalr | porTcvi | porTcvo | porTaddm | porMovs =>
    cases hx
    dsimp only [exec]
    refine porIssue_checked ?_
    exact completes_next _
  | porFld | porFst | porTaud =>
    cases hx
    dsimp only [exec]
    refine porIssue_checked ?_
    exact porFarReq_completes _ _ _ _ _ _ _ _ _ _ _ _
  | porFget | porFput | porFred =>
    cases hx
    dsimp only [exec]
    refine porIssue_checked ?_
    exact porMove_completes _ _ _ _ _ _ _
  | porWaitq | porMile | porExit =>
    cases hx
    dsimp only [exec, execPorWaitq, execPorMile, execPorExit]
    refine porIssue_checked ?_
    split
    · exact completes_next _
    · exact completes_next _
  | porWaitw =>
    cases hx
    dsimp only [exec, execPorWaitw]
    refine porIssue_checked ?_
    split
    · exact completes_next _
    · exact completes_choice _ _ _
  | porGput =>
    cases hx
    dsimp only [exec, execPorGput]
    refine porIssue_checked ?_
    split
    · exact completes_next _
    · split
      · exact completes_next _
      · exact completes_ite (fun _ => completes_next _) fun _ => completes_choice _ _ _
  | porGadd =>
    cases hx
    dsimp only [exec, execPorGadd]
    refine porIssue_checked ?_
    split
    · exact completes_next _
    · split
      · exact completes_next _
      · exact completes_choice _ _ _
  | _ => cases hx

/-! ### Units' own rows -/

/-- A sideband message whose CRC is right has the type of its row (R382, R383): its row does not refuse it. -/
theorem typedMessage_completes {msg : BitVec 256} {ty : Nat} (ok : sidebandOk msg [ty] = true) {c : Prop} [Decidable c]
    (crc : ¬c → sbCrcOk msg = true) {a r : Res} (ha : Completes a) (hr : Completes r) :
    Completes (if c then a else if sbType msg ≠ ty then .refused .wrongWord else r) := by
  refine completes_ite (fun _ => ha) fun hc => ?_
  have htype : ¬ sbType msg ≠ ty := by simpa [sidebandOk, crc hc] using ok
  rw [if_neg htype]
  exact hr

/-- A message of the row for unlisted types is of none of the types that have a row (R383). -/
theorem unlistedSidebandMessage_completes (u : BitVec 2) {msg : BitVec 256} (s : State)
    (ok : (Instr.unlistedSidebandMessage u msg).operandsOk = true) : Completes (execUnlistedSidebandMessage u msg s) := by
  unfold execUnlistedSidebandMessage
  refine completes_ite (fun _ => completes_next _) fun hc => ?_
  obtain ⟨-, crc⟩ : ¬ (s.upper u.toNat).phase < 2 ∧ sbCrcOk msg = true := by simpa using hc
  have htype : ¬ (sbType msg = 1 ∨ sbType msg = 3 ∨ sbType msg = 5 ∨ sbType msg = 7 ∨ sbType msg = 8) := by
    simpa [Instr.operandsOk, sidebandOk, crc] using ok
  rw [if_neg (by simpa [or_assoc] using htype)]
  exact completes_choice _ _ _

/-- A command that carries no instruction word answers a next state: each of its row's branches ends in one, but for a sideband message
of another row's type. -/
theorem exec_unit_completes {i : Instr} (unit : (i.hostel.isNone && i.porter.isNone) = true) (ok : i.operandsOk = true) (s : State) :
    Completes (exec i s) := by
  cases i with
  | powerGoodRise | powerGoodFall | resetNAssert | knownAnswerTestsDone | clockGateIdle | etcTick | etcLowRead | arm | runSet | runClear
  | seamHoldEnd | cleanAll | flushAll | invalAll | channelAbort | copy | convert | reduce | courierAdd | discard | hash | watch
  | faultQueueConsume | fqWriteErrorClear | memorySideAdd | linkEqualiseDone | trainingAttemptTimeout | autoRetrain | portDisable
  | portFence | checkerEnable | nak | oxluxRead | oxluxWrite | oxluxAdd | oxluxReduce | oxluxReadResp | oxluxAck | arrive | release
  | thermalNotice | healthNotice | nodeIdWrite | upRead | upWrite | upWriteBeat | resetRelease | identTimeout | dieThermalTimeout
  | upperSiteFence | upperSiteReset | upSeal | thermalSample | sensorSelfCheck | currentLimitUpdate | deferTimeout | budgetWindow
  | shutdownDeadline | ptSeal | launchAbort | slotRelease | bar2Read | bar2Write | bar2WindowWrite | functionLevelReset | hotReset
  | pcieLinkDown | d3hotEntry | newNonce | retainClear | detectTimeout | lossOfSignal | lossOfLock | alarmNChange | fuseSupplyChange
  | vaonFall | wakeInterrupt => exact completes_next _
  | fuseReadDone | sramSelfTestDone | logicSelfTestDone | pcieLinkTrained | ready | clockWakeEnd | registerWrite | timetableSlot
  | scrubPassStart | bankSwitch | realign | rejoin | barrierRelease | killComplete | porterFence | porterUnfence | porterPowerOff
  | porterPowerOn | porterIslandReady | push | invalidate | stallReplayWrite | refreshWindow | mr4Read | memScrub | repairReq
  | repairInterval | siteFence | siteUnfence | siteRetrain | siteRetrainDone | marginSweep | marginSweepDone | linkDetect | identity
  | linkRetrain | portUnfence | testStart | testEnd | frameSend | frameReceive | linkFailed | upPortRetrain | throttleApply
  | siteSwitchOff | avsStep | phaseChange | fixedDispatchWrite | go | legWatchdog | stepEnd | configRequest | submit | licence
  | runtimeFirmware | enterService | porterServiceFirmware | debugUnlockToken | raiseSvnFloor | revokeSigner | fuseGenProg | hardRepair
  | hardRepairDone | partReset | partResetDone | hostelFence | hostelUnfence | find | railInRegulation | currentLimitReached
  | submissionRefused | bar0MisalignedAccess =>
    (repeat' refine completes_ite (fun _ => ?_) fun _ => ?_) <;> exact completes_next _
  | meshHop | farResponse | gridWrite | gridAdd | start | kill | loadBegin | load | loadCheck | imageBad | startRefused | done | killed
  | waitqResume | waitwResume | interfacePortAccess =>
    dsimp only [exec, execMeshHop, execFarResponse, execGridWrite, execGridAdd, execStart, execKill, execLoadBegin, execLoad,
      execLoadCheck, execImageBad, execStartRefused, execDone, execKilled, execWaitqResume, execWaitwResume, execInterfacePortAccess]
    repeat' split
    all_goals exact completes_next _
  | arrayStart | fenceComplete | peerAccessDone | waitaResume | l2FillDone | evictionWrite =>
    dsimp only [exec, execArrayStart, execFenceComplete, execPeerAccessDone, execWaitaResume, execL2FillDone, execEvictionWrite]
    repeat' split
    all_goals exact completes_next _
  | reduceCombine | reduceClose | tileAudit | edgePortNoSlot | ttCheckDone | timetableStage | legStart | dispatcherPush | blockPlace =>
    dsimp only [exec, execReduceCombine, execReduceClose, execTileAudit, execEdgePortNoSlot, execTtCheckDone, execTimetableStage,
      execLegStart, execDispatcherPush, execBlockPlace]
    repeat' split
    all_goals exact completes_next _
  | tileResume | tileLanded | arrivalVisible | provenanceRecordWrite =>
    dsimp only [exec, execTileResume, execTileLanded, execArrivalVisible, execProvenanceRecordWrite]
    repeat' split
    all_goals exact completes_next _
  | translationStopRequest | ctuLookup | walkStart | walkStepDone | faultMergeEnd | resolveRetry | resolveAbort | invalidationDone =>
    dsimp only [exec, execTranslationStopRequest, execCtuLookup, execWalkStart, execWalkStepDone, execFaultMergeEnd, execResolveRetry,
      execResolveAbort, execInvalidationDone]
    repeat' split
    all_goals exact completes_next _
  | scheduledCommand | meshRequest | meshRequestIssue | siteTrainingDone =>
    dsimp only [exec, execScheduledCommand, execMeshRequest, execMeshRequestIssue, execSiteTrainingDone]
    repeat' split
    all_goals exact completes_next _
  | linkLockDone | retryTimeout | patienceExpired | inboundNoSlot | reservedOpcPacket | upNoSlot | writeBeatsTimeout =>
    dsimp only [exec, execLinkLockDone, execRetryTimeout, execPatienceExpired, execInboundNoSlot, execReservedOpcPacket, execUpNoSlot,
      execWriteBeatsTimeout]
    repeat' split
    all_goals exact completes_next _
  | launchCheckDone | hostRelease | milestoneArrival | milestonePatience | hostCompletion | completionTimeout | keyLoadRecord | attest
  | guestbookCommit | findDone =>
    dsimp only [exec, execLaunchCheckDone, execHostRelease, execMilestoneArrival, execMilestonePatience, execHostCompletion,
      execCompletionTimeout, execKeyLoadRecord, execAttest, execGuestbookCommit, execFindDone]
    repeat' split
    all_goals exact completes_next _
  | ident | vset | thermal | error => exact typedMessage_completes ok (by simp) (completes_next _) (completes_next _)
  | trainResult => exact typedMessage_completes (Bool.and_eq_true_iff.1 ok).2 (by simp) (completes_next _) (completes_next _)
  | unlistedSidebandMessage u msg => exact unlistedSidebandMessage_completes u s ok
  | _ => cases unit

/-- Settles O57: a word that fits its row passes the check at issue or is dealt with there, and every row's own branches end in a next state. -/
theorem commandsComplete : Obligations.CommandsComplete := by
  intro i s hwf
  unfold wellFormed at hwf
  cases hh : i.hostel with
  | some x =>
    simp only [hh, Bool.and_eq_true] at hwf
    exact (exec_hostel_checked hh s).completes hwf.1.2
  | none =>
    cases hp : i.porter with
    | some y =>
      simp only [hp, Bool.and_eq_true] at hwf
      exact (exec_porter_checked hp s).completes hwf.2
    | none =>
      simp only [Bool.and_eq_true] at hwf
      exact exec_unit_completes (by rw [hh, hp]; rfl) hwf.1.1 s

end Sys2Proof.Machine

namespace Sys2Proof.Machine

open Sys2Proof Sys2Proof.Safety

/-! ### Interrupts (R452, R490) -/

/-- Raising an interrupt changes registers and the PCIe port, and nothing else. -/
theorem raise_frame (s : State) (k : Nat) : s.raise k = { s with regs := (s.raise k).regs, pcie := (s.raise k).pcie } := by
  unfold State.raise State.msix
  dsimp only
  repeat' split
  all_goals rfl

@[simp] theorem raise_mem (s : State) (k : Nat) : (s.raise k).mem = s.mem := by rw [raise_frame]
@[simp] theorem raise_guestbook (s : State) (k : Nat) : (s.raise k).guestbook = s.guestbook := by rw [raise_frame]
@[simp] theorem raise_launches (s : State) (k : Nat) : (s.raise k).launches = s.launches := by rw [raise_frame]
@[simp] theorem raise_hosGroups (s : State) (k : Nat) : (s.raise k).hosGroups = s.hosGroups := by rw [raise_frame]
@[simp] theorem raise_hosArray (s : State) (k : Nat) : (s.raise k).hosArray = s.hosArray := by rw [raise_frame]
@[simp] theorem raise_porters (s : State) (k : Nat) : (s.raise k).porters = s.porters := by rw [raise_frame]
@[simp] theorem raise_mesh (s : State) (k : Nat) : (s.raise k).mesh = s.mesh := by rw [raise_frame]

/-- A message on a vector writes no register. -/
@[simp] theorem msix_regs (s : State) (vec : Nat) : (s.msix vec).regs = s.regs := by
  unfold State.msix
  dsimp only
  repeat' split
  all_goals rfl

/-- Raising an interrupt writes one register. -/
theorem reg_raise_other (s : State) (k : Nat) {r : Nat} (hr : r ≠ GB.IRQ_STATUS) : (s.raise k).reg r = s.reg r := by
  have regs_eq : (s.raise k).regs = (s.setReg GB.IRQ_STATUS (s.reg GB.IRQ_STATUS ||| BitVec.ofNat 64 (2 ^ k))).regs := by
    unfold State.raise
    dsimp only
    split
    · exact msix_regs _ _
    · rfl
  unfold State.reg
  rw [regs_eq]
  exact reg_setReg_other s _ hr

theorem fld_congr {s t : State} {r : Nat} (h : t.reg r = s.reg r) (f : Fld) : t.fld r f = s.fld r f := by unfold State.fld; rw [h]

theorem flag_congr {s t : State} {r : Nat} (h : t.reg r = s.reg r) (f : Fld) : t.flag r f = s.flag r f := by
  unfold State.flag; rw [fld_congr h]

/-! ### The slot of a launch (R446, Table 14.12) -/

theorem slotOf_lt {s : State} {l : BitVec 16} {k : Nat} (h : s.slotOf l = some k) : k < 16 :=
  List.mem_range.1 (List.mem_of_find?_eq_some h)

/-- The slot of a launch is read from the slots' status registers. -/
theorem slotOf_congr {s t : State} (h : ∀ k < 16, t.reg (LNCH.STATUS k) = s.reg (LNCH.STATUS k)) (l : BitVec 16) :
    t.slotOf l = s.slotOf l := by
  unfold State.slotOf
  rw [← List.head?_filter, ← List.head?_filter]
  refine congrArg List.head? (List.filter_congr fun k hk => ?_)
  simp only [State.slotState, State.launchId, State.fld, h k (List.mem_range.1 hk)]

/-! ### The first fault of a context (R177, R446, R482) -/

@[simp] theorem reg_setLaunch (s : State) (k : Nat) (v : Launch) (r : Nat) : (s.setLaunch k v).reg r = s.reg r := rfl
@[simp] theorem reg_stopHostels (s : State) (l : BitVec 16) (r : Nat) : (s.stopHostels l).reg r = s.reg r := rfl

theorem killing_of_slotOf {s : State} {l : BitVec 16} {k : Nat} (h : s.slotOf l = some k) : s.killing l = (s.launch k).killing := by
  unfold State.killing
  rw [h]

/-- The KILL entry of a fault. -/
def killEntry (s : State) (l : BitVec 16) (cause source detail bus group lane : Nat) : GbEntry :=
  { stamp := s.etc, kind := kKILL, cause := cause, source := source, launch := l, detail := detail % 2 ^ 64,
    payload := [BitVec.ofNat 8 bus, BitVec.ofNat 8 group, BitVec.ofNat 8 lane] }

section

variable {s : State} {l : BitVec 16} {k : Nat} (hslot : s.slotOf l = some k) (hfirst : (s.launch k).killing = false)
variable (cause source detail bus group lane : Nat)

include hslot hfirst

/-- The first fault of a launch that has a slot: its entry, the interrupt, the cause, the mark, and its hostel work stopped. -/
theorem startKill_first : s.startKill l cause source detail bus group lane =
    (((((s.killEvent (killEntry s l cause source detail bus group lane) false).raise iKILL).setFld (LNCH.STATUS k) LNCH.STATUS_CAUSE
      cause).setLaunch k { s.launch k with killing := true }).stopHostels l) := by
  simp [State.startKill, hslot, hfirst, killEntry]

theorem startKill_mem : (s.startKill l cause source detail bus group lane).mem = s.mem := by
  rw [startKill_first hslot hfirst]
  exact raise_mem _ _

theorem startKill_porters : (s.startKill l cause source detail bus group lane).porters = s.porters := by
  rw [startKill_first hslot hfirst]
  exact raise_porters _ _

theorem startKill_mesh : (s.startKill l cause source detail bus group lane).mesh = s.mesh := by
  rw [startKill_first hslot hfirst]
  exact raise_mesh _ _

/-- The context's KILL entry waits for its commit. -/
theorem startKill_waiting : ∃ e, (s.startKill l cause source detail bus group lane).guestbook.waiting = s.guestbook.waiting ++ [e] ∧
    e.kind = kKILL ∧ e.cause = cause ∧ e.launch = l ∧ e.stamp = s.etc ∧ e.source = source ∧ e.detail = detail % 2 ^ 64 := by
  refine ⟨killEntry s l cause source detail bus group lane, ?_, rfl, rfl, rfl, rfl, rfl, rfl⟩
  rw [startKill_first hslot hfirst]
  exact congrArg Guestbook.waiting (raise_guestbook _ _)

theorem startKill_reg_other {r : Nat} (hirq : r ≠ GB.IRQ_STATUS) (hstatus : r ≠ LNCH.STATUS k) :
    (s.startKill l cause source detail bus group lane).reg r = s.reg r := by
  rw [startKill_first hslot hfirst]
  rw [reg_stopHostels, reg_setLaunch, reg_setFld_other _ _ _ hstatus, reg_raise_other _ _ hirq]
  rfl

theorem startKill_cause (hcause : cause < 256) :
    (s.startKill l cause source detail bus group lane).fld (LNCH.STATUS k) LNCH.STATUS_CAUSE = cause := by
  rw [startKill_first hslot hfirst]
  unfold State.fld
  rw [reg_stopHostels, reg_setLaunch, reg_setFld_same, fldGet_fldPut _ _ _ (by decide)]
  exact Nat.mod_eq_of_lt hcause

theorem startKill_killing : ((s.startKill l cause source detail bus group lane).launch k).killing = true := by
  rw [startKill_first hslot hfirst]
  exact congrArg Launch.killing (launch_setLaunch _ _ _)

theorem startKill_group (h g : Nat) : (s.startKill l cause source detail bus group lane).group h g =
    if (s.group h g).used && (s.group h g).launch == l then { s.group h g with stopped := true } else s.group h g := by
  rw [startKill_first hslot hfirst]
  unfold State.group State.stopHostels
  rw [tabGet_map, State.setLaunch_hosGroups, State.setFld_hosGroups, raise_hosGroups]
  change ((tabFind s.hosGroups (gkey h g)).map _).getD ({} : Group) = _
  unfold tabGet
  cases tabFind s.hosGroups (gkey h g) with
  | none => rfl
  | some gr => rfl

theorem mem_startKill_arrayQ (h : Nat) (o : ArrayOp) :
    o ∈ (s.startKill l cause source detail bus group lane).arrayQ h ↔ o ∈ s.arrayQ h ∧ o.launch ≠ l := by
  rw [startKill_first hslot hfirst]
  unfold State.arrayQ State.stopHostels
  rw [tabGet_map, State.setLaunch_hosArray, State.setFld_hosArray, raise_hosArray]
  change o ∈ ((tabFind s.hosArray h).map _).getD [] ↔ _
  unfold tabGet
  cases tabFind s.hosArray h with
  | none => simp
  | some q => simp

end

end Sys2Proof.Machine

namespace Sys2Proof.Machine

open Sys2Proof Sys2Proof.Safety

/-! ### Where a hostel word stops at issue (R8, R121, R139, R182) -/

section

variable {s : State} {h g : Nat} {w : W64} {op : HOp} (body : State → Res)

theorem issue_idle (hissue : s.canIssue h g = false) : s.issue h g w op body = .next s := by
  simp [State.issue, hissue]

theorem issue_illegal (hissue : s.canIssue h g = true) (hlegal : hostelLegal w = false) :
    s.issue h g w op body = .next (s.hostelFault h g 0 cILLEGAL) := by
  simp [State.issue, hissue, hlegal]

/-- Past the issue of a legal word of the row. -/
theorem issue_legal (hissue : s.canIssue h g = true) (hlegal : hostelLegal w = true) (hrow : hwOp w = op) :
    s.issue h g w op body =
      if hostelBadWindow w then .next (s.hostelFault h g 0 cTALLY_WINDOW)
      else if hostelFeature w = 1 && !s.flag BRG.ENABLED BRG.ENABLED_MX then .next (s.hostelFault h g 0 cUNLICENSED)
      else if hostelFeature w = 2 && !s.flag BRG.ENABLED BRG.ENABLED_TALLY then .next (s.hostelFault h g 0 cUNLICENSED)
      else if s.interlocked h g w then .next s
      else body s := by
  simp [State.issue, hissue, hlegal, hrow]

end

/-- A feature without its licence fails one of the two checks (R8). -/
theorem not_licensed {s : State} {feature : Nat} (h : ¬ Licensed s feature) :
    (feature = 1 ∧ s.flag BRG.ENABLED BRG.ENABLED_MX = false) ∨ (feature = 2 ∧ s.flag BRG.ENABLED BRG.ENABLED_TALLY = false) := by
  simpa only [Licensed, Classical.not_and_iff_not_or_not, Classical.not_imp, Bool.not_eq_true] using h

/-- What the two checks of a licence choose between: the fault, and what follows for a licensed feature. -/
theorem licence_checks (s : State) (feature : Nat) [Decidable (Licensed s feature)] (fault r : Res) :
    (if feature = 1 && !s.flag BRG.ENABLED BRG.ENABLED_MX then fault
      else if feature = 2 && !s.flag BRG.ENABLED BRG.ENABLED_TALLY then fault else r) =
      if Licensed s feature then r else fault := by
  by_cases h : Licensed s feature
  · have hmx : ¬ (feature = 1 && !s.flag BRG.ENABLED BRG.ENABLED_MX) = true := by simpa using h.1
    have htally : ¬ (feature = 2 && !s.flag BRG.ENABLED BRG.ENABLED_TALLY) = true := by simpa using h.2
    rw [if_neg hmx, if_neg htally, if_pos h]
  · rw [if_neg h]
    rcases not_licensed h with ⟨h1, h2⟩ | ⟨h1, h2⟩ <;> simp [h1, h2]

/-! ### A hostel's fault (R177, R178, R180) -/

/-- The two states differ in registers only. -/
def OnlyRegs (s t : State) : Prop := t = { s with regs := t.regs }

theorem OnlyRegs.setReg {s t : State} (h : OnlyRegs s t) (r : Nat) (v : W64) : OnlyRegs s (t.setReg r v) := by
  unfold OnlyRegs at h ⊢
  rw [h]
  rfl

theorem OnlyRegs.setFld {s t : State} (h : OnlyRegs s t) (r : Nat) (f : Fld) (v : Nat) : OnlyRegs s (t.setFld r f v) := h.setReg _ _

theorem OnlyRegs.setFlag {s t : State} (h : OnlyRegs s t) (r : Nat) (f : Fld) (b : Bool) : OnlyRegs s (t.setFlag r f b) := h.setReg _ _

theorem onlyRegs_refl (s : State) : OnlyRegs s s := rfl

/-- The kill log of a hostel is a register. -/
theorem onlyRegs_hosLog (s : State) (h : Nat) (l : BitVec 16) (g lane cause pc : Nat) : OnlyRegs s (s.hosLog h l g lane cause pc) := by
  unfold State.hosLog
  dsimp only
  split
  · exact (onlyRegs_refl s).setFlag _ _ _
  · exact ((((((onlyRegs_refl s).setFld _ _ _).setFld _ _ _).setFld _ _ _).setFld _ _ _).setFld _ _ _).setFlag _ _ _

theorem reg_hosLog_other (s : State) {h r : Nat} (l : BitVec 16) (g lane cause pc : Nat) (hr : r ≠ HOS.KILL_LOG h) :
    (s.hosLog h l g lane cause pc).reg r = s.reg r := by
  unfold State.hosLog State.setFlag
  dsimp only
  split
  · exact reg_setFld_other _ _ _ hr
  · simp only [reg_setFld_other _ _ _ hr]

/-- The fields of a hostel's kill log after its first fault (R180). -/
theorem hosLog_first {s : State} {h : Nat} (hvalid : s.flag (HOS.KILL_LOG h) HOS.KILL_LOG_VALID = false) (l : BitVec 16) {g lane cause : Nat}
    (pc : BitVec 18) (hg : g < 64) (hlane : lane < 32) (hcause : cause < 256) :
    let t := s.hosLog h l g lane cause pc.toNat
    t.fld (HOS.KILL_LOG h) HOS.KILL_LOG_LAUNCH = l.toNat ∧ t.fld (HOS.KILL_LOG h) HOS.KILL_LOG_GROUP = g ∧
      t.fld (HOS.KILL_LOG h) HOS.KILL_LOG_LANE = lane ∧ t.fld (HOS.KILL_LOG h) HOS.KILL_LOG_CAUSE = cause ∧
      t.fld (HOS.KILL_LOG h) HOS.KILL_LOG_PC = pc.toNat ∧ t.flag (HOS.KILL_LOG h) HOS.KILL_LOG_VALID = true := by
  simp only [State.hosLog, hvalid, Bool.false_eq_true, if_false]
  simp (disch := decide) only [State.setFlag, State.flag, fld_setFld_apart, fld_setFld]
  exact ⟨Nat.mod_eq_of_lt l.isLt, Nat.mod_eq_of_lt hg, Nat.mod_eq_of_lt hlane, Nat.mod_eq_of_lt hcause, Nat.mod_eq_of_lt pc.isLt, rfl⟩

theorem killLog_ne_irqStatus (h : Nat) : HOS.KILL_LOG h ≠ GB.IRQ_STATUS := by
  unfold GB.IRQ_STATUS HOS.KILL_LOG
  omega

theorem killLog_ne_launchStatus (h k : Nat) : HOS.KILL_LOG h ≠ LNCH.STATUS k := by
  unfold LNCH.STATUS HOS.KILL_LOG
  omega

@[simp] theorem killing_setGroup (s : State) (h g : Nat) (v : Group) (l : BitVec 16) : (s.setGroup h g v).killing l = s.killing l := rfl

/-- The state of a hostel's fault before its context is killed: the group stopped and the kill log written. -/
def hostelLogged (s : State) (h g lane cause : Nat) : State :=
  (s.setGroup h g { s.group h g with stopped := true }).hosLog h (s.group h g).launch g lane cause (s.group h g).pc.toNat

theorem hostelLogged_reg_other (s : State) {h r : Nat} (g lane cause : Nat) (hr : r ≠ HOS.KILL_LOG h) :
    (hostelLogged s h g lane cause).reg r = s.reg r := reg_hosLog_other _ _ _ _ _ _ hr

theorem hostelLogged_frame (s : State) (h g lane cause : Nat) :
    hostelLogged s h g lane cause = { s.setGroup h g { s.group h g with stopped := true } with
      regs := (hostelLogged s h g lane cause).regs } := onlyRegs_hosLog _ _ _ _ _ _ _

section

variable {s : State} {h g k : Nat} (hslot : s.slotOf (s.group h g).launch = some k) (hfirst : (s.launch k).killing = false)
variable (lane cause : Nat)

include hslot in
theorem hostelLogged_slotOf : (hostelLogged s h g lane cause).slotOf (s.group h g).launch = some k := by
  rw [slotOf_congr (s := s) fun j _ => hostelLogged_reg_other s g lane cause (killLog_ne_launchStatus h j).symm, hslot]

include hfirst in
theorem hostelLogged_first : ((hostelLogged s h g lane cause).launch k).killing = false := by
  rw [hostelLogged_frame]
  exact hfirst

include hslot hfirst in
/-- The first fault of a context: the kill log is written before the kill. -/
theorem hostelFault_first : s.hostelFault h g lane cause =
    (hostelLogged s h g lane cause).startKill (s.group h g).launch cause (srcOf 4 h) (s.group h g).pc.toNat 0 g lane := by
  have hkilling := (killing_of_slotOf hslot).trans hfirst
  simp only [State.hostelFault, killing_setGroup, hkilling, Bool.false_eq_true, if_false, hostelLogged]

end

/-- A group other than the one that faults is as it was when the context's kill starts; that one is stopped. -/
theorem hostelLogged_group (s : State) (h g lane cause h' g' : Nat) : (hostelLogged s h g lane cause).group h' g' =
    if gkey h' g' = gkey h g then { s.group h g with stopped := true } else s.group h' g' := by
  rw [hostelLogged_frame]
  exact tabGet_set _ _ _ _ _

/-- Settles O3: every hostel row is the check at issue and then its body, and the check's branches are read off; a fault is the kill log's
fields, then the first kill of its context. -/
theorem hostelIssueStops : Obligations.HostelIssueStops := by
  refine ⟨fun i x s hx => ?_, fun s h g lane cause k hh hg hlane hcause hslot hfirst hvalid => ?_⟩
  · obtain ⟨body, hexec, -⟩ := exec_hostel_checked hx s
    refine ⟨fun hissue => hexec.trans (issue_idle body hissue), fun hissue => ⟨fun hlegal => hexec.trans (issue_illegal body hissue hlegal),
      fun hlegal hrow => ?_⟩⟩
    classical
    rw [hexec, issue_legal body hissue hlegal hrow, licence_checks]
    exact ⟨fun hbad => if_pos hbad, fun hbad hlic => by simp [hbad, hlic], fun hbad hlic hwait => by simp [hbad, hlic, hwait]⟩
  · have hslot' := hostelLogged_slotOf hslot lane cause
    have hfirst' := hostelLogged_first (g := g) (h := h) hfirst lane cause
    have hreg := startKill_reg_other hslot' hfirst' cause (srcOf 4 h) (s.group h g).pc.toNat 0 g lane (killLog_ne_irqStatus h)
      (killLog_ne_launchStatus h k)
    obtain ⟨hl, hgr, hln, hca, hpc, hv⟩ := hosLog_first (s := s.setGroup h g { s.group h g with stopped := true }) hvalid
      (s.group h g).launch (s.group h g).pc hg hlane hcause
    have hgroup := startKill_group hslot' hfirst' cause (srcOf 4 h) (s.group h g).pc.toNat 0 g lane
    simp only [hostelLogged_group] at hgroup
    obtain ⟨e, hwaiting, hkind, hecause, helaunch, hstamp, hsource, -⟩ :=
      startKill_waiting hslot' hfirst' cause (srcOf 4 h) (s.group h g).pc.toNat 0 g lane
    dsimp only
    rw [hostelFault_first hslot hfirst]
    refine ⟨(fld_congr hreg _).trans hl, (fld_congr hreg _).trans hgr, (fld_congr hreg _).trans hln, (fld_congr hreg _).trans hca,
      (fld_congr hreg _).trans hpc, (flag_congr hreg _).trans hv, startKill_cause hslot' hfirst' _ _ _ _ _ _ hcause,
      startKill_killing hslot' hfirst' _ _ _ _ _ _, fun h' g' hused hlaunch => ?_, fun h' g' hlaunch => ?_, fun h' o => ?_,
      ⟨e, hwaiting.trans ?_, hkind, hecause, helaunch, hstamp.trans ?_, hsource⟩, ?_⟩
    · rw [hgroup]
      split
      · split <;> rfl
      · simp [hused, hlaunch]
    · rw [hgroup, if_neg (fun hkey => hlaunch (congrArg (fun key => (tabGet ({} : Group) s.hosGroups key).launch) hkey))]
      simp [hlaunch]
    · rw [mem_startKill_arrayQ hslot' hfirst', hostelLogged_frame]
      rfl
    · rw [hostelLogged_frame]
      rfl
    · exact congrArg BitVec.toNat (hostelLogged_reg_other s g lane cause (by unfold ETC.VALUE HOS.KILL_LOG; omega))
    · rw [startKill_mem hslot' hfirst', hostelLogged_frame]
      rfl

end Sys2Proof.Machine

namespace Sys2Proof.Machine

open Sys2Proof Sys2Proof.Safety

/-! ### Where a word of the porter set stops at issue (R8, R207, R215, R221) -/

section

variable {s : State} {c : CoreRef} {w : W32} {op : POp} (body : State → Res)

theorem porIssue_idle (hissue : s.porCanIssue c = false) : s.porIssue c w op body = .next s := by
  simp [State.porIssue, hissue]

/-- A porter whose pc lies beyond its local memory fetches nothing (R207). -/
theorem porIssue_segment (hissue : s.porCanIssue c = true) (hpc : ¬ ∀ n, c = .porter n → (s.core c).pc.toNat < 65536) :
    s.porIssue c w op body = .next (s.coreFault c cSEGMENT) := by
  cases c with
  | porter n =>
    have hout : 65536 ≤ (s.core (.porter n)).pc.toNat := by simpa using hpc
    simp [State.porIssue, hissue, hout]
  | steward k => exact absurd (fun n hn => nomatch hn) hpc

/-- Past the fetch of a core that can issue. -/
theorem porIssue_fetched (hissue : s.porCanIssue c = true) (hpc : ∀ n, c = .porter n → (s.core c).pc.toNat < 65536) :
    s.porIssue c w op body =
      if !coreLegal c w then .next (s.coreFault c cILLEGAL)
      else if pwRow w ≠ op then .refused .wrongWord
      else if porterBadWindow w then .next (s.coreFault c cTALLY_WINDOW)
      else if porterFeature w = 1 && !s.flag BRG.ENABLED BRG.ENABLED_MX then .next (s.coreFault c cUNLICENSED)
      else if porterFeature w = 2 && !s.flag BRG.ENABLED BRG.ENABLED_TALLY then .next (s.coreFault c cUNLICENSED)
      else if s.porPending c w then .next s
      else body s := by
  unfold State.porIssue
  rw [if_neg (by simp [hissue])]
  cases c with
  | porter n => exact if_neg (by simpa using hpc n rfl)
  | steward k => exact if_neg (by simp)

theorem porIssue_illegal (hissue : s.porCanIssue c = true) (hpc : ∀ n, c = .porter n → (s.core c).pc.toNat < 65536)
    (hlegal : coreLegal c w = false) : s.porIssue c w op body = .next (s.coreFault c cILLEGAL) := by
  rw [porIssue_fetched body hissue hpc, if_pos (by simp [hlegal])]

/-- Past the issue of a legal word of the row. -/
theorem porIssue_legal (hissue : s.porCanIssue c = true) (hpc : ∀ n, c = .porter n → (s.core c).pc.toNat < 65536)
    (hlegal : coreLegal c w = true) (hrow : pwRow w = op) :
    s.porIssue c w op body =
      if porterBadWindow w then .next (s.coreFault c cTALLY_WINDOW)
      else if porterFeature w = 1 && !s.flag BRG.ENABLED BRG.ENABLED_MX then .next (s.coreFault c cUNLICENSED)
      else if porterFeature w = 2 && !s.flag BRG.ENABLED BRG.ENABLED_TALLY then .next (s.coreFault c cUNLICENSED)
      else if s.porPending c w then .next s
      else body s := by
  rw [porIssue_fetched body hissue hpc, if_neg (by simp [hlegal]), if_neg (fun other => other hrow)]

end

/-! ### Packets that enter the mesh (R99, R233) -/

/-- The flits of a packet: its contents are in the last. -/
theorem packetFlits_succ (f : Flit) (body : MeshBody) (n : Nat) :
    packetFlits f body (n + 1) = List.replicate n f ++ [{ f with last := true, body := some body }] := by
  induction n with
  | zero => rfl
  | succ n ih => rw [packetFlits, ih]; rfl

/-- The flits of a packet that a source sends now, but for the last one. -/
def meshFlit (s : State) (src : MeshEnd) (dst : MeshDst) : Flit :=
  { src := src, dst := dst, pkt := s.mesh.nextPkt, last := false,
    outs := meshOuts dst src.router (if src.att then .attachment else .local), body := none }

theorem meshSend_eq (s : State) (vc : Nat) (src : MeshEnd) (dst : MeshDst) (n : Nat) (body : MeshBody) :
    let key := queueKey src.router (if src.att then 5 else 4) vc
    let f := meshFlit s src dst
    s.meshSend vc src dst (n + 1) body = { s with mesh := { s.mesh with
      queues := tabSet [] s.mesh.queues key (tabGet [] s.mesh.queues key ++ (List.replicate n f ++ [{ f with last := true, body := some body }])),
      nextPkt := s.mesh.nextPkt + 1 } } := by
  have hport : portNum (if src.att then .attachment else .local) = if src.att then 5 else 4 := by split <;> rfl
  unfold State.meshSend State.setQueue State.queue
  dsimp only
  rw [hport, Nat.max_eq_right (Nat.le_add_left 1 n), packetFlits_succ]
  rfl

/-- A packet of at least one flit enters the mesh as the statements say. -/
theorem sends_meshSend (s : State) (vc : Nat) (src : MeshEnd) (dst : MeshDst) (n : Nat) (body : MeshBody) :
    Sends vc src dst (n + 1) body s (s.meshSend vc src dst (n + 1) body) := by
  rw [meshSend_eq]
  refine ⟨List.replicate n (meshFlit s src dst), { meshFlit s src dst with last := true, body := some body }, by simp, fun f hf => ?_, rfl, rfl,
    rfl, rfl, rfl, rfl, fun k => ?_⟩
  · rw [List.eq_of_mem_replicate hf]
    exact ⟨rfl, rfl, rfl, rfl, rfl⟩
  · rw [tabGet_set]
    by_cases hk : k = queueKey src.router (if src.att then 5 else 4) vc
    · rw [if_pos hk, if_pos hk, hk, List.append_assoc]
    · rw [if_neg hk, if_neg hk]

/-- What enters the mesh depends on the mesh as it was alone. -/
theorem sends_of_mesh_eq {vc n : Nat} {src : MeshEnd} {dst : MeshDst} {body : MeshBody} {s u t : State} (h : Sends vc src dst n body u t)
    (hmesh : u.mesh = s.mesh) : Sends vc src dst n body s t := by
  unfold Sends at h ⊢
  rwa [hmesh] at h

@[simp] theorem porter_meshSend (s : State) (vc : Nat) (src : MeshEnd) (dst : MeshDst) (n : Nat) (body : MeshBody) (m : Nat) :
    (s.meshSend vc src dst n body).porter m = s.porter m := rfl
@[simp] theorem group_meshSend (s : State) (vc : Nat) (src : MeshEnd) (dst : MeshDst) (n : Nat) (body : MeshBody) (h g : Nat) :
    (s.meshSend vc src dst n body).group h g = s.group h g := rfl
@[simp] theorem mem_meshSend (s : State) (vc : Nat) (src : MeshEnd) (dst : MeshDst) (n : Nat) (body : MeshBody) :
    (s.meshSend vc src dst n body).mem = s.mem := rfl

theorem porter_congr {s t : State} (h : t.porters = s.porters) (m : Nat) : t.porter m = s.porter m := by unfold State.porter; rw [h]

/-! ### A porter's fault (R236, R240) -/

/-- The kill log of a porter is a register. -/
theorem onlyRegs_porLog (s : State) (n : Nat) (l : BitVec 16) (cause pc : Nat) : OnlyRegs s (s.porLog n l cause pc) := by
  unfold State.porLog
  dsimp only
  split
  · exact (onlyRegs_refl s).setFlag _ _ _
  · exact ((((onlyRegs_refl s).setFld _ _ _).setFld _ _ _).setFld _ _ _).setFlag _ _ _

theorem reg_porLog_other (s : State) {n r : Nat} (l : BitVec 16) (cause pc : Nat) (hr : r ≠ POR.KILL_LOG n) :
    (s.porLog n l cause pc).reg r = s.reg r := by
  unfold State.porLog State.setFlag
  dsimp only
  split
  · exact reg_setFld_other _ _ _ hr
  · simp only [reg_setFld_other _ _ _ hr]

/-- The fields of a porter's kill log after its first fault (R240). -/
theorem porLog_first {s : State} {n : Nat} (hvalid : s.flag (POR.KILL_LOG n) POR.KILL_LOG_VALID = false) (l : BitVec 16) {cause : Nat}
    (pc : Nat) (hcause : cause < 256) :
    let t := s.porLog n l cause pc
    t.fld (POR.KILL_LOG n) POR.KILL_LOG_LAUNCH = l.toNat ∧ t.fld (POR.KILL_LOG n) POR.KILL_LOG_CAUSE = cause ∧
      t.fld (POR.KILL_LOG n) POR.KILL_LOG_PC = pc % 65536 ∧ t.flag (POR.KILL_LOG n) POR.KILL_LOG_VALID = true := by
  simp only [State.porLog, hvalid, Bool.false_eq_true, if_false]
  simp (disch := decide) only [State.setFlag, State.flag, fld_setFld_apart, fld_setFld]
  exact ⟨Nat.mod_eq_of_lt l.isLt, Nat.mod_eq_of_lt hcause, rfl, rfl⟩

theorem porKillLog_ne_irqStatus {n : Nat} (hn : n < 4096) : POR.KILL_LOG n ≠ GB.IRQ_STATUS := by
  unfold GB.IRQ_STATUS POR.KILL_LOG
  omega

theorem porKillLog_ne_launchStatus (n k : Nat) : POR.KILL_LOG n ≠ LNCH.STATUS k := by
  unfold LNCH.STATUS POR.KILL_LOG
  omega

/-- The state of a porter's fault before its context is killed: the porter stopped and the kill log written. -/
def porterLogged (s : State) (n cause : Nat) : State :=
  (s.setPorter n { s.porter n with stopped := true }).porLog n (s.porter n).msg.launch cause (s.porter n).core.pc.toNat

theorem porterLogged_reg_other (s : State) {n r : Nat} (cause : Nat) (hr : r ≠ POR.KILL_LOG n) :
    (porterLogged s n cause).reg r = s.reg r := reg_porLog_other _ _ _ _ hr

theorem porterLogged_frame (s : State) (n cause : Nat) :
    porterLogged s n cause = { s.setPorter n { s.porter n with stopped := true } with regs := (porterLogged s n cause).regs } :=
  onlyRegs_porLog _ _ _ _ _

/-- A porter other than the one that faults is as it was when the context's kill starts; that one is stopped. -/
theorem porterLogged_porter (s : State) (n cause m : Nat) :
    (porterLogged s n cause).porter m = if m = n then { s.porter n with stopped := true } else s.porter m := by
  rw [porterLogged_frame]
  exact tabGet_set _ _ _ _ _

theorem porterLogged_group (s : State) (n cause h g : Nat) : (porterLogged s n cause).group h g = s.group h g := by
  rw [porterLogged_frame]
  rfl

theorem porterLogged_slotOf {s : State} {n k : Nat} {l : BitVec 16} (hslot : s.slotOf l = some k) (cause : Nat) :
    (porterLogged s n cause).slotOf l = some k := by
  rw [slotOf_congr (s := s) fun j _ => porterLogged_reg_other s cause (porKillLog_ne_launchStatus n j).symm, hslot]

theorem porterLogged_first {s : State} {n k : Nat} (hfirst : (s.launch k).killing = false) (cause : Nat) :
    ((porterLogged s n cause).launch k).killing = false := by
  rw [porterLogged_frame]
  exact hfirst

/-- A porter's fault: the log, the kill of its context, and KILLED to the dispatcher. -/
theorem porFaultAt_eq (s : State) (n cause bus detail : Nat) : s.porFaultAt n cause bus detail =
    ((porterLogged s n cause).startKill (s.porter n).msg.launch cause (srcOf 3 n) detail bus 0 0).meshSend 3 (coreEnd n) (.one stewardEnd) 1
      (.killed n (s.porter n).msg.launch) := rfl

/-- Settles O18: every row of the porter set is the check at issue and then its body, and the check's branches are read off; a fault is the
kill log's fields, then the first kill of the context, then the packet to the dispatcher. -/
theorem porterIssueStops : Obligations.PorterIssueStops := by
  refine ⟨fun i x s hx => ?_, fun s n cause bus detail k hcause => ?_⟩
  · obtain ⟨body, hexec, -⟩ := exec_porter_checked hx s
    refine ⟨fun hissue => hexec.trans (porIssue_idle body hissue), fun hissue => ⟨fun hpc => hexec.trans (porIssue_segment body hissue hpc),
      fun hpc hlegal => hexec.trans (porIssue_illegal body hissue hpc hlegal), fun hpc hlegal hrow => ?_⟩⟩
    classical
    rw [hexec, porIssue_legal body hissue hpc hlegal hrow, licence_checks]
    exact ⟨fun hbad => if_pos hbad, fun hbad hlic => by simp [hbad, hlic], fun hbad hlic hwait => by simp [hbad, hlic, hwait]⟩
  · intro p l hslot hfirst hvalid
    have hslot' := porterLogged_slotOf (n := n.toNat) hslot cause
    have hfirst' := porterLogged_first (n := n.toNat) hfirst cause
    have hreg := startKill_reg_other hslot' hfirst' cause (srcOf 3 n.toNat) detail bus 0 0 (porKillLog_ne_irqStatus n.isLt)
      (porKillLog_ne_launchStatus n.toNat k)
    obtain ⟨hl, hca, hpc, hv⟩ := porLog_first (s := s.setPorter n.toNat { p with stopped := true }) hvalid l p.core.pc.toNat hcause
    obtain ⟨e, hwaiting, hkind, hecause, helaunch, hstamp, hsource, hdetail⟩ :=
      startKill_waiting hslot' hfirst' cause (srcOf 3 n.toNat) detail bus 0 0
    have hporters := startKill_porters hslot' hfirst' cause (srcOf 3 n.toNat) detail bus 0 0
    have hmesh := startKill_mesh hslot' hfirst' cause (srcOf 3 n.toNat) detail bus 0 0
    dsimp only
    rw [porFaultAt_eq]
    refine ⟨(fld_congr hreg _).trans hl, (fld_congr hreg _).trans hca, (fld_congr hreg _).trans hpc, (flag_congr hreg _).trans hv, ?_, ?_,
      startKill_cause hslot' hfirst' _ _ _ _ _ _ hcause, startKill_killing hslot' hfirst' _ _ _ _ _ _, fun h g hused hlaunch => ?_,
      ⟨e, hwaiting.trans ?_, hkind, hecause, helaunch, hstamp.trans ?_, hsource, hdetail⟩, ?_, ?_⟩
    · rw [porter_meshSend, porter_congr hporters, porterLogged_porter, if_pos rfl]
    · intro m hm
      rw [porter_meshSend, porter_congr hporters, porterLogged_porter, if_neg hm]
    · rw [group_meshSend, startKill_group hslot' hfirst', porterLogged_group, hused, hlaunch]
      simp
    · rw [porterLogged_frame]
      rfl
    · exact congrArg BitVec.toNat (porterLogged_reg_other s cause (by unfold ETC.VALUE POR.KILL_LOG; omega))
    · refine sends_of_mesh_eq (sends_meshSend _ 3 (coreEnd n.toNat) (.one stewardEnd) 0 _) (hmesh.trans ?_)
      rw [porterLogged_frame]
      rfl
    · rw [mem_meshSend, startKill_mem hslot' hfirst', porterLogged_frame]
      rfl

end Sys2Proof.Machine

namespace Sys2Proof.Machine

open Sys2Proof Sys2Proof.Safety

/-! ### What leaves the enabled set as it is (R468)

The enabled set is one register, and nothing that follows its choice in the loading of run-time firmware writes that register. -/

/-- The enabled set of `t` is that of `s`. -/
def KeepsEnabled (s t : State) : Prop := t.reg BRG.ENABLED = s.reg BRG.ENABLED

theorem keepsEnabled_refl (s : State) : KeepsEnabled s s := rfl

theorem KeepsEnabled.trans {s t u : State} (h : KeepsEnabled s t) (h' : KeepsEnabled t u) : KeepsEnabled s u := Eq.trans h' h

theorem keepsEnabled_of_regs {s t : State} (h : t.regs = s.regs) : KeepsEnabled s t := by
  unfold KeepsEnabled State.reg; rw [h]

theorem keepsEnabled_ite {s t u : State} {c : Prop} [Decidable c] (ht : KeepsEnabled s t) (hu : KeepsEnabled s u) :
    KeepsEnabled s (if c then t else u) := by
  split
  · exact ht
  · exact hu

theorem keepsEnabled_foldl {α : Type} {f : State → α → State} (l : List α) (hf : ∀ t, ∀ a ∈ l, KeepsEnabled t (f t a)) (s : State) :
    KeepsEnabled s (l.foldl f s) := by
  induction l generalizing s with
  | nil => exact keepsEnabled_refl s
  | cons a l ih =>
    exact (hf s a List.mem_cons_self).trans (ih (fun t b hb => hf t b (List.mem_cons_of_mem a hb)) (f s a))

section
variable {s t : State} {r : Nat} (h : KeepsEnabled s t)
include h

theorem KeepsEnabled.setReg (hr : r ≠ BRG.ENABLED) (v : W64) : KeepsEnabled s (t.setReg r v) := (reg_setReg_other t v hr.symm).trans h

theorem KeepsEnabled.setFld (hr : r ≠ BRG.ENABLED) (f : Fld) (v : Nat) : KeepsEnabled s (t.setFld r f v) := h.setReg hr _

theorem KeepsEnabled.setFlag (hr : r ≠ BRG.ENABLED) (f : Fld) (b : Bool) : KeepsEnabled s (t.setFlag r f b) := h.setReg hr _

theorem KeepsEnabled.satFld (hr : r ≠ BRG.ENABLED) (f : Fld) (k : Nat) : KeepsEnabled s (t.satFld r f k) := h.setFld hr _ _

theorem KeepsEnabled.regs {u : State} (hu : u.regs = t.regs) : KeepsEnabled s u := h.trans (keepsEnabled_of_regs hu)

theorem KeepsEnabled.raise (k : Nat) : KeepsEnabled s (t.raise k) := (reg_raise_other t k (by decide)).trans h

end

/-! ### The guestbook and health (R484, R491) -/

/-- An event is logged in the guestbook and writes no register. -/
@[simp] theorem event_regs (s : State) (kind cause source : Nat) (launch : BitVec 16) (detail : Nat) (payload : List Byte) :
    (s.event kind cause source launch detail payload).regs = s.regs := by
  unfold State.event State.gbMerge
  dsimp only
  repeat' split
  all_goals rfl

@[simp] theorem busError_regs (s : State) (cause source : Nat) (launch : BitVec 16) (addr : Nat) :
    (s.busError cause source launch addr).regs = s.regs := event_regs ..

theorem keepsEnabled_healthChanged (s : State) : KeepsEnabled s s.healthChanged := by
  unfold State.healthChanged
  have raised : KeepsEnabled s (((s.setFld GLB.STATUS GLB.STATUS_HEALTH (s.fld GB.HEALTH GB.HEALTH_STATE)).event kHEALTH 0 (srcOf 0 0) 0
      ((s.setFld GLB.STATUS GLB.STATUS_HEALTH (s.fld GB.HEALTH GB.HEALTH_STATE)).reg GB.HEALTH).toNat []).raise iHEALTH) :=
    (((keepsEnabled_refl s).setFld (by decide) _ _).regs (event_regs ..)).raise _
  refine keepsEnabled_ite (raised.trans (keepsEnabled_foldl _ (fun t x _ => ?_) _)) raised
  exact keepsEnabled_ite (keepsEnabled_of_regs rfl) (keepsEnabled_refl t)

theorem keepsEnabled_degrade (s : State) (bit : Nat) : KeepsEnabled s (s.degrade bit) := by
  have marked := (keepsEnabled_refl s).setReg (r := GB.HEALTH) (by decide) (s.reg GB.HEALTH ||| BitVec.ofNat 64 (2 ^ bit))
  exact keepsEnabled_ite ((marked.setFld (by decide) _ _).trans (keepsEnabled_healthChanged _)) marked

theorem keepsEnabled_countUe (s : State) (n : Nat) : KeepsEnabled s (s.countUe n) := by
  unfold State.countUe
  refine keepsEnabled_ite (KeepsEnabled.trans ?_ (keepsEnabled_degrade _ 10)) ?_
  all_goals exact keepsEnabled_of_regs rfl

/-! ### Writes of the buffer (R46, R47, R50-R53) -/

theorem keepsEnabled_sliceLog (s : State) (sl q word cause : Nat) : KeepsEnabled s (s.sliceLog sl q word cause) := by
  have other : SLICE.ERR_LOG sl ≠ BRG.ENABLED := by unfold SLICE.ERR_LOG BRG.ENABLED; omega
  have same := keepsEnabled_refl s
  exact keepsEnabled_ite (same.setFlag other _ _) ((((same.setFld other _ _).setFld other _ _).setFld other _ _).setFlag other _ _)

theorem keepsEnabled_sliceFault (s : State) (a cause local4 : Nat) : KeepsEnabled s (s.sliceFault a cause local4) :=
  (keepsEnabled_sliceLog s _ _ _ _).regs (busError_regs ..)

theorem keepsEnabled_poisonTile (s : State) (t : Nat) : KeepsEnabled s (s.poisonTile t) := by
  have other (sl : Nat) : SLICE.POISON_COUNT sl ≠ BRG.ENABLED := by unfold SLICE.POISON_COUNT BRG.ENABLED; omega
  have poisoned (v : Tile) : KeepsEnabled s (s.setTile t v) := rfl
  exact keepsEnabled_ite (keepsEnabled_refl s) ((poisoned _).satFld (other _) _ _)

theorem keepsEnabled_sliceUe (s : State) (wd : Nat) (alone : Bool) : KeepsEnabled s (s.sliceUe wd alone) := by
  have other (sl : Nat) : SLICE.ECC_UE_COUNT sl ≠ BRG.ENABLED := by unfold SLICE.ECC_UE_COUNT BRG.ENABLED; omega
  have found := ((((keepsEnabled_refl s).satFld (other (sliceOf (wd / 512)).1) SLICE.ECC_UE_COUNT_VALUE 1).trans
    (keepsEnabled_poisonTile _ (wd / 512))).trans (keepsEnabled_sliceFault _ (8 * wd) cUNCORRECTABLE 2)).trans (keepsEnabled_countUe _ 1)
  exact keepsEnabled_ite (found.raise _) found

theorem keepsEnabled_sliceCe (s : State) (wd : Nat) (queue : Bool) : KeepsEnabled s (s.sliceCe wd queue) := by
  have other (sl : Nat) : SLICE.ECC_CE_COUNT sl ≠ BRG.ENABLED := by unfold SLICE.ECC_CE_COUNT BRG.ENABLED; omega
  have logged := (((keepsEnabled_refl s).satFld (other (sliceOf (wd / 512)).1) SLICE.ECC_CE_COUNT_VALUE 1).trans
    (keepsEnabled_sliceLog _ (sliceOf (wd / 512)).1 (sliceOf (wd / 512)).2 (wd % 512) 1)).regs
    (event_regs _ kCORRECTED 0 (srcOf 1 (sliceOf (wd / 512)).1) 0 (8 * wd) [])
  exact keepsEnabled_ite (logged.regs rfl) logged

theorem keepsEnabled_sliceFound (s : State) (queue alone : Bool) (wds : List Nat) : KeepsEnabled s (s.sliceFound queue alone wds) :=
  keepsEnabled_foldl _ (fun t wd _ => keepsEnabled_ite (keepsEnabled_sliceUe t wd alone)
    (keepsEnabled_ite (keepsEnabled_sliceCe t wd queue) (keepsEnabled_refl t))) s

theorem keepsEnabled_openSectors (s : State) (a n : Nat) : KeepsEnabled s (s.openSectors a n) :=
  keepsEnabled_foldl _ (fun t k _ => by
    dsimp only
    exact keepsEnabled_ite (keepsEnabled_refl t) (keepsEnabled_of_regs rfl)) s

theorem keepsEnabled_rewritten (s : State) (sl : Nat) (wds : List Nat) : KeepsEnabled s (s.rewritten sl wds) := keepsEnabled_of_regs rfl

theorem keepsEnabled_bufPutWord (s : State) (sl wd o : Nat) (data : List Byte) (en : List Bool) (completion : Bool) :
    KeepsEnabled s (s.bufPutWord sl wd o data en completion) := by
  unfold State.bufPutWord
  split
  · exact keepsEnabled_of_regs rfl
  · exact keepsEnabled_ite (keepsEnabled_of_regs rfl) (keepsEnabled_of_regs rfl)

theorem keepsEnabled_bufWrite (s : State) (a : Nat) (data : List Byte) (en : List Bool) (completion : Bool) :
    KeepsEnabled s (s.bufWrite a data en completion).1 := by
  unfold State.bufWrite
  dsimp only
  split
  · exact keepsEnabled_of_regs (busError_regs ..)
  · split
    · exact keepsEnabled_sliceFault s a cRMW_FULL 6
    · refine (((keepsEnabled_sliceFound s false true _).trans (keepsEnabled_rewritten _ _ _)).trans (keepsEnabled_foldl _ ?_ _)).trans
        (keepsEnabled_foldl _ ?_ _)
      · exact fun t w _ => keepsEnabled_openSectors t (8 * w.1) 8
      · exact fun t w _ => keepsEnabled_bufPutWord t _ w.1 w.2 data en completion

/-- Bytes written to the buffer tile by tile. -/
theorem keepsEnabled_writeTiles (k : Nat) (s : State) (dpa : Nat) (data : List Byte) (below : dpa + data.length ≤ 0x30000000) :
    KeepsEnabled s (s.writeTiles k dpa data).1 := by
  induction k generalizing s dpa data with
  | zero => exact keepsEnabled_refl s
  | succ k ih =>
    unfold State.writeTiles
    split
    · exact keepsEnabled_refl s
    case isFalse nonempty =>
      have hlength : 0 < data.length := List.length_pos_iff.2 (by simpa using nonempty)
      have buffer : targetOf dpa = .buffer := if_pos (by omega)
      have one (l : List Byte) : KeepsEnabled s (s.writeOne dpa l).1 := by
        unfold State.writeOne
        rw [buffer]
        exact keepsEnabled_bufWrite ..
      dsimp only
      split
      · exact one _
      · exact (one _).trans (ih _ _ _ (by rw [List.length_drop]; omega))

/-! ### The units of the floor plan, held or released (R468) -/

theorem memCtrl_ne_enabled (i : Nat) : MEM.CTRL i ≠ BRG.ENABLED := by unfold MEM.CTRL BRG.ENABLED; split <;> omega

theorem memStatus_ne_enabled (i : Nat) : MEM.STATUS i ≠ BRG.ENABLED := by unfold MEM.STATUS BRG.ENABLED; split <;> omega

theorem oxCtrl_ne_enabled (x : Nat) : OX.CTRL x ≠ BRG.ENABLED := by unfold OX.CTRL BRG.ENABLED; omega

theorem oxStatus_ne_enabled (x : Nat) : OX.STATUS x ≠ BRG.ENABLED := by unfold OX.STATUS BRG.ENABLED; omega

theorem oxTrain_ne_enabled (x : Nat) : OX.TRAIN x ≠ BRG.ENABLED := by unfold OX.TRAIN BRG.ENABLED; omega

theorem hosCtrl_ne_enabled (h : Nat) : HOS.CTRL h ≠ BRG.ENABLED := by unfold HOS.CTRL BRG.ENABLED; omega

theorem hosStatus_ne_enabled (h : Nat) : HOS.STATUS h ≠ BRG.ENABLED := by unfold HOS.STATUS BRG.ENABLED; omega

theorem rail_ne_enabled {r : Nat} (hr : r < 26) : PT.RAIL r ≠ BRG.ENABLED := by unfold PT.RAIL BRG.ENABLED; omega

theorem keepsEnabled_holdSite (s : State) (i : Nat) (b : Bool) : KeepsEnabled s (s.holdSite i b) :=
  (((keepsEnabled_refl s).setFlag (memCtrl_ne_enabled i) _ _).setFlag (memStatus_ne_enabled i) _ _).regs rfl

theorem keepsEnabled_holdOx (s : State) (x : Nat) (b : Bool) : KeepsEnabled s (s.holdOx x b) :=
  (((keepsEnabled_refl s).setFlag (oxCtrl_ne_enabled x) _ _).setFlag (oxStatus_ne_enabled x) _ _).setFlag (oxStatus_ne_enabled x) _ _

theorem keepsEnabled_holdHostel (s : State) (h : Nat) (b : Bool) : KeepsEnabled s (s.holdHostel h b) :=
  (((keepsEnabled_refl s).setFlag (hosCtrl_ne_enabled h) _ _).setFlag (hosStatus_ne_enabled h) _ _).setFlag (hosStatus_ne_enabled h) _ _

theorem keepsEnabled_holdUnits (s old : State) (first : Bool) : KeepsEnabled s (s.holdUnits old first) := by
  unfold State.holdUnits
  refine ((keepsEnabled_foldl _ (fun t i _ => ?_) _).trans (keepsEnabled_foldl _ (fun t x _ => ?_) _)).trans
    (keepsEnabled_foldl _ (fun t h _ => ?_) _)
  · exact keepsEnabled_ite (keepsEnabled_holdSite t i _) (keepsEnabled_refl t)
  · exact keepsEnabled_ite (keepsEnabled_holdOx t x _) (keepsEnabled_refl t)
  · exact keepsEnabled_ite (keepsEnabled_holdHostel t h _) (keepsEnabled_refl t)

theorem keepsEnabled_vserOff (s : State) (x : Nat) : KeepsEnabled s (s.vserOff x) := by
  have entered := ((keepsEnabled_refl s).setFld (oxTrain_ne_enabled x) OX.TRAIN_STATE 0).setFlag (oxStatus_ne_enabled x) OX.STATUS_UP false
  exact keepsEnabled_ite (entered.setFlag (oxCtrl_ne_enabled x) _ _) entered

theorem keepsEnabled_railOff (s : State) {r : Nat} (hr : r < 26) : KeepsEnabled s (s.railOff r) := by
  have power : KeepsEnabled s (s.updPower fun p => { p with
      enabled := putBits p.enabled r r 0, limitSince := if 18 ≤ r && r < 22 then tabErase p.limitSince (r - 18) else p.limitSince }) := rfl
  exact power.setReg (rail_ne_enabled hr) 0

theorem keepsEnabled_unlicensedOff (s : State) : KeepsEnabled s s.unlicensedOff := by
  unfold State.unlicensedOff
  refine (keepsEnabled_foldl _ (fun t x _ => ?_) _).trans (keepsEnabled_foldl _ (fun t h hh => ?_) _)
  · exact keepsEnabled_ite (keepsEnabled_vserOff t x) (keepsEnabled_refl t)
  · have hostel : h < 8 := List.mem_range.1 hh
    exact keepsEnabled_ite ((keepsEnabled_railOff t (by omega)).setFlag (hosStatus_ne_enabled h) _ _) (keepsEnabled_refl t)

/-! ### The end of a submission and the stages (R464, R468) -/

theorem keepsEnabled_newNonce (s : State) : KeepsEnabled s s.newNonce := by
  have other (k : Nat) : SBX.NONCE k ≠ BRG.ENABLED := by unfold SBX.NONCE BRG.ENABLED; omega
  refine KeepsEnabled.trans (t := s.takeFree.2) rfl ?_
  exact keepsEnabled_foldl _ (fun t k _ => (keepsEnabled_refl t).setReg (other k) _) _

theorem keepsEnabled_updSbx (s : State) (f : Strongbox → Strongbox) : KeepsEnabled s (s.updSbx f) := keepsEnabled_of_regs rfl

theorem keepsEnabled_submitEnd (s : State) (result : Nat) : KeepsEnabled s (s.submitEnd result) := by
  have flags : KeepsEnabled s (((s.setFld SBX.STATUS SBX.STATUS_RESULT result).setFlag SBX.STATUS SBX.STATUS_BUSY false).setFlag
      SBX.CTRL SBX.CTRL_SUBMIT false) :=
    (((keepsEnabled_refl s).setFld (by decide) _ _).setFlag (by decide) _ _).setFlag (by decide) _ _
  have ended := flags.trans (keepsEnabled_updSbx _ fun b => { b with copy := [], copyBad := false })
  unfold State.submitEnd
  refine KeepsEnabled.raise (KeepsEnabled.regs ?_ (event_regs ..)) _
  exact keepsEnabled_ite (ended.trans (keepsEnabled_newNonce _)) ended

theorem keepsEnabled_setStage (s : State) (n : Nat) : KeepsEnabled s (s.setStage n) :=
  (((keepsEnabled_refl s).setFld (by decide) _ _).setFlag (by decide) _ _).setFlag (by decide) _ _

theorem keepsEnabled_bootEntry (s : State) : KeepsEnabled s s.bootEntry := keepsEnabled_of_regs (event_regs ..)

/-! ### Run-time firmware (R467, R468) -/

theorem boxFormat_of_boxVerdict {s : State} {ec lms : Bool} {l : List Byte} (h : s.boxVerdict ec lms l = 0) : boxFormat l = true := by
  cases form : boxFormat l with
  | true => rfl
  | false =>
    have refused : s.boxVerdict ec lms l = zFORMAT := if_pos (by rw [form]; rfl)
    exact absurd (refused.symm.trans h) (by decide)

/-- What is submitted and passes every check as a container has the form of one. -/
theorem boxFormat_of_passes {s : State} {t : Nat} {ec lms : Bool} (h : s.passes t ec lms = true) :
    boxType s.sbx.copy = t ∧ boxFormat s.sbx.copy = true := by
  simp only [State.passes, Bool.and_eq_true, Bool.not_eq_true', beq_iff_eq] at h
  obtain ⟨⟨⟨-, box⟩, type⟩, verdict⟩ := h
  refine ⟨type, boxFormat_of_boxVerdict (s := s) (ec := ec) (lms := lms) ?_⟩
  unfold State.verdict at verdict
  dsimp only at verdict
  split at verdict
  · exact absurd verdict (by decide)
  · split at verdict
    · exact absurd verdict (by decide)
    · rwa [box] at verdict

/-- The run-time firmware of a container fits below the end of the steward reserve. -/
theorem length_boxPayload_le {l : List Byte} (type : boxType l = 1) (form : boxFormat l = true) : (boxPayload l).length ≤ 0x100000 := by
  have bound : boxLen l ≤ 0x100000 := by
    simp only [boxFormat, type, Bool.and_eq_true] at form
    simpa using form.1.1.1.1.1.2
  exact Nat.le_trans (List.length_take_le ..) bound

/-- After run-time firmware the enabled set is the one that the licence in force fixed first. -/
theorem exec_runtimeFirmware {s : State} {ec lms : Bool} (h : s.passes 1 ec lms = true) :
    Runs (.runtimeFirmware ec lms) s (KeepsEnabled (s.setEnabled (s.sbx.licence.getD {}))) := by
  obtain ⟨type, form⟩ := boxFormat_of_passes h
  have fits := length_boxPayload_le type form
  have loaded (t : State) (data : List Byte) (hdata : data.length ≤ 0x100000) (f : Strongbox → Strongbox) :
      KeepsEnabled t (((((t.holdUnits s false).unlicensedOff.writeNow stewardReserve data).1.updSbx f).submitEnd 0).setStage 2).bootEntry := by
    have written := ((keepsEnabled_holdUnits t s false).trans (keepsEnabled_unlicensedOff _)).trans
      (keepsEnabled_writeTiles (data.length / 4096 + 2) _ stewardReserve data (by unfold stewardReserve; omega))
    have recorded := written.trans (keepsEnabled_updSbx _ f)
    exact ((recorded.trans (keepsEnabled_submitEnd _ 0)).trans (keepsEnabled_setStage _ 2)).trans (keepsEnabled_bootEntry _)
  unfold Runs
  dsimp only [exec, execRuntimeFirmware]
  rw [if_neg (by simp [h])]
  exact ⟨_, rfl, loaded _ _ fits _⟩

/-! ### The half shares (R6) -/

/-- A power of two above all bits of a number adds one bit. -/
theorem testBit_add_twoPow {m a : Nat} (hm : m < 2 ^ a) (i : Nat) : (m + 2 ^ a).testBit i = true ↔ m.testBit i = true ∨ i = a := by
  have product : m + 2 ^ a = 2 ^ a * 1 + m := by omega
  rw [product, Nat.testBit_two_pow_mul_add 1 hm]
  by_cases below : i < a
  · have other : i ≠ a := Nat.ne_of_lt below
    simp only [if_pos below, other, or_false]
  · have clear : m.testBit i = false := Nat.testBit_lt_two_pow (Nat.lt_of_lt_of_le hm (Nat.pow_le_pow_right (by decide) (Nat.le_of_not_lt below)))
    have place : i - a = 0 ↔ i = a := by omega
    simp only [if_neg below, clear, Bool.false_eq_true, false_or, Nat.testBit_one_eq_true_iff_self_eq_zero, place]

/-- A sum of ascending powers of two, above the bits of a number, adds those bits to it. -/
theorem testBit_foldlTwoPow {l : List Nat} (hl : l.Pairwise (· < ·)) (m i : Nat) (hm : ∀ a ∈ l, m < 2 ^ a) :
    (l.foldl (fun m i => m + 2 ^ i) m).testBit i = true ↔ m.testBit i = true ∨ i ∈ l := by
  induction l generalizing m with
  | nil => simp only [List.foldl_nil, List.not_mem_nil, or_false]
  | cons a l ih =>
    obtain ⟨least, ascending⟩ := List.pairwise_cons.1 hl
    have first := hm a List.mem_cons_self
    have above (b : Nat) (hb : b ∈ l) : m + 2 ^ a < 2 ^ b := by
      have next : 2 ^ (a + 1) ≤ 2 ^ b := Nat.pow_le_pow_right (by decide) (least b hb)
      rw [Nat.pow_succ] at next
      omega
    rw [List.foldl_cons, ih ascending (m + 2 ^ a) above, testBit_add_twoPow first, List.mem_cons, or_assoc]

/-- A sum of ascending powers of two has the bits that it is a sum of. -/
theorem testBit_sumTwoPow {l : List Nat} (hl : l.Pairwise (· < ·)) (i : Nat) :
    (l.foldl (fun m i => m + 2 ^ i) 0).testBit i = true ↔ i ∈ l := by
  rw [testBit_foldlTwoPow hl 0 i fun a _ => Nat.two_pow_pos a]
  simp only [Nat.zero_testBit, Bool.false_eq_true, false_or]

/-- What the first `k` that meet `p` contain: those that meet `p` and have fewer than `k` such before them. -/
theorem mem_take_filter_range (p : Nat → Bool) (n k i : Nat) (hi : i < n) :
    i ∈ ((List.range n).filter p).take k ↔ p i = true ∧ ((List.range i).filter p).length < k := by
  obtain ⟨m, rfl⟩ : ∃ m, n = i + (m + 1) := ⟨n - i - 1, by omega⟩
  have split : List.range (i + (m + 1)) = List.range i ++ i :: (List.range m).map (i + 1 + ·) := by
    rw [List.range_add, List.range_succ_eq_map]
    simp [Function.comp_def, Nat.add_assoc, Nat.add_comm 1]
  have before : i ∉ (List.range i).filter p := by simp
  have before_take : i ∉ ((List.range i).filter p).take k := fun h => before (List.mem_of_mem_take h)
  rw [split, List.filter_append, List.take_append, List.mem_append]
  by_cases hp : p i = true
  · rw [List.filter_cons_of_pos hp]
    by_cases hk : ((List.range i).filter p).length < k
    · obtain ⟨j, hj⟩ : ∃ j, k - ((List.range i).filter p).length = j + 1 := ⟨k - ((List.range i).filter p).length - 1, by omega⟩
      simp [hj, hp, hk]
    · simp [Nat.sub_eq_zero_of_le (Nat.le_of_not_lt hk), hk, before_take]
  · rw [List.filter_cons_of_neg hp]
    have after (j : Nat) : i ∉ (((List.range m).map (i + 1 + ·)).filter p).take j := fun h => by
      obtain ⟨a, -, ha⟩ := List.mem_map.1 (List.mem_filter.1 (List.mem_of_mem_take h)).1
      omega
    simp [before_take, after, hp]

/-- The first `k` present units of the half of `n` units from `lo`. -/
def firstPresent (present : Nat → Bool) (n k lo : Nat) : List Nat := (((List.range n).map (lo + ·)).filter present).take k

theorem firstPresent_eq (present : Nat → Bool) (n k lo : Nat) :
    firstPresent present n k lo = (((List.range n).filter fun j => present (lo + j)).take k).map (lo + ·) := by
  unfold firstPresent
  rw [List.filter_map, List.map_take]
  rfl

theorem mem_firstPresent {present : Nat → Bool} {n k lo i : Nat} (hi : i < n) :
    lo + i ∈ firstPresent present n k lo ↔ present (lo + i) = true ∧ ((List.range i).filter fun j => present (lo + j)).length < k := by
  rw [firstPresent_eq, ← mem_take_filter_range (fun j => present (lo + j)) n k i hi]
  simp only [List.mem_map, Nat.add_left_cancel_iff, exists_eq_right]

theorem firstPresent_bounds {present : Nat → Bool} {n k lo a : Nat} (h : a ∈ firstPresent present n k lo) : lo ≤ a ∧ a < lo + n := by
  obtain ⟨j, hj, rfl⟩ := List.mem_map.1 (List.mem_filter.1 (List.mem_of_mem_take h)).1
  have := List.mem_range.1 hj
  omega

theorem firstPresent_pairwise (present : Nat → Bool) (n k lo : Nat) : (firstPresent present n k lo).Pairwise (· < ·) := by
  refine List.Pairwise.take (List.Pairwise.filter _ (List.Pairwise.map _ (fun a b h => ?_) List.pairwise_lt_range))
  exact Nat.add_lt_add_left h lo

/-- The bits of a half share, in each of the two halves. -/
theorem testBit_halfShare (present : Nat → Bool) {n k e i : Nat} (he : e < 2) (hi : i < n) :
    (halfShare present n k).testBit (n * e + i) = true ↔
      present (n * e + i) = true ∧ ((List.range i).filter fun j => present (n * e + j)).length < k := by
  have sorted : (firstPresent present n k 0 ++ firstPresent present n k n).Pairwise (· < ·) := by
    refine List.pairwise_append.2 ⟨firstPresent_pairwise .., firstPresent_pairwise .., fun a ha b hb => ?_⟩
    have below := (firstPresent_bounds ha).2
    have above := (firstPresent_bounds hb).1
    omega
  have own : n * e + i ∈ firstPresent present n k 0 ++ firstPresent present n k n ↔ n * e + i ∈ firstPresent present n k (n * e) := by
    obtain rfl | rfl : e = 0 ∨ e = 1 := by omega
    · have upper : n * 0 + i ∉ firstPresent present n k n := fun h => by have := (firstPresent_bounds h).1; omega
      rw [List.mem_append, or_iff_left upper, Nat.mul_zero]
    · have lower : n * 1 + i ∉ firstPresent present n k 0 := fun h => by have := (firstPresent_bounds h).2; omega
      rw [List.mem_append, or_iff_right lower, Nat.mul_one]
  exact (testBit_sumTwoPow sorted _).trans (own.trans (mem_firstPresent hi))

theorem bitOf_eq_testBit (w i : Nat) : bitOf w i = w.testBit i := by
  unfold bitOf
  rw [Nat.testBit_eq_decide_div_mod_eq]
  rfl

/-- A half share in a field that holds a bit for each unit of both halves. -/
theorem enabledIn_halfShare (present : Nat → Bool) {n k w e v : Nat} (he : e < 2) (hw : 2 * n ≤ w)
    (hv : v = halfShare present n k % 2 ^ w) : EnabledIn present (n * e) n k (bitOf v) := by
  intro i hi
  have width : n * e + i < w := by
    obtain rfl | rfl : e = 0 ∨ e = 1 := by omega
    all_goals omega
  rw [bitOf_eq_testBit, hv, Nat.testBit_mod_two_pow, ← testBit_halfShare present he hi]
  simp [width]

section
variable (s : State) (l : Licence)

theorem setEnabled_hbm : (s.setEnabled l).fld BRG.ENABLED BRG.ENABLED_HBM =
    halfShare (fun i => s.flag (MEM.STATUS i) MEM.STATUS_PRESENT) 8 (l.hbm / 2) % 2 ^ 16 := by
  unfold State.setEnabled
  simp (disch := decide) only [State.setFlag, fld_setFld_apart, fld_setFld]
  rfl

theorem setEnabled_lpddr : (s.setEnabled l).fld BRG.ENABLED BRG.ENABLED_LPDDR =
    halfShare (fun i => s.flag (MEM.STATUS (16 + i)) MEM.STATUS_PRESENT) 8 (l.lpddr / 2) % 2 ^ 16 := by
  unfold State.setEnabled
  simp (disch := decide) only [State.setFlag, fld_setFld_apart, fld_setFld]
  rfl

theorem setEnabled_oxlux : (s.setEnabled l).fld BRG.ENABLED BRG.ENABLED_OXLUX = halfShare (s.planned 9) 8 (l.oxlux / 2) % 2 ^ 16 := by
  unfold State.setEnabled
  simp (disch := decide) only [State.setFlag, fld_setFld_apart, fld_setFld]
  rfl

theorem setEnabled_hostels : (s.setEnabled l).fld BRG.ENABLED BRG.ENABLED_HOSTELS = halfShare (s.planned 4) 4 (l.hostels / 2) % 2 ^ 8 := by
  unfold State.setEnabled
  simp (disch := decide) only [State.setFlag, fld_setFld_apart, fld_setFld]
  rfl

end

/-- Settles O54: run-time firmware writes the enabled set from the half shares, and what it does next leaves that register alone. -/
theorem enabledShares : Obligations.EnabledShares := by
  unfold Obligations.EnabledShares
  intro s ec lms hpass
  obtain ⟨t, hexec, kept⟩ := exec_runtimeFirmware hpass
  refine ⟨t, hexec, fun e he => ?_⟩
  dsimp only
  generalize s.sbx.licence.getD {} = l at kept
  refine ⟨fun i hi => ?_, fun i hi => ?_, ?_, ?_⟩
  · have low : 8 * e + i < 16 := by omega
    have share := enabledIn_halfShare _ he (by decide) ((fld_congr kept _).trans (setEnabled_hbm s l)) i hi
    simpa only [State.siteEnabled, if_pos low] using share
  · have high : ¬ 16 + 8 * e + i < 16 := by omega
    have port : 16 + 8 * e + i - 16 = 8 * e + i := by omega
    have share := enabledIn_halfShare _ he (by decide) ((fld_congr kept _).trans (setEnabled_lpddr s l)) i hi
    simp only [State.siteEnabled, if_neg high, port]
    simpa only [Nat.add_assoc] using share
  · exact enabledIn_halfShare _ he (by decide) ((fld_congr kept _).trans (setEnabled_oxlux s l))
  · exact enabledIn_halfShare _ he (by decide) ((fld_congr kept _).trans (setEnabled_hostels s l))

end Sys2Proof.Machine

namespace Sys2Proof.Machine

open Sys2Proof Sys2Proof.Safety

/-! ### A field at the bottom of a register (R13)

The model writes a field by arithmetic on natural numbers. Here is the same on words, for the one field of a register that starts at bit 0. -/

/-- The difference that clears the bits of `b` in `a`. -/
theorem toNat_sub_and (a b : W64) : a.toNat - (a &&& b).toNat = (a &&& ~~~b).toNat := by
  have disjoint : (a &&& ~~~b) &&& (a &&& b) = 0#64 := by
    ext i hi
    cases hb : b[i] <;> simp [hb]
  have whole : (a &&& ~~~b) ||| (a &&& b) = a := by
    ext i hi
    simp [← Bool.and_or_distrib_left]
  have sum := BitVec.toNat_add_of_and_eq_zero disjoint
  rw [BitVec.add_eq_or_of_and_eq_zero _ _ disjoint, whole] at sum
  exact Nat.sub_eq_of_eq_add sum

theorem land_toNat (a b : W64) : Nat.land a.toNat b.toNat = (a &&& b).toNat := (BitVec.toNat_and a b).symm

theorem lor_toNat (a b : W64) : Nat.lor a.toNat b.toNat = (a ||| b).toNat := (BitVec.toNat_or a b).symm

/-- A field that holds `o` after a write of `x` through the mask `m`. -/
def wordWrite (acc : Acc) (sealBit : Bool) (o x m : W64) : W64 :=
  match acc with
  | .rw => (x &&& m) ||| (o &&& ~~~m)
  | .rwl => if sealBit then o else (x &&& m) ||| (o &&& ~~~m)
  | .w1c => o &&& ~~~(x &&& m)
  | .w1s => o ||| (x &&& m)
  | _ => o

/-- The bits of a field that starts at bit 0. -/
def lowBits (hi : Nat) : W64 := BitVec.ofNat 64 (2 ^ (hi + 1) - 1)

theorem toNat_lowBits {hi : Nat} (h : hi < 64) : (lowBits hi).toNat = 2 ^ (hi + 1) - 1 := by
  have : 2 ^ (hi + 1) ≤ 2 ^ 64 := Nat.pow_le_pow_right (by decide) h
  have := Nat.two_pow_pos (hi + 1)
  simp only [lowBits, BitVec.toNat_ofNat]
  omega

theorem toNat_and_lowBits (a : W64) {hi : Nat} (h : hi < 64) : (a &&& lowBits hi).toNat = a.toNat % 2 ^ (hi + 1) := by
  rw [BitVec.toNat_and, toNat_lowBits h, Nat.and_two_pow_sub_one_eq_mod]

/-- A write of a field sets no bit outside the field. -/
theorem wordWrite_outside (acc : Acc) (sealBit : Bool) (old o x m F : W64) :
    (old &&& ~~~F) &&& wordWrite acc sealBit (o &&& F) (x &&& F) m = 0#64 := by
  have merged : (old &&& ~~~F) &&& ((x &&& F &&& m) ||| (o &&& F &&& ~~~m)) = 0#64 := by
    ext i hi
    cases hF : F[i] <;> simp [hF]
  have kept : (old &&& ~~~F) &&& (o &&& F) = 0#64 := by
    ext i hi
    cases hF : F[i] <;> simp [hF]
  cases acc
  case rw => exact merged
  case rwl =>
    cases sealBit
    · exact merged
    · exact kept
  case w1c =>
    ext i hi
    cases hF : F[i] <;> simp [wordWrite, hF]
  case w1s =>
    ext i hi
    cases hF : F[i] <;> simp [wordWrite, hF]
  all_goals exact kept

section
variable {hi : Nat} (hhi : hi < 64) (acc : Acc) (reset : Nat) (sealBit : Bool) (old v mask : W64)
include hhi

theorem fieldWrite_low : fieldWrite sealBit old.toNat v.toNat mask.toNat ⟨hi, 0, acc, reset⟩ =
    (wordWrite acc sealBit (old &&& lowBits hi) (v &&& lowBits hi) (mask &&& lowBits hi)).toNat := by
  have part (a : W64) : a.toNat / 1 % 2 ^ (hi + 1 - 0) = (a &&& lowBits hi).toNat := by
    rw [toNat_and_lowBits a hhi, Nat.div_one, Nat.sub_zero]
  unfold fieldWrite
  simp only [part, land_toNat, lor_toNat, toNat_sub_and, Nat.pow_zero, Nat.mul_one]
  cases acc
  case rwl => cases sealBit <;> rfl
  all_goals rfl

/-- A register of one field, which starts at bit 0, after a write. -/
theorem fieldsWrite_low : fieldsWrite sealBit old.toNat v.toNat mask.toNat [⟨hi, 0, acc, reset⟩] =
    ((old &&& ~~~lowBits hi) ||| wordWrite acc sealBit (old &&& lowBits hi) (v &&& lowBits hi) (mask &&& lowBits hi)).toNat := by
  have rest : old.toNat - Nat.land old.toNat (Nat.lor 0 ((2 ^ (hi + 1 - 0) - 1) * 2 ^ 0)) = (old &&& ~~~lowBits hi).toNat := by
    have listed : Nat.lor 0 ((2 ^ (hi + 1 - 0) - 1) * 2 ^ 0) = (lowBits hi).toNat := by
      rw [toNat_lowBits hhi, Nat.pow_zero, Nat.mul_one, Nat.sub_zero]
      exact Nat.zero_or _
    rw [listed, land_toNat, toNat_sub_and]
  simp only [fieldsWrite, List.foldl_cons, List.foldl_nil, fieldWrite_low hhi, rest]
  have disjoint := wordWrite_outside acc sealBit old old v (mask &&& lowBits hi) (lowBits hi)
  rw [← BitVec.toNat_add_of_and_eq_zero disjoint, BitVec.add_eq_or_of_and_eq_zero _ _ disjoint]

end

/-! ### A write of a register that no unit watches (R13, R497, R499) -/

/-- A register at `off` that belongs to no unit of the floor plan and whose write does nothing but set it. -/
def PlainRegister (off : Nat) (r : RegSpec) : Prop :=
  regFind off = some (r, 0) ∧ r.base = off ∧ (off < 0x500000 ∨ 0x3100000 ≤ off) ∧ (off < 0x100000 ∨ 0x100028 ≤ off) ∧
    off ≠ 0x200104 ∧ off ≠ 0x200108 ∧ ownBits off = 0

section
variable {off : Nat} {r : RegSpec} (hr : PlainRegister off r)
include hr

theorem windowOf_plain : windowOf off = none := by
  obtain ⟨-, -, place, -⟩ := hr
  unfold windowOf
  iterate 5 rw [if_neg (by simp only [Bool.and_eq_true, decide_eq_true_eq]; omega)]

theorem blockAbsent_plain (s : State) : s.blockAbsent off = false := by
  obtain ⟨-, -, place, -⟩ := hr
  unfold State.blockAbsent
  iterate 7 rw [if_neg (by simp only [Bool.and_eq_true, decide_eq_true_eq]; omega)]

/-- The word that a write of `v` through `mask` leaves. -/
theorem regWriteMasked_plain (s : State) (v mask : Nat) : s.regWriteMasked off r v mask =
    s.setReg off (BitVec.ofNat 64 (fieldsWrite (s.sealed off) (s.reg off).toNat v mask r.fields)) := by
  have present := blockAbsent_plain hr s
  obtain ⟨-, base, -, -, thresh, limit, own⟩ := hr
  have mine : (if r.width = 64 && mask = 2 ^ 32 - 1 && (r.base = 0x3800018 || r.base = 0x500010) then 0 else ownBits r.base) = 0 := by
    rw [base, own, ite_self]
  unfold State.regWriteMasked
  dsimp only
  rw [present, mine, base, if_neg Bool.false_ne_true, if_neg thresh, if_neg limit, show Nat.land mask 0 = 0 from Nat.and_zero mask, Nat.sub_zero]

theorem csrWrite4_plain (s : State) (v : Nat) : s.csrWrite4 off v =
    s.setReg off (BitVec.ofNat 64 (fieldsWrite (s.sealed off) (s.reg off).toNat (v % 2 ^ 32) (2 ^ 32 - 1) r.fields)) := by
  have window := windowOf_plain hr
  have write := regWriteMasked_plain hr s (v % 2 ^ 32) (2 ^ 32 - 1)
  obtain ⟨find, base, place, -⟩ := hr
  have mcast : ¬ (0xBF0000 ≤ off && off < 0xBF0100) = true := by simp only [Bool.and_eq_true, decide_eq_true_eq]; omega
  have msix : ¬ (0x501000 ≤ off && off < 0x501400) = true := by simp only [Bool.and_eq_true, decide_eq_true_eq]; omega
  have chan (b : Bool) : ¬ (0xC00500 ≤ r.base && r.base < 0xC00E00 && b) = true := by
    simp only [Bool.and_eq_true, decide_eq_true_eq]; omega
  unfold State.csrWrite4
  rw [window]
  dsimp only
  rw [if_neg mcast, if_neg msix, find]
  dsimp only
  rw [if_neg (chan _), Nat.sub_zero, Nat.mul_zero, Nat.pow_zero, Nat.mul_one, Nat.mul_one]
  exact write

theorem csrWrite8_plain (width : r.width = 64) (s : State) (v : Nat) : s.csrWrite8 off v =
    s.setReg off (BitVec.ofNat 64 (fieldsWrite (s.sealed off) (s.reg off).toNat (v % 2 ^ 64) (2 ^ 64 - 1) r.fields)) := by
  have window := windowOf_plain hr
  have write := regWriteMasked_plain hr s (v % 2 ^ 64) (2 ^ 64 - 1)
  obtain ⟨find, base, place, -⟩ := hr
  have chan (b : Bool) : ¬ (0xC00500 ≤ r.base && r.base < 0xC00E00 && b) = true := by
    simp only [Bool.and_eq_true, decide_eq_true_eq]; omega
  unfold State.csrWrite8
  rw [window, find]
  change (if r.width = 64 then _ else _) = _
  rw [if_pos width, if_neg (chan _)]
  exact write

end

/-- What a write at `off` does, where no unit watches the offset. -/
theorem exec_registerWrite {off : Nat} {wide : Bool} {who : Writer} {s : State} (bound : off < 2 ^ 26)
    (aligned : off % (if wide then 8 else 4) = 0) (may : s.mayWrite who off = true)
    (place : off < 0x500000 ∨ 0x600000 ≤ off ∧ off < 0x1800000 ∨ 0x1D00000 ≤ off)
    (queue : off < 0x100000 ∨ 0x100028 ≤ off) (v : W64) :
    exec (.registerWrite who (BitVec.ofNat 26 off) wide v) s = .next (s.csrWrite off (if wide then 8 else 4) v.toNat) := by
  have offset : (BitVec.ofNat 26 off).toNat = off := by rw [BitVec.toNat_ofNat, Nat.mod_eq_of_lt bound]
  dsimp only [exec, execRegisterWrite]
  rw [offset, if_neg (by simp only [may, aligned]; decide)]
  have message : ¬ (0x501000 ≤ off && off < 0x501400) = true := by simp only [Bool.and_eq_true, decide_eq_true_eq]; omega
  have bytes : (if wide then 8 else 4) ≤ 8 := by cases wide <;> decide
  generalize (if wide then 8 else 4) = n at bytes aligned
  have fault : ¬ (covers off n CTU.FQ_CTRL || covers off n CTU.FQ_SIZE) = true := by
    simp only [covers, Bool.or_eq_true, Bool.and_eq_true, decide_eq_true_eq]
    unfold CTU.FQ_CTRL CTU.FQ_SIZE
    omega
  have port : ¬ (0x1800000 ≤ off && off < 0x1A00000) = true := by simp only [Bool.and_eq_true, decide_eq_true_eq]; omega
  have upper : ¬ (0x1C00000 ≤ off && off < 0x1D00000) = true := by simp only [Bool.and_eq_true, decide_eq_true_eq]; omega
  have unit (t : State) : t.unitWrites s off n = t := by
    unfold State.unitWrites
    dsimp only
    rw [if_neg upper, if_neg port]
  rw [if_neg fault, if_neg message, unit]

section
variable {off : Nat} {r : RegSpec} (hr : PlainRegister off r) (bound : off < 2 ^ 26) {who : Writer} {s : State} {v : W64}
include hr bound

/-- A write of a plain register sets it, and nothing else. -/
theorem writesReg_plain {wide : Bool} {f : W64 → W64} (aligned : off % (if wide then 8 else 4) = 0)
    (write : s.csrWrite off (if wide then 8 else 4) v.toNat = s.setReg off (f (s.reg off))) : WritesReg who off wide v f s := by
  intro may
  obtain ⟨-, -, place, queue, -⟩ := hr
  refine ⟨_, exec_registerWrite bound aligned may (by omega) (by omega) v, ?_⟩
  rw [write]
  refine ⟨rfl, fun k hk => reg_setReg_other s _ (fun h => hk (List.mem_singleton.2 h)), reg_setReg_same s off _⟩

/-- A write of all 64 bits of a plain register. -/
theorem writesReg_wide {f : W64 → W64} (aligned : off % 8 = 0) (width : r.width = 64)
    (hf : ∀ old : W64, f old = BitVec.ofNat 64 (fieldsWrite (s.sealed off) old.toNat v.toNat (2 ^ 64 - 1) r.fields)) :
    WritesReg who off true v f s := by
  have wide : s.csrWrite off 8 v.toNat = s.csrWrite8 off v.toNat := if_pos rfl
  have write := wide.trans (csrWrite8_plain hr width s v.toNat)
  rw [Nat.mod_eq_of_lt v.isLt, ← hf] at write
  exact writesReg_plain hr bound aligned write

/-- A write of 32 bits at a plain register of one field, which starts at bit 0. -/
theorem writesReg_low {hi reset : Nat} {acc : Acc} {f : W64 → W64} (aligned : off % 4 = 0) (hhi : hi < 64)
    (fields : r.fields = [⟨hi, 0, acc, reset⟩])
    (hf : ∀ old, f old = (old &&& ~~~lowBits hi) ||| wordWrite acc (s.sealed off) (old &&& lowBits hi) (v &&& 0xFFFFFFFF#64 &&& lowBits hi)
      (0xFFFFFFFF#64 &&& lowBits hi)) : WritesReg who off false v f s := by
  have low : v.toNat % 2 ^ 32 = (v &&& 0xFFFFFFFF#64).toNat := (toNat_and_lowBits v (hi := 31) (by decide)).symm
  refine writesReg_plain hr bound aligned ((csrWrite4_plain hr s v.toNat).trans ?_)
  rw [fields, low, hf]
  exact congrArg _ ((congrArg _ (fieldsWrite_low hhi acc reset (s.sealed off) (s.reg off) _ 0xFFFFFFFF#64)).trans (BitVec.ofNat_toNat ..))

end

theorem plain_scratch : PlainRegister GLB.SCRATCH ⟨0x20, [], 64, [⟨63, 0, .rw, 0⟩]⟩ := by unfold PlainRegister; decide
theorem plain_irqEnable : PlainRegister GB.IRQ_ENABLE ⟨0x380002C, [], 32, [⟨11, 0, .rw, 0⟩]⟩ := by unfold PlainRegister; decide
theorem plain_irqStatus : PlainRegister GB.IRQ_STATUS ⟨0x3800028, [], 32, [⟨11, 0, .w1c, 0⟩]⟩ := by unfold PlainRegister; decide
theorem plain_powerLimit : PlainRegister PT.POWER_LIMIT ⟨0x200018, [], 32, [⟨10, 0, .rwl, 0x4B0⟩]⟩ := by unfold PlainRegister; decide

/-- The fields of GLB.COUNTS, all read-only. -/
def countsFields : List FieldSpec := [⟨7, 0, .ro, 0x60⟩, ⟨12, 8, .ro, 0x10⟩, ⟨17, 13, .ro, 0x10⟩, ⟨22, 18, .ro, 0x10⟩, ⟨25, 23, .ro, 4⟩,
  ⟨29, 26, .ro, 8⟩, ⟨35, 30, .ro, 0x20⟩, ⟨42, 36, .ro, 0x40⟩, ⟨49, 43, .ro, 0x40⟩]

theorem plain_counts : PlainRegister GLB.COUNTS ⟨0x18, [], 64, countsFields⟩ := by unfold PlainRegister; decide

/-- A word is its bits outside and inside a field. -/
theorem and_split (a F : W64) : (a &&& ~~~F) ||| (a &&& F) = a := by
  ext i hi
  cases hF : F[i] <;> simp [hF]

theorem and_not_split (a b F : W64) : (a &&& ~~~F) ||| (a &&& F &&& ~~~(b &&& F)) = a &&& ~~~(b &&& F) := by
  ext i hi
  cases hF : F[i] <;> simp [hF]

section
variable (who : Writer) (s : State) (v : W64)

theorem writesReg_scratch_low : WritesReg who GLB.SCRATCH false v (fun o => (o &&& 0xFFFFFFFF00000000#64) ||| (v &&& 0xFFFFFFFF#64)) s := by
  refine writesReg_low plain_scratch (by decide) (by decide) (by decide) rfl fun old => ?_
  simp [lowBits, wordWrite, BitVec.and_assoc, BitVec.or_comm]

theorem writesReg_irqEnable : WritesReg who GB.IRQ_ENABLE false v (fun o => (o &&& 0xFFFFFFFFFFFFF000#64) ||| (v &&& 0xFFF#64)) s := by
  refine writesReg_low plain_irqEnable (by decide) (by decide) (by decide) rfl fun old => ?_
  simp [lowBits, wordWrite, BitVec.and_assoc]

theorem writesReg_irqStatus : WritesReg who GB.IRQ_STATUS false v (fun o => o &&& ~~~(v &&& 0xFFF#64)) s := by
  refine writesReg_low plain_irqStatus (by decide) (by decide) (by decide) rfl fun old => ?_
  calc old &&& ~~~(v &&& 0xFFF#64)
      = (old &&& ~~~0xFFF#64) ||| (old &&& 0xFFF#64 &&& ~~~(v &&& 0xFFF#64)) := (and_not_split old v _).symm
    _ = _ := by simp [lowBits, wordWrite, BitVec.and_assoc]

theorem writesReg_powerLimit : WritesReg who PT.POWER_LIMIT false v
    (fun o => if s.flag PT.CTRL PT.CTRL_SEAL then o else (o &&& 0xFFFFFFFFFFFFF800#64) ||| (v &&& 0x7FF#64)) s := by
  refine writesReg_low plain_powerLimit (by decide) (by decide) (by decide) rfl fun old => ?_
  have block : s.sealed PT.POWER_LIMIT = s.flag PT.CTRL PT.CTRL_SEAL := rfl
  rw [block]
  cases s.flag PT.CTRL PT.CTRL_SEAL
  · simp [lowBits, wordWrite, BitVec.and_assoc]
  · exact (and_split old (lowBits 10)).symm

theorem writesReg_scratch : WritesReg who GLB.SCRATCH true v (fun _ => v) s := by
  refine writesReg_wide plain_scratch (by decide) (by decide) rfl fun old => ?_
  have field := fieldsWrite_low (hi := 63) (by decide) .rw 0 (s.sealed GLB.SCRATCH) old v (BitVec.allOnes 64)
  rw [BitVec.toNat_allOnes] at field
  have ones : lowBits 63 = BitVec.allOnes 64 := by decide
  rw [field, BitVec.ofNat_toNat, ones]
  simp only [wordWrite, BitVec.and_allOnes, BitVec.not_allOnes, BitVec.and_zero, BitVec.or_zero, BitVec.zero_or, BitVec.setWidth_eq]

/-- A read-only field, added to what lies below it. -/
theorem add_fieldWrite_ro (sealBit : Bool) (b old w mask reset : Nat) {hi lo : Nat} (h : lo ≤ hi) :
    b + old % 2 ^ lo + fieldWrite sealBit old w mask ⟨hi, lo, .ro, reset⟩ = b + old % 2 ^ (hi + 1) := by
  have field : fieldWrite sealBit old w mask ⟨hi, lo, .ro, reset⟩ = 2 ^ lo * (old / 2 ^ lo % 2 ^ (hi + 1 - lo)) := Nat.mul_comm ..
  have width : 2 ^ (hi + 1) = 2 ^ lo * 2 ^ (hi + 1 - lo) := by rw [← Nat.pow_add, Nat.add_sub_cancel' (by omega)]
  rw [field, width, Nat.mod_mul, Nat.add_assoc]

/-- A write leaves the read-only fields of the device's counts, and its reserved bits, as they are. -/
theorem fieldsWrite_counts (sealBit : Bool) (old w mask : Nat) : fieldsWrite sealBit old w mask countsFields = old := by
  have listed : countsFields.foldl (fun m f => Nat.lor m ((2 ^ (f.hi + 1 - f.lo) - 1) * 2 ^ f.lo)) 0 = 2 ^ 50 - 1 := by decide
  have reserved : old - Nat.land old (2 ^ 50 - 1) = old - old % 2 ^ 50 + old % 2 ^ 0 := by
    rw [show Nat.land old (2 ^ 50 - 1) = old % 2 ^ 50 from Nat.and_two_pow_sub_one_eq_mod old 50, Nat.pow_zero, Nat.mod_one, Nat.add_zero]
  unfold fieldsWrite
  dsimp only
  rw [listed, reserved]
  simp (disch := decide) only [countsFields, List.foldl_cons, List.foldl_nil, add_fieldWrite_ro, Nat.reduceAdd]
  exact Nat.sub_add_cancel (Nat.mod_le old _)

theorem writesReg_counts : WritesReg who GLB.COUNTS true v id s := by
  refine writesReg_wide plain_counts (by decide) (by decide) rfl fun old => ?_
  rw [fieldsWrite_counts, BitVec.ofNat_toNat]
  exact (BitVec.setWidth_eq old).symm

end

/-! ### The staging windows of the timetable (R71, R106) -/

section
variable {e i : Nat} (he : e < 2) (hi : i < 655360)
include he hi

theorem windowOf_timetable : windowOf (0x940000 + e * 0x140000 + 2 * i) = some (e, 0, 2 * i) := by
  obtain rfl | rfl : e = 0 ∨ e = 1 := by omega
  · unfold windowOf
    rw [if_pos (by simp only [Bool.and_eq_true, decide_eq_true_eq]; omega), show 0x940000 + 0 * 0x140000 + 2 * i - 0x940000 = 2 * i by omega]
  · unfold windowOf
    rw [if_neg (by simp only [Bool.and_eq_true, decide_eq_true_eq]; omega),
      if_pos (by simp only [Bool.and_eq_true, decide_eq_true_eq]; omega), show 0x940000 + 1 * 0x140000 + 2 * i - 0xA80000 = 2 * i by omega]

/-- A write of two timetable entries through their window. -/
theorem exec_timetableWrite (heven : i % 2 = 0) {who : Writer} {s : State}
    (may : s.mayWrite who (0x940000 + e * 0x140000 + 2 * i) = true) (v : W64) :
    exec (.registerWrite who (BitVec.ofNat 26 (0x940000 + e * 0x140000 + 2 * i)) false v) s = .next (s.windowWrite e 0 (2 * i) v.toNat) := by
  have width : (if false = true then 8 else 4) = 4 := rfl
  rw [exec_registerWrite (by omega) (by rw [width]; omega) may (by omega) (by omega) v]
  have four (off : Nat) : s.csrWrite off (if false = true then 8 else 4) v.toNat = s.csrWrite4 off v.toNat := rfl
  rw [four, State.csrWrite4, windowOf_timetable he hi]

end

/-- The table of a half's banks after a write of two entries. -/
def twoEntries (bank : Tab (BitVec 16)) (k : Nat) (v : W64) : Tab (BitVec 16) :=
  tabSet 0 (tabSet 0 bank k (BitVec.ofNat 16 (v.toNat % 8192))) (k + 1) (BitVec.ofNat 16 (v.toNat / 65536 % 8192))

theorem windowWrite_armed {s : State} {e : Nat} (harm : s.flag (XR.TT_CTRL e) XR.TT_CTRL_ARM = true) (kind b v : Nat) :
    s.windowWrite e kind b v = s := if_pos harm

theorem windowWrite_timetable {s : State} {e : Nat} (harm : s.flag (XR.TT_CTRL e) XR.TT_CTRL_ARM = false) (i : Nat) (v : W64) :
    s.windowWrite e 0 (2 * i) v.toNat =
      s.setHalf e { s.half e with bank := twoEntries (s.half e).bank (2 ^ 20 * s.stagingBank e + i) v } := by
  have entry : 2 * i / 2 = i := Nat.mul_div_cancel_left i (by decide)
  unfold State.windowWrite
  rw [harm, if_neg Bool.false_ne_true]
  dsimp only
  rw [entry]
  rfl

/-- The 13 bits that an entry keeps of its 16 (R106). -/
theorem ofNat_mod_8192 (n : Nat) : BitVec.ofNat 16 (n % 8192) = BitVec.ofNat 16 n &&& 0x1FFF#16 := by
  apply BitVec.eq_of_toNat_eq
  have mask : (BitVec.ofNat 16 n).toNat &&& 2 ^ 13 - 1 = (BitVec.ofNat 16 n).toNat % 2 ^ 13 := Nat.and_two_pow_sub_one_eq_mod _ 13
  have bits : (BitVec.ofNat 16 n &&& 0x1FFF#16).toNat = (BitVec.ofNat 16 n).toNat % 2 ^ 13 := (BitVec.toNat_and ..).trans mask
  rw [bits, BitVec.toNat_ofNat, BitVec.toNat_ofNat]
  omega

theorem tabGet_twoEntries (bank : Tab (BitVec 16)) (k : Nat) (v : W64) (j : Nat) : tabGet 0 (twoEntries bank k v) j =
    if j = k then v.extractLsb' 0 16 &&& 0x1FFF#16 else if j = k + 1 then v.extractLsb' 16 16 &&& 0x1FFF#16 else tabGet 0 bank j := by
  have low : BitVec.ofNat 16 (v.toNat % 8192) = v.extractLsb' 0 16 &&& 0x1FFF#16 := ofNat_mod_8192 v.toNat
  have high : BitVec.ofNat 16 (v.toNat / 65536 % 8192) = v.extractLsb' 16 16 &&& 0x1FFF#16 := by
    rw [ofNat_mod_8192, BitVec.extractLsb', Nat.shiftRight_eq_div_pow]
  unfold twoEntries
  rw [tabGet_set, tabGet_set, low, high]
  by_cases first : j = k
  · have : j ≠ k + 1 := by omega
    simp [first]
  · simp [first]

/-! ### Elapsed time (R454) -/

/-- After a read of the low word the high word reads as it was then. -/
theorem csrRead_latched {t : State} {n : Nat} (latched : t.etcLatch = some (BitVec.ofNat 32 n)) (bound : n < 2 ^ 32) :
    t.csrRead (ETC.VALUE + 4) 4 = n := by
  unfold State.csrRead
  rw [if_pos (by decide), latched]
  exact (BitVec.toNat_ofNat ..).trans (Nat.mod_eq_of_lt bound)

/-- Settles O29, register by register of each access code, then the windows and the clock. -/
theorem registerWrites : Obligations.RegisterWrites := by
  unfold Obligations.RegisterWrites
  intro who s v
  refine ⟨writesReg_scratch who s v, writesReg_scratch_low who s v, writesReg_irqEnable who s v, writesReg_irqStatus who s v,
    writesReg_powerLimit who s v, writesReg_counts who s v, ?_, ?_, ?_, ?_⟩
  · intro e i he hi heven may
    refine ⟨_, exec_timetableWrite he hi heven may v, windowWrite_armed (kind := 0) (b := 2 * i) (v := v.toNat), fun harm => ?_⟩
    have other : 1 - e ≠ e := by omega
    rw [windowWrite_timetable harm]
    refine ⟨rfl, half_setHalf_other s _ other, ?_, fun j => ?_⟩
    · rw [half_setHalf]
    · rw [half_setHalf]
      exact tabGet_twoEntries _ _ v j
  · intro off wide refused
    dsimp only [exec, execRegisterWrite]
    refine if_pos ?_
    obtain misaligned | ⟨rfl, early⟩ := refused
    · simp [misaligned]
    · simp [State.mayWrite, early]
  · exact ⟨_, rfl, rfl, fun r hr => reg_setReg_other s _ (fun h => hr (List.mem_singleton.2 h)), reg_setReg_same s ETC.VALUE _⟩
  · have bound : s.etc / 2 ^ 32 < 2 ^ 32 := Nat.div_lt_of_lt_mul (s.reg ETC.VALUE).isLt
    refine ⟨_, rfl, rfl, csrRead_latched rfl bound, fun u hu => ?_⟩
    obtain rfl := Host.Outcome.next.inj hu
    exact csrRead_latched rfl bound

end Sys2Proof.Machine

namespace Sys2Proof.Machine

open Sys2Proof Sys2Proof.Safety

/-! ### A discarded tile (R47, R48) -/

/-- Registers and a slice's queues aside, a discard gives the tile its reset value. -/
theorem discardTile_eq {s : State} {t : Nat} (here : s.tileGone t = false) :
    ∃ u : State, u.tiles = s.tiles ∧ u.mem = s.mem ∧ s.discardTile t = (u.setTile t {}, 0) := by
  unfold State.discardTile
  rw [if_neg (by simp [here])]
  dsimp only
  split
  all_goals
    refine ⟨_, ?_, ?_, rfl⟩
    all_goals rfl

theorem tile_congr {s t : State} (h : t.tiles = s.tiles) (k : Nat) : t.tile k = s.tile k := by unfold State.tile; rw [h]

/-- The bytes of an invalid sector read as zeros (R47). -/
theorem bufByte_of_invalid {s : State} {a : Nat} (invalid : (s.tile (a / 4096)).valid = 0) : s.bufByte a = 0 := by
  unfold State.bufByte State.sectorValid
  simp [invalid]

/-- Settles O56: the tile takes its reset value, whose sectors are all invalid, and nothing else of the buffer is written. -/
theorem discardedTile : Obligations.DiscardedTile := by
  intro s t here
  obtain ⟨u, tiles, mem, discarded⟩ := discardTile_eq here
  rw [discarded]
  refine ⟨rfl, ?_, ?_, ?_, fun k other => ?_, mem, fun i inTile => bufByte_of_invalid ?_⟩
  · rw [tile_setTile]
  · rw [tile_setTile]
  · rw [tile_setTile]
  · rw [tile_setTile_other u {} other, tile_congr tiles]
  · have : (4096 * t + i) / 4096 = t := by omega
    rw [this, tile_setTile]

/-! ### Scrub passes (R40) -/

/-- A mark in a slice's status with a change of the slice's record: what a period boundary of the scrubber does. -/
theorem setStatus_updSlice (s : State) (i : Nat) (f : Fld) (g : Slice → Slice) :
    let t := (s.setFlag (SLICE.STATUS i) f true).updSlice i g
    t = { s with regs := t.regs, slices := t.slices } ∧ SameRegs [SLICE.STATUS i] s t ∧ fieldIs t s (SLICE.STATUS i) f 1 ∧
      t.slice i = g (s.slice i) :=
  ⟨rfl, fun _ other => reg_setFld_other s f 1 (fun same => other (List.mem_singleton.2 same)), reg_setFld_same s _ f 1, slice_setSlice ..⟩

section
variable {sl : BitVec 7} {s : State} (here : s.sliceHere sl.toNat = true) (on : s.flag (SLICE.SCRUB sl.toNat) SLICE.SCRUB_ENABLE = true)
include here on

/-- A period boundary of a slice that scrubs, while no pass runs. -/
theorem exec_scrubPassStart_idle (idle : s.scrubActive sl.toNat = false) : exec (.scrubPassStart sl) s = .next
    ((s.setFlag (SLICE.STATUS sl.toNat) SLICE.STATUS_SCRUB_ACTIVE true).updSlice sl.toNat fun v => { v with scrubPos := 0 }) := by
  dsimp only [exec, execScrubPassStart]
  rw [if_neg (by simp [here, on]), if_neg (by simp [idle])]

/-- The same while a pass runs. -/
theorem exec_scrubPassStart_active (active : s.scrubActive sl.toNat = true) : exec (.scrubPassStart sl) s = .next
    ((s.setFlag (SLICE.STATUS sl.toNat) SLICE.STATUS_SCRUB_LATE true).updSlice sl.toNat fun v => { v with scrubDue := true }) := by
  dsimp only [exec, execScrubPassStart]
  rw [if_neg (by simp [here, on]), if_pos active]

end

/-! ### Combines (R85, R86) -/

theorem redPick_none {l : List RedBeat} (h : ∀ b ∈ l, b.ready = none) : redPick l = none := by
  induction l with
  | nil => rfl
  | cons a l ih =>
    obtain ⟨idle, rest⟩ := List.forall_mem_cons.1 h
    simp only [redPick, idle, ih rest]

/-- What is picked is a beat of the list with its ready contribution. -/
theorem ready_of_redPick {l : List RedBeat} {c : RedBeat} {g : RedHeld} (h : redPick l = some (c, g)) : c ∈ l ∧ c.ready = some g := by
  induction l with
  | nil => cases h
  | cons a l ih =>
    have later (h : redPick l = some (c, g)) : c ∈ a :: l ∧ c.ready = some g := ⟨List.mem_cons_of_mem a (ih h).1, (ih h).2⟩
    simp only [redPick] at h
    split at h
    case h_1 x d y ready picked =>
      split at h
      · obtain ⟨rfl, rfl⟩ := Prod.mk.inj (Option.some.inj h)
        exact ⟨List.mem_cons_self, ready⟩
      · exact later (picked.trans h)
    case h_2 x ready picked =>
      obtain ⟨rfl, rfl⟩ := Prod.mk.inj (Option.some.inj h)
      exact ⟨List.mem_cons_self, ready⟩
    case h_3 => exact later h

/-- The beat is picked whose ready contribution arrived before those of all others. -/
theorem redPick_earliest {l r : List RedBeat} {b : RedBeat} {h : RedHeld} (ready : b.ready = some h)
    (first : ∀ c ∈ l ++ r, ∀ g, c.ready = some g → h.order < g.order) : redPick (l ++ b :: r) = some (b, h) := by
  induction l with
  | nil =>
    simp only [List.nil_append, redPick, ready]
    cases picked : redPick r with
    | none => rfl
    | some x =>
      obtain ⟨mem, readyX⟩ := ready_of_redPick picked
      exact if_pos (first x.1 mem x.2 readyX)
  | cons a l ih =>
    obtain ⟨firstA, firstRest⟩ := List.forall_mem_cons.1 first
    simp only [List.cons_append, redPick, ih firstRest]
    cases readyA : a.ready with
    | none => rfl
    | some g => exact if_neg (Nat.lt_asymm (firstA g readyA))

/-- A changed beat stands in the place of the one with its descriptor and beat number. -/
theorem red_putBeat {s : State} {i : Nat} {l r : List RedBeat} {b c : RedBeat} (red : (s.slice i).red = l ++ b :: r)
    (apart : ∀ x ∈ l ++ r, x.idx ≠ b.idx ∨ x.beat ≠ b.beat) (idx : c.idx = b.idx) (beat : c.beat = b.beat) :
    ((s.putBeat i c).slice i).red = l ++ c :: r := by
  have kept (m : List RedBeat) (h : ∀ x ∈ m, x.idx ≠ b.idx ∨ x.beat ≠ b.beat) :
      m.map (fun x => if x.idx = c.idx && x.beat = c.beat then c else x) = m := by
    refine (List.map_congr_left fun x hx => if_neg fun same => ?_).trans (List.map_id m)
    obtain ⟨sameIdx, sameBeat⟩ := (Bool.and_eq_true_iff ..).1 same
    exact (h x hx).elim (fun differs => differs ((of_decide_eq_true sameIdx).trans idx))
      (fun differs => differs ((of_decide_eq_true sameBeat).trans beat))
  unfold State.putBeat State.updSlice
  rw [slice_setSlice]
  dsimp only
  rw [red, List.map_append, List.map_cons, kept l (fun x hx => apart x (List.mem_append_left r hx)),
    kept r (fun x hx => apart x (List.mem_append_right l hx)), if_pos (by simp [idx, beat])]

/-! ### Poisoned tiles and closings (R56, R92) -/

/-- Poisoning a tile changes its mark and a counter, and nothing else. -/
theorem poisonTile_frame (s : State) (t : Nat) :
    s.poisonTile t = { s with regs := (s.poisonTile t).regs, tiles := (s.poisonTile t).tiles } := by
  unfold State.poisonTile
  dsimp only
  split <;> rfl

theorem tile_poisonTile_same (s : State) (t : Nat) : ((s.poisonTile t).tile t).poisoned = true := by
  unfold State.poisonTile
  dsimp only
  split
  case isTrue poisoned => exact poisoned
  case isFalse => exact congrArg Tile.poisoned (tile_setTile s t _)

theorem tile_poisonTile_other (s : State) {t k : Nat} (other : k ≠ t) : (s.poisonTile t).tile k = s.tile k := by
  unfold State.poisonTile
  dsimp only
  split
  · rfl
  · exact tile_setTile_other s _ other

/-- What tiles become when some of them are poisoned: poisoned ones stay so, and only registers change besides, the clock not among them. -/
structure OnlyPoisons (s t : State) : Prop where
  frame : t = { s with regs := t.regs, tiles := t.tiles }
  etc : t.etc = s.etc
  stays : ∀ k, (s.tile k).poisoned = true → (t.tile k).poisoned = true

theorem onlyPoisons_refl (s : State) : OnlyPoisons s s := ⟨rfl, rfl, fun _ h => h⟩

theorem OnlyPoisons.trans {s t u : State} (h : OnlyPoisons s t) (h' : OnlyPoisons t u) : OnlyPoisons s u := by
  refine ⟨?_, h'.etc.trans h.etc, fun k hk => h'.stays k (h.stays k hk)⟩
  rw [h'.frame, h.frame]

theorem onlyPoisons_poisonTile (s : State) (t : Nat) : OnlyPoisons s (s.poisonTile t) := by
  refine ⟨poisonTile_frame s t, ?_, fun k poisoned => ?_⟩
  · have clock (sl : Nat) : ETC.VALUE ≠ SLICE.POISON_COUNT sl := by unfold SLICE.POISON_COUNT ETC.VALUE; omega
    unfold State.etc State.poisonTile
    dsimp only
    split
    · rfl
    · exact congrArg BitVec.toNat (reg_setFld_other _ _ _ (clock _))
  · by_cases same : k = t
    · rw [same]
      exact tile_poisonTile_same s t
    · rwa [tile_poisonTile_other s same]

/-- The tile of a beat is poisoned where a contribution had reached it. -/
def State.poisonReached (s : State) (i : Nat) (b : RedBeat) : State :=
  if b.arrived ≠ 0 then s.poisonTile (tileAt i (redTile b.desc)) else s

theorem onlyPoisons_poisonReached (s : State) (i : Nat) (b : RedBeat) : OnlyPoisons s (s.poisonReached i b) := by
  unfold State.poisonReached
  split
  · exact onlyPoisons_poisonTile s _
  · exact onlyPoisons_refl s

theorem poisoned_poisonReached (s : State) (i : Nat) {b : RedBeat} (reached : b.arrived ≠ 0) :
    ((s.poisonReached i b).tile (tileAt i (redTile b.desc))).poisoned = true := by
  unfold State.poisonReached
  rw [if_pos reached]
  exact tile_poisonTile_same s _

theorem onlyPoisons_foldl (s : State) (i : Nat) (l : List RedBeat) : OnlyPoisons s (l.foldl (fun s b => s.poisonReached i b) s) := by
  induction l generalizing s with
  | nil => exact onlyPoisons_refl s
  | cons a l ih => exact (onlyPoisons_poisonReached s i a).trans (ih _)

theorem poisoned_foldl (s : State) (i : Nat) {l : List RedBeat} {b : RedBeat} (mem : b ∈ l) (reached : b.arrived ≠ 0) :
    ((l.foldl (fun s b => s.poisonReached i b) s).tile (tileAt i (redTile b.desc))).poisoned = true := by
  induction l generalizing s with
  | nil => cases mem
  | cons a l ih =>
    obtain rfl | later := List.mem_cons.1 mem
    · exact (onlyPoisons_foldl _ i l).stays _ (poisoned_poisonReached s i reached)
    · exact ih _ later

/-- A slice with an open beat of a launch has a lowest one, which its entry names. -/
theorem beatLowest_of_mem {l : List RedBeat} {b : RedBeat} (mem : b ∈ l) : ∃ f, beatLowest l = some f := by
  cases l with
  | nil => cases mem
  | cons a l =>
    unfold beatLowest
    split
    · split
      · exact ⟨_, rfl⟩
      · exact ⟨_, rfl⟩
    · exact ⟨_, rfl⟩

theorem slice_congr {s t : State} (h : t.slices = s.slices) (i : Nat) : t.slice i = s.slice i := by unfold State.slice; rw [h]

/-- Closing a launch with an open beat at a slice (R92): its beats go, one entry is logged, and what they had reached is poisoned. -/
theorem redClose_closes {s : State} {i : Nat} {l : BitVec 16} (opened : ∃ b ∈ (s.slice i).red, redLaunch b.desc = l) :
    let t := s.redClose i l
    (t.slice i).red = (s.slice i).red.filter (fun b => redLaunch b.desc != l) ∧ t.mem = s.mem ∧ Logs kREDUCE_CLOSE 0 (srcOf 1 i) s t ∧
      ∀ b ∈ (s.slice i).red, redLaunch b.desc = l → b.arrived ≠ 0 → (t.tile (tileAt i (redTile b.desc))).poisoned = true := by
  have isMine {b : RedBeat} (mem : b ∈ (s.slice i).red) (launch : redLaunch b.desc = l) :
      b ∈ (s.slice i).red.filter fun b => redLaunch b.desc == l := List.mem_filter.2 ⟨mem, by simp [launch]⟩
  obtain ⟨b, mem, launch⟩ := opened
  obtain ⟨f, lowest⟩ := beatLowest_of_mem (isMine mem launch)
  have poisons := onlyPoisons_foldl s i ((s.slice i).red.filter fun b => redLaunch b.desc == l)
  have poisoned (b : RedBeat) (mem : b ∈ (s.slice i).red) (launch : redLaunch b.desc = l) := poisoned_foldl s i (isMine mem launch)
  unfold State.redClose
  dsimp only
  rw [lowest]
  unfold State.poisonReached at poisons poisoned
  generalize List.foldl _ s _ = u at poisons poisoned ⊢
  have slices : u.slices = s.slices := by rw [poisons.frame]
  have guestbook : u.guestbook = s.guestbook := by rw [poisons.frame]
  refine ⟨?_, ?_, ?_, poisoned⟩
  · refine (congrArg Slice.red (slice_setSlice u i _)).trans ?_
    rw [slice_congr slices]
  · show u.mem = s.mem
    rw [poisons.frame]
  · unfold Logs
    rw [← guestbook]
    exact ⟨_, rfl, rfl, rfl, rfl, poisons.etc⟩

/-! ### Tile audits (R227) -/

/-- Words without a stored error are passed over (R39, R57). -/
theorem sliceFound_clean {s : State} {wds : List Nat} (clean : ∀ wd ∈ wds, s.bufWordErr wd = 0) (queue alone : Bool) :
    s.sliceFound queue alone wds = s := by
  unfold State.sliceFound
  induction wds with
  | nil => rfl
  | cons wd wds ih =>
    obtain ⟨cleanHead, cleanRest⟩ := List.forall_mem_cons.1 clean
    rw [List.foldl_cons, if_neg (by simp [cleanHead]), if_neg (by simp [cleanHead])]
    exact ih cleanRest

/-- The audit of a good tile compares its bytes with its code, and poisons it where they differ. -/
theorem auditTile_good {s : State} {t : Nat} (good : TileGood s (4096 * t) 4096) :
    s.auditTile t = if crcBytes 0 (s.bufBytes (4096 * t) 4096) = s.codeAhead t then (s, 0, (s.tile t).code.toNat)
      else ((s.poisonTile t).sliceFault (4096 * t) cTILE_CODE 3, 1, (s.tile t).code.toNat) := by
  obtain ⟨-, -, here, sound, opened, clean⟩ := good
  have whole : 4096 * t / 4096 = t := by omega
  rw [whole] at here sound
  unfold State.auditTile
  rw [if_neg (by simp [opened]), if_neg (by simp [here]), if_neg (by simp [sound])]
  dsimp only
  have noBad : ((wordsOf (4096 * t) 4096).any fun wd => s.bufWordErr wd == 2) = false :=
    List.any_eq_false.2 fun wd mem => by simp [clean wd mem]
  rw [sliceFound_clean clean, noBad, if_neg (by decide)]
  by_cases same : crcBytes 0 (s.bufBytes (4096 * t) 4096) = s.codeAhead t
  · simp [same]
  · simp [same]

/-- An event is logged in the guestbook and changes nothing else. -/
theorem event_frame (s : State) (kind cause source : Nat) (launch : BitVec 16) (detail : Nat) (payload : List Byte) :
    s.event kind cause source launch detail payload =
      { s with guestbook := (s.event kind cause source launch detail payload).guestbook } := by
  unfold State.event State.gbMerge
  dsimp only
  repeat' split
  all_goals rfl

theorem onlyRegs_sliceLog (s : State) (sl q word cause : Nat) : OnlyRegs s (s.sliceLog sl q word cause) := by
  unfold State.sliceLog
  dsimp only
  split
  · exact (onlyRegs_refl s).setFlag ..
  · exact ((((onlyRegs_refl s).setFld ..).setFld ..).setFld ..).setFlag ..

/-- A fault of a slice is logged in its registers and in the guestbook, and changes nothing else. -/
theorem sliceFault_frame (s : State) (a cause local4 : Nat) : s.sliceFault a cause local4 =
    { s with regs := (s.sliceFault a cause local4).regs, guestbook := (s.sliceFault a cause local4).guestbook } := by
  unfold State.sliceFault State.busError
  dsimp only
  rw [event_frame, onlyRegs_sliceLog]

/-- A slice takes an audit out of its queue. -/
def State.setAudits (s : State) (i : Nat) (l : List Audit) : State := s.setSlice i { s.slice i with audits := l }

theorem rmw_setAudits (s : State) (i : Nat) (l : List Audit) (j : Nat) : ((s.setAudits i l).slice j).rmw = (s.slice j).rmw := by
  unfold State.setAudits
  by_cases same : j = i
  · rw [same, slice_setSlice]
  · rw [slice_setSlice_other s _ same]

theorem tile_setAudits (s : State) (i : Nat) (l : List Audit) (t : Nat) : (s.setAudits i l).tile t = s.tile t := rfl

theorem rmwWord_setAudits (s : State) (i : Nat) (l : List Audit) (wd : Nat) : (s.setAudits i l).rmwWord wd = s.rmwWord wd := by
  unfold State.rmwWord
  rw [rmw_setAudits]

theorem bufWordErr_setAudits (s : State) (i : Nat) (l : List Audit) (wd : Nat) : (s.setAudits i l).bufWordErr wd = s.bufWordErr wd := by
  unfold State.bufWordErr
  rw [rmwWord_setAudits]
  rfl

theorem bufBytes_setAudits (s : State) (i : Nat) (l : List Audit) (a n : Nat) : (s.setAudits i l).bufBytes a n = s.bufBytes a n := by
  induction n generalizing a with
  | zero => rfl
  | succ n ih =>
    have byte : (s.setAudits i l).bufByte a = s.bufByte a := by
      unfold State.bufByte
      rw [rmwWord_setAudits]
      rfl
    unfold State.bufBytes
    rw [byte, ih]

theorem codeAhead_setAudits (s : State) (i : Nat) (l : List Audit) (t : Nat) : (s.setAudits i l).codeAhead t = s.codeAhead t := by
  unfold State.codeAhead
  rw [rmw_setAudits]
  rfl

theorem tileGood_setAudits {s : State} {a n : Nat} (good : TileGood s a n) (i : Nat) (l : List Audit) : TileGood (s.setAudits i l) a n := by
  obtain ⟨nonempty, one, here, sound, opened, clean⟩ := good
  exact ⟨nonempty, one, here, sound, opened, fun wd mem => (bufWordErr_setAudits s i l wd).trans (clean wd mem)⟩

/-- The oldest audit of a slice leaves its queue, and its outcome goes to the porter that asked. -/
theorem exec_tileAudit {sl : BitVec 7} {s : State} {q : Audit} {rest : List Audit} (queue : (s.slice sl.toNat).audits = q :: rest) :
    exec (.tileAudit sl) s =
      let r := (s.setAudits sl.toNat rest).auditTile q.tile
      .next (r.1.meshRespond (edgeEnd (stopOf q.porter)) (coreEnd q.porter) (.porter q.porter q.slot) 0
        (leBytes 4 r.2.1 ++ leBytes 4 r.2.2)) := by
  dsimp only [exec, execTileAudit]
  rw [queue]
  rfl

theorem length_leBytes (n v : Nat) : (leBytes n v).length = n := by
  induction n generalizing v with
  | zero => rfl
  | succ n ih => exact congrArg Nat.succ (ih _)

/-- A response of two words is one flit (R99). -/
theorem sends_meshRespond_words (s : State) (src dst : MeshEnd) (who : Asker) (cause a b : Nat) :
    Sends 1 src (.one dst) 1 (.resp who cause (leBytes 4 a ++ leBytes 4 b)) s
      (s.meshRespond src dst who cause (leBytes 4 a ++ leBytes 4 b)) := by
  have short : (leBytes 4 a ++ leBytes 4 b).length ≤ 8 := by simp [length_leBytes]
  unfold State.meshRespond
  rw [if_pos short]
  exact sends_meshSend s 1 src (.one dst) 0 _

/-- What an audit of a good tile leaves: the slices, the bytes and the mesh as they were, the tile poisoned where its code differs. -/
theorem auditTile_leaves {s : State} {t : Nat} (good : TileGood s (4096 * t) 4096) :
    let r := s.auditTile t
    let same := crcBytes 0 (s.bufBytes (4096 * t) 4096) = s.codeAhead t
    r.2 = (if same then 0 else 1, (s.tile t).code.toNat) ∧ r.1.slices = s.slices ∧ r.1.mem = s.mem ∧ r.1.mesh = s.mesh ∧
      (r.1.tile t).poisoned = if same then false else true := by
  dsimp only
  rw [auditTile_good good]
  obtain ⟨-, -, -, sound, -, -⟩ := good
  rw [Nat.mul_div_cancel_left t (by decide)] at sound
  split
  · exact ⟨rfl, rfl, rfl, rfl, sound⟩
  · rw [sliceFault_frame]
    refine ⟨rfl, ?_, ?_, ?_, tile_poisonTile_same s t⟩
    all_goals
      dsimp only
      rw [poisonTile_frame]

/-- TILE_AUDIT of a good tile (R227). -/
theorem tileAudit_good {sl : BitVec 7} {s : State} {q : Audit} {rest : List Audit} (queue : (s.slice sl.toNat).audits = q :: rest)
    (good : TileGood s (4096 * q.tile) 4096) :
    let same := crcBytes 0 (s.bufBytes (4096 * q.tile) 4096) = s.codeAhead q.tile
    Runs (.tileAudit sl) s fun t => (t.slice sl.toNat).audits = rest ∧ t.mem = s.mem ∧
      (t.tile q.tile).poisoned = (if same then false else true) ∧
      Sends 1 (edgeEnd (stopOf q.porter)) (.one (coreEnd q.porter)) 1 (.resp (.porter q.porter q.slot) 0
        (leBytes 4 (if same then 0 else 1) ++ leBytes 4 (s.tile q.tile).code.toNat)) s t := by
  obtain ⟨answer, slices, mem, mesh, poisoned⟩ := auditTile_leaves (tileGood_setAudits good sl.toNat rest)
  rw [bufBytes_setAudits, codeAhead_setAudits] at answer poisoned
  rw [tile_setAudits] at answer
  refine ⟨_, exec_tileAudit queue, ?_, mem, poisoned, ?_⟩
  · exact (congrArg Slice.audits (slice_congr slices sl.toNat)).trans (congrArg Slice.audits (slice_setSlice ..))
  · have sent := sends_meshRespond_words ((s.setAudits sl.toNat rest).auditTile q.tile).1 (edgeEnd (stopOf q.porter)) (coreEnd q.porter)
      (.porter q.porter q.slot) 0 ((s.setAudits sl.toNat rest).auditTile q.tile).2.1 ((s.setAudits sl.toNat rest).auditTile q.tile).2.2
    rw [answer] at sent ⊢
    dsimp only at sent ⊢
    exact sends_of_mesh_eq sent mesh

/-! ### The events of a slice -/

/-- REDUCE_COMBINE where one ready contribution arrived before all others (R86, R88). -/
theorem reduceCombine_earliest {sl : BitVec 7} {s : State} {l r : List RedBeat} {b : RedBeat} {h : RedHeld}
    (red : (s.slice sl.toNat).red = l ++ b :: r) (ready : b.ready = some h)
    (first : ∀ c ∈ l ++ r, ∀ g, c.ready = some g → h.order < g.order) :
    exec (.reduceCombine sl) s = .next (s.putBeat sl.toNat (b.combine h (s.slice sl.toNat).redOrder)) := by
  dsimp only [exec, execReduceCombine]
  rw [red, redPick_earliest ready first]

/-- Settles O33, row by row: the marks of the scrubber, the pick of a combine, the closing of a launch's beats, and the audit of a good tile. -/
theorem sliceEvents : Obligations.SliceEvents := by
  intro sl s i v _
  refine ⟨fun here on => ⟨fun idle => ?_, fun active => ?_⟩, fun l r b h red ready apart => ?_, fun idle => ?_, fun l slot opened => ?_,
    fun l k slot running alive => ?_, fun q rest queue _ good => tileAudit_good queue good⟩
  · exact ⟨_, exec_scrubPassStart_idle here on idle, setStatus_updSlice s i _ _⟩
  · exact ⟨_, exec_scrubPassStart_active here on active, setStatus_updSlice s i _ _⟩
  · have picked := reduceCombine_earliest red ready fun c mem => (apart c mem).2
    exact ⟨_, picked, rfl, fun j other => slice_setSlice_other s _ other, _,
      red_putBeat red (fun c mem => (apart c mem).1) rfl rfl, rfl, rfl, rfl, rfl, rfl, beq_iff_eq, rfl⟩
  · dsimp only [exec, execReduceCombine]
    rw [redPick_none idle]
  · refine ⟨s.redClose i l, ?_, redClose_closes opened⟩
    dsimp only [exec, execReduceClose]
    rw [slot]
  · dsimp only [exec, execReduceClose]
    rw [slot]
    simp [running, alive]

/-! ### A DISCARD of no launch while an identifier 0 is being killed (R255, R260) -/

/-- A DISCARD by the driver of the one tile at DVA 0: 256 elements of 16 bytes. -/
def driverDiscard : Desc := { words := [0x104, 0, 0, 255], by_ := .driver }

/-- The page of DVA 0, on tile 0 of the buffer and writable. -/
def tileZeroPage : Trans := { va := 0, pa := 0, log2 := 12, r := true, w := true, key := 0 }

/-- Channel 0 of courier 0 holds the driver's DISCARD with its page answered, and the launch in slot 0, of identifier 0, is being killed. -/
def zeroKilled : State :=
  (((State.reset.setFlag (SLICE.STATUS 0) SLICE.STATUS_PRESENT true).setFld (LNCH.STATUS 0) LNCH.STATUS_STATE 2).setLaunch 0
    { killing := true }).setChan 0 0 { queue := [driverDiscard], ahead := [(aheadKey 0 0 false, .page tileZeroPage)] }

theorem driverDiscard_plain : Plain driverDiscard := by
  unfold Plain
  decide

theorem driverDiscard_dstPieces : driverDiscard.dstPieces 0 = [{ off := 0, n := 4096, dva := 0 }] := by decide +kernel

theorem zeroKilled_idle : ChanIdle (zeroKilled.chan 0 0) := by
  unfold ChanIdle
  decide

/-- The channel commands nothing: the descriptor's LAUNCH of 0 is taken for the launch that is being killed. -/
theorem zeroKilled_notCommanded : zeroKilled.killing driverDiscard.launch = true ∧
    ((zeroKilled.chanStart 0 0 oDISCARD).chan 0 0).landed = 0 := by decide +kernel

/-- Refutes O34: its clause on DISCARD leaves the launches open, and a channel commands no unit of a descriptor whose launch is being killed.
With a launch of identifier 0 being killed, the driver's DISCARD (LAUNCH = 0) starts and lands no tile. GO assigns no identifier 0 (R436); the
statement, over every state, does not ask for that. -/
theorem not_courierChannels : ¬ Obligations.CourierChannels := by
  intro all
  obtain ⟨-, -, discards, -⟩ := all 0 0 zeroKilled
  obtain ⟨t, run, -, -, landed, -⟩ := discards driverDiscard _ tileZeroPage rfl (by decide) zeroKilled_idle rfl driverDiscard_plain (by decide)
    (by decide) driverDiscard_dstPieces (by decide) rfl (by decide) (by decide) (by decide) (by decide)
  obtain rfl := Host.Outcome.next.inj run
  exact absurd (zeroKilled_notCommanded.2.symm.trans landed) (by decide)

end Sys2Proof.Machine
